-- ==== Sys2Proof/Word.lean ====
section
/-!
DEFINITION. The word types of the PY-DV32A and the plainest helpers over them. Nothing here is specific to a rule
of the manual; bit-field and byte-order helpers stand in Machine/Bits.lean.
-/

namespace Sys2Proof

/-- One octet. -/
abbrev Byte := BitVec 8
/-- A 32-bit value: a scalar register, a binary32 lane. -/
abbrev W32 := BitVec 32
/-- A 64-bit value: an address register, a ring-slot value. -/
abbrev W64 := BitVec 64

end Sys2Proof
end

