-- ==== Sys2Proof/Syntax.lean ====
section
/-!
DEFINITION. The commands of the PY-DV32A: one constructor of Instr per row of spec/opcode_table.json, with the data
the command brings from outside (an entry value, a received transaction, a measured value, a host image). The opcode
table gives no row any bits, so the operands are the model's own typed form of what the row's rule names.
-/

namespace Sys2Proof

/-- A stored value and its bitwise complement (R49, R96, R128, R383 and their kin). -/
structure Pair where
  v : Nat := 0
  c : Nat := 0
deriving DecidableEq, Repr, Inhabited

/-- A sampler forward's kind and fields (R120). The manual names the fields and gives no byte layout. -/
structure Fwd where
  kind : Nat := 0
  node : Nat := 0
  seed : Nat := 0
  bound : Nat := 0
  hop : Nat := 0
  method : Nat := 0
  fanout : Nat := 0
  typeMask : Nat := 0
  stream : Nat := 0
  rank : Nat := 0
  walk : Nat := 0
  stepIx : Nat := 0
  typeStep : Nat := 0
deriving DecidableEq, Repr, Inhabited

/-- What follows a transaction's header: bytes where the manual gives their layout, named fields where it names
fields only (R120, R136, R137, R158, R159). -/
inductive Body where
  | raw (bytes : List Byte)
  | fwd (f : Fwd)
  | fwdRes (count : Nat) (edges : List (Nat × Nat))
  | gather (key obj kind width : Nat)
  | gatherRes (row : List Nat) (ash : Bool) (version : Nat)
  | scatter (target key : Nat) (row : List Nat)
  | scatterEnd (target program slice issue : Nat)
deriving DecidableEq, Repr

/-- A Krytben transaction (R420). Coordinates hold axis k in bits 5k+4:5k. -/
structure Txn where
  typ : Nat := 0
  err : Bool := false
  dest : Nat := 0
  src : Nat := 0
  tag : Nat := 0
  jobTag : Nat := 0
  replay : Nat := 0
  step : Nat := 0
  detail : Nat := 0
  body : Body := .raw []
deriving DecidableEq, Repr

/-- A flit as a receiver sees it (R413, R414): the link header's 64 bits, octets 8 to 255. -/
structure Flit where
  header : Nat
  rest : List Byte
deriving DecidableEq, Repr

/-- A resource claim record and its complement (R311), a context record (R479), a core record with its bundles
(R290, R291), and descriptors with their complements, as a job image's sections carry them (R39). -/
structure CoreRec where
  head : List Byte
  resident : List (List Byte) := []
  ring : List Byte := []
deriving DecidableEq, Repr

/-- The collective schedule of one context (R448, R449, R488). -/
structure CollSec where
  header : Pair
  buckets : List Pair := []
  entries : List Pair := []
deriving DecidableEq, Repr

/-- A job image: its sections in the order of R39. -/
structure JobImage where
  header : List Byte
  contexts : List (List Byte) := []
  claims : List (List Byte) := []
  cores : List CoreRec := []
  rings : List Pair := []
  streams : List Pair := []
  objects : List Pair := []
  samplers : List Pair := []
  gathers : List Pair := []
  targets : List Pair := []
  colls : List (Nat × CollSec) := []
deriving DecidableEq, Repr

/-- Which way a management request came: the segment (frame with addresses) or the mailbox of CXL port 0 or 1. -/
inductive Via where
  | seg
  | mbox (port : Nat)
deriving DecidableEq, Repr, Inhabited

/-- A management request (R586, R589): addresses and EtherType of its frame (unused in the tunnel), whether its
frame check sequence is good, and the payload. -/
structure Req where
  via : Via := .seg
  dst : List Byte := []
  src : List Byte := []
  etherType : Nat := 0
  fcsOk : Bool := true
  payload : List Byte := []
deriving DecidableEq, Repr

/-- The identity content of an IDENT flit (R429). -/
structure Ident where
  axis : Nat := 0
  dir : Nat := 0
  coord : Nat := 0
  ringSize : Nat := 0
  nodeId : Nat := 0
  boardSlot : Nat := 0
  alt : Bool := false
  part : Nat := 0
deriving DecidableEq, Repr, Inhabited

/-- What a lane test finds (R408): bit l of `rx` is set when physical lane l of the receive direction passes, bit l of `tx` when the partner
finds that lane l of the transmit direction does. -/
structure LaneTest where
  rx : Nat
  tx : Nat
deriving DecidableEq, Repr, Inhabited

/-- What happens to a lane (R410): it lost lock, or had so many corrected symbols in a window of 2^20 codewords. -/
structure LaneEvent where
  lane : Nat
  lost : Bool := true
  symbols : Nat := 0
deriving DecidableEq, Repr, Inhabited

/-- How a flit arrived: whether its body fails its CRC behind the link receiver (R426), and the codewords corrected and not correctable
since the flit before (`0x6900.05`, `0x6900.06`). -/
structure FlitEvent where
  fabricBad : Bool := false
  corrected : Nat := 0
  uncorrected : Nat := 0
deriving DecidableEq, Repr, Inhabited

/-- The commands, in the order of spec/opcode_table.json. -/
inductive Instr where
  -- power, reset and start-up (19)
  | powerUp
  | powerRemoved
  | resetNAssert
  | resetNRelease (s1 s2 s3 : Nat)
  | selftestEntry (puf : List Byte)
  | pllLock
  | pllLockTimeout (die : Nat)
  | bistComplete (fails : List Nat) (sideFails : List Nat)
  | hbmTrainingComplete (failed : List Nat)
  | hbmZeroingComplete
  | opticalWaitExpiry
  | cxlTrainingTimeout
  | firmwareVerifyComplete
  | identityDerivationComplete
  | stateReset
  | stateResetDelayExpiry
  | stateConfig
  | stateReady (floorW : Nat)
  | stateRun
  | stateQuench
  | stateHalt
  -- command rings (17)
  | load (ring : Nat) (entry : List Byte) (img : JobImage) (poison : Bool)
  | unload (ring : Nat) (entry : List Byte)
  | stepGo (ring : Nat) (entry : List Byte)
  | bulkWrite (ring : Nat) (entry : List Byte) (data : List Byte) (poison : Bool)
  | bulkRead (ring : Nat) (entry : List Byte)
  | migrate (ring : Nat) (entry : List Byte)
  | firmware (ring : Nat) (entry : List Byte) (image : List Byte) (helper : List Byte) (poison : Bool)
  | nop (ring : Nat) (entry : List Byte)
  | cmdDoorbell (ring port : Nat) (value : Nat)
  | cplDoorbell (ring port : Nat) (value : Nat)
  | ringControlWrite (ring port : Nat) (offset value : Nat)
  | ringReset (ring : Nat)
  | functionLevelReset (port : Nat)
  | commandComplete (ring : Nat)
  | cxlHostTimeout (ring : Nat)
  | hostSnoop (port : Nat) (addr : Nat)
  | hdmAccess (port : Nat) (addr : Nat) (len : Nat) (data : Option (List Byte))
  | mailboxIdentify (port : Nat)
  | mailboxGetSupportedLogs (port : Nat)
  | perstNAssert (port : Nat)
  | perstNRelease (port : Nat)
  | cxlLinkL0 (port width speed : Nat) (cxl : Bool)
  | cxlLinkDown (port : Nat) (hostRequested : Bool)
  -- the core (07 to 11)
  | bundleIssue (core : Nat)
  | loopEnd (core : Nat)
  | weightLoadReady (core arr bank : Nat)
  | matrixOpRetire (core arr : Nat)
  | mvRunRetire (core : Nat)
  | drainComplete (core : Nat)
  | xferComplete (core : Nat)
  | streamStart (core ring : Nat)
  | streamSlotCommit (core ring : Nat)
  | completionPost (core ring : Nat)
  | layerDrainComplete (core : Nat)
  -- samplers, gather/scatter and tiers (02 to 05)
  | samplerRequestStart (sampler : Nat)
  | tephraBlockComplete (sampler : Nat)
  | sampleFwd (t : Txn)
  | sampleResult (t : Txn)
  | forwardTimeout (sampler tag : Nat)
  | gsOperationStart (engine : Nat)
  | lowerTierResponse (id : Nat) (data : List Byte) (poison : Bool)
  | readDeadlineMiss (id : Nat)
  | tierReadTimeout (id : Nat)
  | gather (t : Txn)
  | gatherData (t : Txn)
  | remoteTimeout (engine tag : Nat)
  | gatherComplete (engine op : Nat)
  | scatter (t : Txn)
  | scatterEnd (t : Txn)
  | scatterTargetResult (ctx target : Nat)
  | tablePublish (table : Nat) (value : List Byte)
  | refreshPost (value : List Byte)
  | hotCopyComplete (table slot : Nat)
  | ashScanComplete (table : Nat)
  | refreshWaitLimit (ctx : Nat)
  | migrationCopyComplete (vpn : Nat)
  | sinterCommand (cluster : Nat)
  | sinterCommandComplete (cluster : Nat)
  -- reduction and step control (01, 13, 14)
  | xComplete (ctx : Nat)
  | contrib (t : Txn)
  | result (t : Txn)
  | maxima (t : Txn)
  | norm (t : Txn)
  | oComplete (ctx : Nat)
  | ready (t : Txn)
  | commitWaitLimit (ctx : Nat)
  | quench (ctx : Nat)
  | stepDeadline (ctx : Nat)
  | barrierWaitTimeout (ctx : Nat)
  | begin (t : Txn)
  | abort (t : Txn)
  | replayDiscardComplete (ctx : Nat)
  | halt (t : Txn)
  | pipeSlot (t : Txn)
  | shard (t : Txn)
  | notify (t : Txn)
  | hold (ctx : Nat)
  | release (ctx : Nat)
  | contextHalt (ctx : Nat)
  | clearGrant (ctx : Nat)
  -- recovery (15)
  | hbmRereadResult (source place va stack : Nat) (passed : Bool)
  | read (t : Txn)
  | readData (t : Txn)
  | repairComplete (ctx : Nat) (readBackOk : Bool)
  | repairTimeout (ctx : Nat)
  | record (ctx : Nat)
  | restore (ctx : Nat)
  | digest (ctx : Nat)
  | verify (ctx : Nat)
  | checkpointCommandComplete (ctx : Nat)
  | write (t : Txn)
  | writeAck (t : Txn)
  | fastCkptCopyComplete (ctx : Nat)
  -- links (12)
  | portLightDetect (port lanes : Nat)
  | equaliseComplete (port : Nat) (lanes : LaneTest)
  | fecLockComplete (port : Nat)
  | flitInitComplete (port : Nat)
  | trainingStateTimeout (port : Nat)
  | downTimerExpiry (port : Nat)
  | ident (port : Nat) (id : Ident)
  | identTimer (port : Nat)
  | keepaliveTimer (port : Nat)
  | keepalive (port : Nat) (txTime echoTx echoRx rxTime : Nat)
  | down (port : Nat) (cause : Nat)
  | linkLostTimer (port : Nat)
  | flitReceive (port : Nat) (f : Flit) (ev : FlitEvent)
  | nakTimer (port : Nat)
  | laneFailure (port : Nat) (ev : LaneEvent)
  | spareLaneFailure (port lane : Nat)
  | laneSwap (port failed spare epoch : Nat)
  | laneSwapTimer (port : Nat)
  | epochMarker (port epoch : Nat)
  | fibreGroupWrite (value : List Byte)
  | coordinateWrite (ringSize : Bool) (value : List Byte)
  -- power, heat and clocks (16)
  | powerSample (domains : List Nat) (fullDuty zeroDuty : Nat)
  | sustainedEvaluation (watts : Nat)
  | operatingPointSwitchDone (die : Nat)
  | sensorRead (readings : List (Option Int))
  | throttleStepTimer
  | thermalTrip (sensor : Nat)
  | railOutOfRange (rail : Nat) (above : Bool)
  | referenceLost (ref : Nat)
  | pllUnlock (die : Nat)
  | powerFloorMeasure (milliwatts : Nat)
  | powerCapWrite (value : List Byte)
  | powerPriorityWrite (value : List Byte)
  | fixedFrequencyWrite (value : List Byte)
  | timeBaseSet (value : List Byte)
  -- the dictionary and the management port (18)
  | mgmtRead (r : Req)
  | mgmtWrite (r : Req)
  | readBlock (r : Req)
  | writeBlock (r : Req)
  | mgmtAbort (r : Req)
  | blockSnapshotTimeout (requester : Nat)
  | blockWriteTimeout (requester : Nat)
  | dictWrite (index sub : Nat) (value : List Byte)
  | heartbeatTimer
  | plcaBeacon
  | beaconLostTimer
  | notifySubscribe (value : List Byte)
  | counterClear (value : List Byte)
  | dictImageRead (r : Req)
  | dictImageWrite (image : List Byte)
  -- firmware delivery and security (19)
  | firmwareImageWrite (image : List Byte)
  | pufHelperWrite (value : List Byte)
  | attestNonce (value : List Byte)
  | debugKeyHash (value : List Byte)
  | debugChallenge
  | debugToken (value : List Byte)
  | debugEnableWrite (value : List Byte)
  | debugHalt
  | debugStep
  | debugResume
  | boundaryScan (trstN : Bool) (register : Nat) (bits : List Bool)
  -- rows added at the table's end
  | scatterComplete (engine op : Nat)
  | lowerTierWriteComplete (id : Nat) (error : Bool)
  | tierRegionUnreachable (region : Nat)
  | configurationRequest (port : Nat) (offset : Nat) (value : Option Nat)
  | referenceReturn (ref : Nat)
  | mgmtFrameDiscard (r : Req)
  | laneTestRetryExpiry (port : Nat)
  | mgmtTxAttemptsExhausted
deriving DecidableEq, Repr

end Sys2Proof
end

