-- ==== Sys2Proof/Decode.lean ====
section
/-!
DEFINITION. The decoder of words. The opcode table of this block gives no row any bits (its commands come from pins, buses
and timers, and their data is Syntax's typed operands), so no word spells a command.
-/

namespace Sys2Proof

/-- The command that a word of `nbits` bits spells: none, for every word. -/
def decodeTableWord (_nbits _w : Nat) : Option Instr := none

end Sys2Proof
end

