-- ==== Sys2Proof/Config.lean ====
section
/-!
DEFINITION. What an implementation fixes and the values the manual leaves open: uninterpreted constants, applied to a
plain counter of State. Nothing in Lean can evaluate them.
-/

namespace Sys2Proof

/-- The entropy source (R636, R642): octet n drawn since power was applied. -/
opaque Config.entropyByte : Nat → BitVec 8

/-- The root key hash in mask ROM, octets 0 to 31 (R630, `0x7000.02`). -/
opaque Config.rootKeyByte : Nat → BitVec 8

/-- An octet whose value the manual leaves undefined (the dedup area of R114), by a plain counter. -/
opaque Config.freeByte : Nat → BitVec 8

/-- A value the manual does not state, of any width (taken modulo 2^w where it is used), by a plain counter or by what
it depends on (an edge ID). -/
opaque Config.freeValue : Nat → BitVec 64

/-- The input port of a grant point (11 R399) at which the requests of a die arrive: the manual does not number the ports. -/
opaque Config.inputPort : Nat → Nat → Nat

/-- The 32 octets of the root key hash. -/
def Config.rootKeyHash : List Byte := (List.range 32).map Config.rootKeyByte

end Sys2Proof
end

