-- ==== Sys2Proof/Machine/Bits.lean ====
section
/-!
DEFINITION. Bit fields, sign extension, byte order, complements and rounding up, as every chapter of the manual uses
them: multi-octet values are little-endian (18 R576), ranges include both ends (00 R5), a complement pair is a value
followed by its bitwise complement (02 R49).
-/

namespace Sys2Proof.Machine

/-- Bits `hi:lo` of `x` (both ends included). -/
def fld (x hi lo : Nat) : Nat := (x >>> lo) % 2 ^ (hi + 1 - lo)

/-- Bit `i` of `x`. -/
def tbit (x i : Nat) : Bool := (x >>> i) % 2 == 1

/-- The signed value of the low `w` bits of `x`. -/
def sxt (w x : Nat) : Int :=
  let y := x % 2 ^ w
  if w == 0 then 0 else if y < 2 ^ (w - 1) then (y : Int) else (y : Int) - (2 ^ w : Nat)

/-- The low `w` bits of the two's complement of `i`. -/
def toU (w : Nat) (i : Int) : Nat := (i % ((2 ^ w : Nat) : Int)).toNat

/-- The bitwise complement of the low `w` bits. -/
def cpl (w x : Nat) : Nat := (2 ^ w - 1) - x % 2 ^ w

/-- A value and its complement, over `w` bits, agree. -/
def pairOk (w v c : Nat) : Bool := c == cpl w v

/-- `x` rounded up to a multiple of 64 (03, under R114). -/
def a64 (x : Nat) : Nat := (x + 63) / 64 * 64

/-- `x` rounded up to a multiple of 8 (05 R172). -/
def a8 (x : Nat) : Nat := (x + 7) / 8 * 8

/-- ⌈a / b⌉. -/
def ceilDiv (a b : Nat) : Nat := (a + b - 1) / b

/-- The least power of two at or above `x`. -/
def pow2ceil (x : Nat) : Nat := if x ≤ 1 then 1 else 2 ^ (Nat.log2 (x - 1) + 1)

/-- The `n` little-endian octets of `x`. -/
def leBytes : Nat → Nat → List Byte
  | 0, _ => []
  | n + 1, x => BitVec.ofNat 8 x :: leBytes n (x / 256)

/-- The little-endian value of a list of octets. -/
def leVal : List Byte → Nat
  | [] => 0
  | b :: r => b.toNat + 256 * leVal r

/-- `n` octets of `l` from octet `off`, read as zero past its end. -/
def slice (l : List Byte) (off n : Nat) : List Byte :=
  let t := (l.drop off).take n
  t ++ List.replicate (n - t.length) 0

/-- The little-endian value of octets `off` to `off + n − 1`. -/
def octs (l : List Byte) (off n : Nat) : Nat := leVal (slice l off n)

/-- Octets `off` to `off + n − 1` are zero. -/
def zeroOcts (l : List Byte) (off n : Nat) : Bool := (slice l off n).all (· == 0)

/-- The bitwise complement, octet by octet. -/
def cplBytes (l : List Byte) : List Byte := l.map (~~~ ·)

/-- A value followed by its complement, as a frame or a structure carries it. -/
def withCpl (l : List Byte) : List Byte := l ++ cplBytes l

/-- `l` padded with zero octets to a multiple of `m`. -/
def padTo (m : Nat) (l : List Byte) : List Byte :=
  l ++ List.replicate ((m - l.length % m) % m) 0

/-- The number of one bits of an octet-sized value (06 R232). -/
def popcount : Nat → Nat → Nat
  | 0, _ => 0
  | n + 1, x => x % 2 + popcount n (x / 2)

/-- Repeated application, for bounded loops. -/
def iter {α : Type} : Nat → (α → α) → α → α
  | 0, _, a => a
  | n + 1, f, a => iter n f (f a)

/-- `[a, a + 1, …, a + n − 1]`. -/
def rangeFrom (a n : Nat) : List Nat := (List.range n).map (a + ·)

/-- A table of a fixed number of like things: a register file, the contexts, the ports. -/
abbrev Tab (α : Type) (n : Nat) := { l : List α // l.length = n }

/-- The table that holds `x` everywhere. -/
def Tab.fill {α : Type} (n : Nat) (x : α) : Tab α n := ⟨List.replicate n x, List.length_replicate⟩

/-- The things, in order. -/
def Tab.list {α : Type} {n : Nat} (t : Tab α n) : List α := t.1

/-- The thing at `i`, or `d` past the end. -/
def Tab.getD {α : Type} {n : Nat} (t : Tab α n) (i : Nat) (d : α) : α := t.1.getD i d

/-- Replaces the thing at `i` (no change past the end). -/
def Tab.set {α : Type} {n : Nat} (t : Tab α n) (i : Nat) (x : α) : Tab α n := ⟨t.1.set i x, by simp [t.2]⟩

/-- Changes every thing. -/
def Tab.map {α β : Type} {n : Nat} (f : α → β) (t : Tab α n) : Tab β n := ⟨t.1.map f, by simp [t.2]⟩

/-- Replaces element `i` of a list (no change past its end). -/
def setAt {α : Type} (l : List α) (i : Nat) (v : α) : List α := l.set i v

/-- A sparse map keyed by Nat, keys strictly rising. -/
abbrev SMap (α : Type) := List (Nat × α)

/-- The value at `k`, or `d` where none is listed. -/
def SMap.get {α : Type} (m : SMap α) (k : Nat) (d : α) : α :=
  match m with
  | [] => d
  | (k', v) :: r => if k == k' then v else SMap.get r k d

/-- The value at `k`, if listed. -/
def SMap.find {α : Type} (m : SMap α) (k : Nat) : Option α :=
  match m with
  | [] => none
  | (k', v) :: r => if k == k' then some v else SMap.find r k

/-- Lists `v` at `k`, keeping the keys strictly rising. -/
def SMap.put {α : Type} (m : SMap α) (k : Nat) (v : α) : SMap α :=
  match m with
  | [] => [(k, v)]
  | (k', v') :: r =>
    if k < k' then (k, v) :: (k', v') :: r
    else if k == k' then (k, v) :: r
    else (k', v') :: SMap.put r k v

/-- Removes key `k`. -/
def SMap.del {α : Type} (m : SMap α) (k : Nat) : SMap α := m.filter (fun p => p.1 != k)

/-- Whether key `k` is listed. -/
def SMap.has {α : Type} (m : SMap α) (k : Nat) : Bool := m.any (fun p => p.1 == k)

/-- The keys are strictly rising. -/
def SMap.wf {α : Type} : SMap α → Bool
  | [] => true
  | [_] => true
  | a :: b :: r => decide (a.1 < b.1) && SMap.wf (b :: r)

/-- Merges two sorted lists; of two that may stand either way the first list's comes first. -/
def mergeBy {α : Type} (le : α → α → Bool) : Nat → List α → List α → List α
  | 0, a, b => a ++ b
  | _ + 1, [], b => b
  | _ + 1, a, [] => a
  | n + 1, x :: a, y :: b => if le x y then x :: mergeBy le n a (y :: b) else y :: mergeBy le n (x :: a) b

/-- Merges neighbouring lists. -/
def mergePairs {α : Type} (le : α → α → Bool) : List (List α) → List (List α)
  | a :: b :: r => mergeBy le (a.length + b.length) a b :: mergePairs le r
  | r => r

/-- Stable sort by a Boolean order (`le a b`: `a` may stand before `b`). -/
def sortBy {α : Type} (le : α → α → Bool) (l : List α) : List α :=
  (iter (Nat.log2 l.length + 1) (mergePairs le) (l.map (fun x => [x]))).headD []

/-- The values of the keys of a rising list change by `f`; the other keys stay as they are. -/
def updKeys {α : Type} (f : Option α → α) : Nat → List Nat → SMap α → SMap α
  | 0, _, m => m
  | _ + 1, [], m => m
  | n + 1, k :: ks, [] => (k, f none) :: updKeys f n ks []
  | n + 1, k :: ks, (k', v) :: r =>
    if k < k' then (k, f none) :: updKeys f n ks ((k', v) :: r)
    else if k == k' then (k, f (some v)) :: updKeys f n ks r
    else (k', v) :: updKeys f n (k :: ks) r

/-- The lowest bit of `y` that is 0. -/
def lowestZero (y : Nat) : Nat := Nat.log2 ((y ||| (y + 1)) - y)

/-- Removes repeats, keeping first occurrences. -/
def dedupKeep {α : Type} [BEq α] (l : List α) : List α :=
  l.foldl (fun acc x => if acc.contains x then acc else acc ++ [x]) []

end Sys2Proof.Machine
end

