-- ==== Sys2Proof/Machine/StCore.lean ====
section
/-!
DEFINITION. The state of a core (08 R273, R290, R305 to R311), of its arrays, accumulators and matrix-vector path (07),
of its vector engine and operand cache (09), of its predictor (10 R370), of its stream rings and transfer engine (11),
and of a cluster's sinter unit (10 R361 to R367).
-/

namespace Sys2Proof.Machine

/-- A 32-bit word of a core that carries a parity bit (R276, R323, R508): a slot word of instruction memory, a scalar, address, predicate
or lane register, a word of the operand cache or of accumulator memory, a weight bank, the held vectors. -/
inductive ParWord where
  | imem (bundle slot : Nat)
  | sreg (r : Nat)
  | areg (r : Nat)
  | preg (r : Nat)
  | lane (r : Nat)
  | opc (word : Nat)
  | acc (word : Nat)
  | bank (b : Nat)
  | vectors
deriving DecidableEq, Repr

/-- A weight bank (R244, R355): what its last load recorded, its cells' codes (key 32k + n; an unlisted cell holds
code 0, which is +0), the column scales of an MX load, the logical position of each cell of a sparse load, the
reads of a load in progress as (cycle, stored rows; row 32 the scale octets; for a sparse load its 64-octet parts), and the bundle
that loaded it. -/
structure Bank where
  fmt : Nat := 5
  k : Nat := 16
  layout : Nat := 0
  ready : Nat := 0
  loading : Bool := false
  wld : Bool := false
  sparse : Bool := false
  pattern : Nat := 0
  blocks : Nat := 1
  dense : Bool := false
  cells : SMap Nat := []
  pos : SMap Nat := []
  scales : List Nat := []
  plan : List (Nat × List Nat) := []
  src : Nat := 0
  stride : Nat := 0
  scaleAt : Nat := 0
  pc : Nat := 0
deriving DecidableEq, Repr

/-- An array operation from its issue to its retirement (R245, R248, R250, R300, R357, R374). `plan` holds the entry
slots still to come as (cycle, rows); `res` the column results of the rows that entered and have not been written, as (cycle of the
write, row, results) (R251). -/
structure MxOp where
  op : Nat
  arr : Nat
  bank : Nat
  tile : Nat
  row0 : Nat
  m : Nat
  cfg : Nat
  src : Nat
  stride : Nat
  scale : Nat
  bitmap : Bool := false
  start : Nat
  plan : List (Nat × List Nat)
  res : List (Nat × Nat × List Nat) := []
  retire : Nat
  wb : Nat := 0
  final : Bool := false
  thr : Nat := 0
  layer : Nat := 0
  masks : List Nat := []
  product : Nat := 0
  pc : Nat := 0
deriving DecidableEq, Repr

/-- A matrix-vector operation (R256 to R260). `loads` holds the vector-load cycles still to come as (cycle, chunk of 256 octets),
`plan` the matrix cycles still to come as (cycle, step); `run` the running values, `done` whether they are written. -/
structure MvOp where
  arr : Nat
  tile : Nat
  row0 : Nat
  m : Nat
  k : Nat
  cfg : Nat
  acc : Bool
  tr : Bool
  vsrc : Nat
  vstride : Nat
  vscale : Nat
  msrc : Nat
  mstride : Nat
  mscale : Nat
  start : Nat
  loads : List (Nat × Nat) := []
  plan : List (Nat × Nat)
  run : List (List Nat) := []
  first : Bool := true
  done : Bool := false
  retire : Nat
  wb : Nat := 0
  pc : Nat := 0
deriving DecidableEq, Repr

/-- A drain (R339 to R343): `epi` is its epilogue configuration, `regs` its register group, `left` the rows still to
be read, `vals` the binary32 values of the rows read, `endAt` the cycle in which its last row was read. -/
structure Drain where
  arr : Nat
  tile : Nat
  compact : Bool
  dest : Nat
  fmt : Nat
  rnd : Nat
  epi : Nat
  regs : List Nat
  left : Nat
  vals : List (List Nat) := []
  pc : Nat := 0
  endAt : Nat := 0
deriving DecidableEq, Repr

/-- A debug instruction whose row is still to be copied through the side port (R263, R266): to the accumulator memory or from it. -/
structure DbgOp where
  write : Bool
  arr : Nat
  tile : Nat
  compact : Bool
  row : Nat
  off : Nat
  pc : Nat
deriving DecidableEq, Repr

/-- An entry of the transfer engine's command queue (R302, R303, R394). `got` holds what lower-tier reads of a
transfer have answered, `waits` how many are outstanding. -/
inductive TCmd where
  | xfer (dir len addr off ring pc : Nat) (waits : Nat) (got : List (Nat × List Byte))
  | stream (index pc : Nat)
deriving DecidableEq, Repr

/-- A stream that is fetching: its index in the image's section, the next slot to land, the slots that it fetches in all, which a layer
drain cuts short, and the bundle that started it (R309, R393, R394, R396). -/
structure Active where
  index : Nat
  next : Nat := 0
  limit : Nat := 0
  pc : Nat := 0
deriving DecidableEq, Repr

/-- A unit that posts completion entries (R384, R387): a sampler, a gather/scatter engine, the drain of an array, a sinter
unit, a transfer engine, a scatter target, the notices of the device (R493, R498). -/
inductive Poster where
  | sampler (s : Nat)
  | engine (e : Nat)
  | drain (core arr : Nat)
  | sinter (cluster : Nat)
  | te (core : Nat)
  | target
  | notice
deriving DecidableEq, Repr

/-- The SourceClass of a unit (R383). -/
def Poster.class : Poster → Nat
  | .sampler _ => 1 | .engine _ => 2 | .target => 2 | .drain _ _ => 3 | .sinter _ => 4 | .te _ => 5 | .notice => 5

/-- A completion post that waits for room: its unit, its entry, and the bundle whose work it reports (R309, R387). -/
structure Post where
  src : Poster
  entry : Nat
  pc : Nat := 0
deriving DecidableEq, Repr

/-- A stream ring (R383, R386): descriptor with its complement, the four counts with the complements of Head and Tail,
the entries of a completion ring, the bundles that committed the slots of a sinter ring which the unit has not taken (R309), posts that
wait for room with their units, the stream that fills it, and which counts each bound stream committed (index, first, end). -/
structure Ring where
  desc : Pair := {}
  wacq : Nat := 0
  head : Nat := 0
  headC : Nat := 0xFFFFFFFF
  racq : Nat := 0
  tail : Nat := 0
  tailC : Nat := 0xFFFFFFFF
  entries : List Nat := []
  posted : List Nat := []
  waiting : List Post := []
  active : Option Active := none
  spans : List (Nat × Nat × Nat) := []
deriving DecidableEq, Repr

/-- A write of a V-slot instruction that takes effect at the end of pipeline cycle `at10` (R320). -/
inductive VWrite where
  | lanes (atEnd vd : Nat) (vals : List Nat)
  | scalar (atEnd rd val : Nat)
  | opc (atEnd : Nat) (bytes : List (Nat × Byte))
deriving DecidableEq, Repr

/-- A hardware loop (R287): body first to last, iterations remaining including the current one. -/
structure Loop where
  first : Nat
  last : Nat
  left : Nat
deriving DecidableEq, Repr

/-- What a core's issue is doing (R295, R296, R307, R308). -/
inductive CoreSt where
  | stopped | running | layer | ended
deriving DecidableEq, Repr, Inhabited

/-- A core. `cfgs` are the matrix configurations (array × 2 + Cfg), `epis` the epilogue configurations, each unwritten
at step start; `held` the interlocks that have held the waiting bundle, as bits; `retPc` where `sc.iret` returns;
`bubble` that the cycle after a taken transfer is still to come (R286); `par` the words
whose parity is bad. -/
structure Core where
  ctx : Nat := 16
  entry : Nat := 0
  resident : List Nat := []
  pristine : List Nat := []
  imemBad : Bool := false
  iringSlots : Nat := 0
  iringRing : Nat := 255
  iringVa : Nat := 0
  iringCount : Nat := 0
  window : SMap Nat := []
  s : Tab Nat 32 := .fill 32 0
  a : Tab Nat 16 := .fill 16 0
  p : Tab Bool 8 := ⟨[true, false, false, false, false, false, false, false], rfl⟩
  loops : List Loop := []
  cfgs : Tab (Option Nat) 4 := .fill 4 none
  epis : Tab (Option Nat) 8 := .fill 8 none
  v : Tab (List Nat) 8 := .fill 8 (List.replicate 64 0)
  vpend : List VWrite := []
  pc : Nat := 0
  inRing : Bool := false
  retPc : Nat := 0
  st : CoreSt := .stopped
  dbg : Nat := 0
  dbgStep : Bool := false
  dbgBreak : Nat := 0xFFFF
  dbgPass : Bool := false
  aclk : Nat := 0
  pipe : Nat := 0
  bubble : Bool := false
  held : Nat := 0
  rings : SMap Ring := []
  queue : List TCmd := []
  banks : Tab Bank 4 := .fill 4 {}
  ops : List MxOp := []
  lastEntry : List Nat := [0, 0]
  mvs : List MvOp := []
  mvLast : Nat := 0
  heldShape : Option (Nat × Nat × Nat) := none
  heldVec : List (List Nat) := []
  heldScale : List (List Nat) := []
  acc : List Host.Cell := []
  opc : List Host.Cell := []
  drains : List Drain := []
  dbgOps : List DbgOp := []
  layer : Nat := 0
  seqFree : Nat := 0
  maskFree : Nat := 0
  layersOff : List Nat := []
  audits : SMap Nat := []
  misses : SMap Nat := []
  products : List Nat := [0, 0]
  writebacks : SMap Nat := []
  fault : List Byte := List.replicate 32 0
  par : List ParWord := []
deriving DecidableEq, Repr

/-- A command that a sinter unit runs: the core that posted it, the bundle that did (R309), the command's octets. -/
structure SntRun where
  core : Nat
  pc : Nat := 0
  cmd : List Byte
deriving DecidableEq, Repr

/-- A sinter unit (R361, R367): its round-robin pointer, and the command it runs. -/
structure Sinter where
  ptr : Nat := 0
  run : Option SntRun := none
deriving DecidableEq, Repr

end Sys2Proof.Machine
end

