-- ==== Sys2Proof/Machine/StGraph.lean ====
section
/-!
DEFINITION. The state of the samplers (03), the gather/scatter engines and scatter targets (04) and the table unit (05).
Descriptors are keyed by hardware context × 65,536 + their number.
-/

namespace Sys2Proof.Machine

/-- A forward that waits for its response (R120, R124): tag, the work item it serves, when it was issued. -/
structure FwdOut where
  tag : Nat
  item : Nat
  at10 : Nat
deriving DecidableEq, Repr

/-- What a sampler's work came to (R127): the pages it read, its draws, the types that type filters scanned, the ranks that they
turned into positions by scanning again (under R99), and the reads that take an entry (R116). -/
structure SmpLog where
  pages : List Nat := []
  draws : Nat := 0
  types : Nat := 0
  ranks : Nat := 0
  reads : Nat := 0
  cached : List Nat := []
deriving DecidableEq, Repr

/-- A running sampler request (R109, R115): descriptor key, hop, VA of the hop's block, its frontier as (node, bound),
the responses received by work item, the forwards outstanding, items that waited for an entry (R116), and what the hop's work has
come to. -/
structure SmpRun where
  key : Nat
  hop : Nat := 1
  out : Nat
  frontier : List (Nat × Nat)
  resp : SMap (Nat × List (Nat × Nat)) := []
  fwds : List FwdOut := []
  waited : List Nat := []
  log : SmpLog := {}
deriving DecidableEq, Repr

/-- An incoming forward that waits for a page or for an entry (R59, R116, R121): what its work has come to, and whether its reads have
been counted as waiting. -/
structure FwdIn where
  t : Txn
  log : SmpLog := {}
  waited : Bool := false
deriving DecidableEq, Repr

/-- A sampler: start queue, running request, incoming forwards that wait (R121), the VAs of the headers, map entries and descriptors that
it caches (R85), and the dedup table in its SRAM as slot, key and local number (R110). -/
structure Sampler where
  queue : List Nat := []
  run : Option SmpRun := none
  incoming : List FwdIn := []
  cache : List Nat := []
  table : SMap (Nat × Nat) := []
deriving DecidableEq, Repr

/-- A row that an operation fetches (R133, R137, R667): key and local number, whether another device holds it, its ash
mark, its values once complete, its class (6: LOCAL binary32) and W8 kind, its span, how many lower-tier parts it
waits for and the parts it has, the tag and time of a remote request, the version it reads, whether it is offered to
the caldera, the spans of its edge's weight, whether its structures have been read from lower tiers, and its stage (0 not started, 1
waited for an entry, 2 started, 3 its structures are being read). -/
structure GsRow where
  key : Nat
  remote : Bool := false
  ash : Bool := false
  vals : Option (List Nat) := none
  cls : Nat := 0
  va : Nat := 0
  len : Nat := 0
  need : Nat := 0
  got : List (Nat × List Byte) := []
  tag : Nat := 0
  at10 : Nat := 0
  version : Nat := 0
  offer : Bool := false
  loc : Nat := 0
  kind : Nat := 0
  aux : List (Nat × Nat) := []
  found : Bool := false
  st : Nat := 0
deriving DecidableEq, Repr

/-- A gather or scatter operation (R128, R132): operands, and what it waits for. `ordinal` is the issue ordinal of a
SCATTER (R157), `source` the source version of the record it reads (R154); `parts` the lower-tier parts that a SCATTER's start has read;
`posting` while its completion entry waits for room in its ring (R163, R387). -/
structure GsOp where
  id : Nat
  core : Nat
  key : Nat
  slice : Nat
  block : Nat
  path : Nat
  data : Nat
  ordinal : Nat := 0
  source : Nat := 0
  rows : List GsRow := []
  pc : Nat := 0
  parts : List Nat := []
  posting : Bool := false
deriving DecidableEq, Repr

/-- A gather/scatter engine: waiting and running operations, and the pass's issue ordinals and issuing cores of
SCATTER programs (R157, R164). -/
structure Engine where
  queue : List GsOp := []
  running : List GsOp := []
  nextOp : Nat := 0
  ordinals : SMap Nat := []
  issuers : SMap Nat := []
deriving DecidableEq, Repr

/-- A remote gather that this device serves and whose row is not yet complete (R137). -/
structure Served where
  engine : Nat
  t : Txn
  row : GsRow
deriving DecidableEq, Repr

/-- A scatter target (R155 to R160): B of R162, log of (sort key, row), end markers by origin. -/
structure Target where
  desc : Pair
  bound : Nat := 0
  log : List (Nat × List Nat) := []
  ends : SMap Nat := []
  closed : Bool := false
  written : Bool := false
deriving DecidableEq, Repr

/-- A target whose log is empty and open. -/
def Target.fresh (t : Target) : Target := { desc := t.desc, bound := t.bound }

/-- An entry of a refresh plan, with the slot a HOT entry takes and its copy's state (R192, R194, R195); `fetched` once the copy's reads of
a lower tier have been answered. -/
structure PlanEnt where
  key : Nat
  action : Nat
  cls : Nat
  newSlot : Nat
  slot : Nat := 0
  fetched : Bool := false
  copied : Bool := false
  dirty : Bool := false
deriving DecidableEq, Repr

/-- An accepted refresh plan: the snapshot's step number n and its entries. -/
structure Plan where
  n : Nat
  entries : List PlanEnt
deriving DecidableEq, Repr

/-- A cached row of the caldera (R199), of the version that it was read for (R184, R201). -/
structure Way where
  key : Nat
  ver : Nat := 0
  age : Nat := 0
  hit : Bool := false
  data : List Byte
deriving DecidableEq, Repr

/-- A table (R181 to R203): versions with the contexts whose step reads the current and the old one (R185), sketches,
candidate log, values at step start by context, the snapshot that awaits a plan (its n and Version), the plan, the ash state, the
caldera's ways. `oldBank` is the ash bank that the old version is read by; `scanRead` once the scan's reads of lower tiers have been
answered. -/
structure Table where
  cur : Option Pair := none
  pend : Option Pair := none
  old : Option Pair := none
  readers : List Nat := []
  oldReaders : List Nat := []
  sketch : SMap Nat := []
  frozen : SMap Nat := []
  log : List Nat := []
  saved : SMap (SMap Nat × List Nat) := []
  awaiting : Option (Nat × Nat) := none
  plan : Option Plan := none
  bank : Nat := 0
  oldBank : Nat := 0
  scanning : Bool := false
  scanRead : Bool := false
  scanned : Bool := false
  swap : Bool := false
  ways : SMap Way := []
deriving DecidableEq, Repr

end Sys2Proof.Machine
end

