-- ==== Sys2Proof/Machine/StPlat.lean ====
section
/-!
DEFINITION. The platform's state: device state and time, straps, the dictionary server, the CXL attachment, power and
heat, the torus ports, start-up and security (12, 16, 17, 18, 19, 20), and what leaves the device.
-/

namespace Sys2Proof.Machine

/-- The device states of R43. -/
inductive DevState where
  | off | reset | selftest | train | preboot | config | ready | run | quench | halt | fault
deriving DecidableEq, Repr, Inhabited

/-- The code that `0x1200.01` reads (R43). -/
def DevState.code : DevState → Nat
  | .off => 0 | .reset => 1 | .selftest => 2 | .train => 3 | .preboot => 4 | .config => 5
  | .ready => 6 | .run => 7 | .quench => 8 | .halt => 9 | .fault => 10

/-- What leaves the device, or answers a command, in order. -/
inductive Out where
  /-- A management frame's payload to a MAC address (R589 to R604). -/
  | frame (dst : Nat) (payload : List Byte)
  /-- The answering payload of the mailbox tunnel on a port (R606). -/
  | tunnel (port : Nat) (payload : List Byte)
  /-- An MSI-X vector on a CXL function (R561, R605). -/
  | msix (port vector : Nat)
  /-- A read of a line of host memory by RdCurr: command entries, images and bulk sources (R564). -/
  | hostRead (addr len : Nat)
  /-- A write of host memory: completions and bulk destinations (R564). -/
  | hostWrite (addr : Nat) (bytes : List Byte)
  /-- A snoop response RspIHitI (R564). -/
  | rspIHitI (port : Nat)
  /-- A back-invalidation snoop of a window line (R569). -/
  | backInvalidate (addr : Nat)
  /-- Data of a host CXL.mem read of the HDM window (R569). -/
  | hdmData (port : Nat) (bytes : List Byte)
  /-- A mailbox answer other than the tunnel's: the opcode (R568). -/
  | mailbox (port opcode : Nat)
  /-- Configuration Request Retry Status, or a served request (R570). -/
  | cfgRetry (port : Nat)
  | cfgData (port value : Nat)
  /-- A transaction handed to the torus (R420). -/
  | txn (t : Txn)
  /-- A flit sent on a port (R413). -/
  | flit (port : Nat) (f : Flit)
  /-- An alignment marker of a new lane-map epoch (R410). -/
  | epoch (port epoch : Nat)
  /-- A lower-tier UIO read or write: identifier, CXL port, host physical address, length or bytes (R57, R60). -/
  | tierRead (id port addr len : Nat)
  | tierWrite (id port addr : Nat) (bytes : List Byte)
  /-- A migration copy's write of a lower-tier frame (R59): the octets are those of the page. -/
  | tierCopy (id port addr len : Nat)
  /-- Answers to a dictionary row that carries no frame: done, a value, or an abort code (R593, R597). -/
  | wrote
  | value (bytes : List Byte)
  | refusedWith (abort : Nat)
  /-- The boundary-scan data output (R659). -/
  | tdo (bits : List Bool)
deriving DecidableEq, Repr

/-- Device-level state (R43, R554, R586, R618, R627). Times are in units of 0.1 ns (R554). `predSel` is the PredSelect that PredState
reports by (10 R380), `normSel` and `steerSel` the NormContext and SteerContext that LastNorm and SteerState report by (13 R475): as the last
quench took them. -/
structure Dev where
  st : DevState := .off
  faultReport : List Byte := List.replicate 32 0
  thermTrip : Bool := false
  resetDelay : Bool := false
  time10 : Nat := 0
  rate : Int := 0
  strap : Nat := 0
  released : Bool := false
  oclk : Bool := false
  hbmOk : Bool := false
  stepSix : Bool := false
  opticalStep : Bool := false
  zeroed : Bool := false
  holdAll : Bool := false
  predSel : Nat := 0
  normSel : Nat := 0
  steerSel : Nat := 0
deriving DecidableEq, Repr

/-- A kept response (R598). -/
structure Kept where
  who : Nat
  op : Nat
  seq : Nat
  resp : List Byte
deriving DecidableEq, Repr

/-- A staged block write or a read snapshot of one requester (R596, R600). -/
structure Stage where
  who : Nat
  index : Nat
  sub : Nat
  data : List Byte
  at10 : Nat
deriving DecidableEq, Repr

/-- The dictionary server and the management port (18). -/
structure Mgmt where
  dict : SMap (List Byte × List Byte) := []
  cache : List Kept := []
  stages : List Stage := []
  cancelled : List (Nat × Nat) := []
  snaps : List Stage := []
  subs : Tab (Nat × Nat) 8 := .fill 8 (0, 0)
  seq : Nat := 0
  history : List (List Byte) := []
  lastRaise : SMap (Nat × Nat) := []
  heartbeats : Nat := 0
  beaconSeen : Bool := false
  csma : Bool := false
  beaconAt : Nat := 0
  txQueue : List (Nat × List Byte) := []
  imageApplied : Bool := false
  imageId : Nat := 0
  imageStatus : List Byte := List.replicate 16 0
deriving DecidableEq, Repr

/-- A bulk copy that a ring carries out (R565): host address, VA, and the octets or the length. -/
inductive Bulk where
  | write (host va : Nat) (data : List Byte)
  | read (host va len : Nat)
deriving DecidableEq, Repr

/-- A ring command whose effect is done or under way and whose completion is not yet written (R563, R566). -/
structure RingCmd where
  opcode : Nat
  tag : Nat
  status : Nat
  result : Nat
  bulk : Option Bulk := none
  ready : Bool := true
deriving DecidableEq, Repr

/-- A command ring (R561, R562): `served` once a doorbell has been rung, `epoch` counts its cancellations; `owed` holds the completions
(Tag, Status, Result) of a cancellation that wait for room. -/
structure CmdRing where
  enable : Bool := false
  irq : Bool := false
  cmdLog2 : Nat := 0
  cplLog2 : Nat := 0
  cmdBase : Nat := 0
  cplBase : Nat := 0
  produced : Nat := 0
  consumed : Nat := 0
  cplProduced : Nat := 0
  cplConsumed : Nat := 0
  port : Nat := 0
  served : Bool := false
  epoch : Nat := 0
  owed : List (Nat × Nat × Nat) := []
  current : Option RingCmd := none
deriving DecidableEq, Repr

/-- A CXL port (R559, R570, R573, R658). -/
structure CxlPort where
  l0 : Bool := false
  cxl : Bool := false
  degraded : Bool := false
  width : Nat := 0
  speed : Nat := 0
  perst : Bool := false
  training : Bool := false
  hdmBase : Nat := 0
  cfg : SMap Nat := []
deriving DecidableEq, Repr

/-- The CXL attachment (17): rings, the ring whose turn it is to be fetched from (R566), ports, the HDM window's frames. -/
structure Cxl where
  rings : Tab CmdRing 4 := .fill 4 {}
  turn : Nat := 0
  ports : Tab CxlPort 2 := .fill 2 {}
  hdmFrames : List Nat := []
deriving DecidableEq, Repr

/-- A compute die's clock and duty (R535 to R538, R548). -/
structure DieClk where
  point : Nat := 3
  duty : Nat := 64
  ceiling : Nat := 64
  thPoint : Nat := 4
  thDuty : Nat := 64
  switching : Bool := false
  changedAt : Nat := 0
deriving DecidableEq, Repr

/-- Power, heat and clocks (16). `samples` and `domains` hold the samples of the last 10 ms, 10,000 of 1 µs, newest first, of the device and
by domain; `avg` is the average that the last evaluation compared, and `gatedRem` the part of a gated cycle, in sixty-fourths, that
CNT_PWR_GATED_CYCLES does not hold yet. Units of `throttled`, `coolSince`, `stepAt`: 0 to 15 compute dies, 16 to 23 memory
dies, 24 to 31 link dies, 32 to 63 HBM stacks. -/
structure Power where
  dies : Tab DieClk 16 := .fill 16 {}
  susPoint : Nat := 3
  susDuty : Nat := 64
  memRate : Nat := 16
  linkRate : Nat := 16
  peakHold : Bool := false
  thRate : Tab Nat 64 := .fill 64 16
  under : Nat := 0
  above : Nat := 0
  unmet : Bool := false
  samples : List Nat := []
  domains : List (List Nat) := []
  avg : Nat := 0
  gatedRem : Nat := 0
  floor : Nat := 0
  rails : Tab Nat 8 := .fill 8 1
  readings : Tab Int 120 := .fill 120 0
  failed : List Nat := []
  throttled : List Nat := []
  releasing : List Nat := []
  coolSince : SMap Nat := []
  stepAt : SMap Nat := []
  due : SMap Nat := []
  refs : Nat := 7
  spread : Bool := true
deriving DecidableEq, Repr

/-- One direction's retry-buffer entry: its Seq and the flit body (R415). -/
structure SentFlit where
  seq : Nat
  vc : Nat
  credits : Nat
  rest : List Byte
deriving DecidableEq, Repr

/-- The flit bodies of one or more whole transactions that wait at a transmitter (R417, R418, R423): VC, each body with the credits that
it needs, and the port that received them, or 8 for the device itself. -/
structure QItem where
  vc : Nat
  bodies : List (Nat × List Byte)
  src : Nat := 8
deriving DecidableEq, Repr

/-- A received transaction that its unit has no entry for yet (R121, R136): the port whose buffer holds it, or 8 where a command brought
it, its VC, and the credits that its flit keeps back. -/
structure HeldTxn where
  port : Nat
  vc : Nat
  credit : Nat
  t : Txn
deriving DecidableEq, Repr

/-- A torus port (R408 to R419, R428 to R436, R440). `nakAt` is the time of the last Nak; `nullDue` and `nakDue` a NULL flit and a Nak that
wait for room in the retry buffer (R415); `heldRx` the flits of each VC that wait until the transactions they carry to another port are
whole (R423). -/
structure Port where
  st : Nat := 0
  limitRun : Nat := 0
  at10 : Nat := 0
  rxMap : List Nat := []
  rxSpare : List Nat := []
  rxFailed : Nat := 0
  rxEpoch : Nat := 0
  txMap : List Nat := []
  txEpoch : Nat := 0
  swap : List (Nat × Nat × Nat) := []
  laneWait : Bool := false
  swaps : Nat := 0
  txSeq : Nat := 0
  rxLast : Nat := 4095
  rxAny : Bool := false
  nakSent : Bool := false
  nakAt : Nat := 0
  nullDue : Bool := false
  nakDue : Bool := false
  retry : List SentFlit := []
  resendFrom : Nat := 0
  resends : Nat := 0
  credits : List Nat := [0, 0, 0, 0]
  owed : List Nat := [0, 0, 0, 0]
  partialRx : List (List Byte) := [[], [], [], []]
  badRx : List Bool := [false, false, false, false]
  heldRx : List (List (Nat × List Byte)) := [[], [], [], []]
  queue : List QItem := []
  vcPtr : Nat := 0
  lastValid : Nat := 0
  alt : Bool := false
  peer : Ident := {}
  agreed : Bool := false
  lastRx : Nat := 0
  lastRxAt : Nat := 0
  delta : Int := 0
  theta : Int := 0
deriving DecidableEq, Repr

/-- The torus unit (12): ports, transactions that wait for an entry of their unit, and the lock of the time base. -/
structure Torus where
  ports : Tab Port 8 := .fill 8 {}
  held : List HeldTxn := []
  lockCount : Nat := 0
  locked : Bool := false
  stepped : Bool := false
  everRing : Bool := false
  nextTag : Nat := 0
deriving DecidableEq, Repr

/-- A firmware image that waits for, or is under, verification, with the path that brought it (R630 to R632). -/
structure FwImage where
  bytes : List Byte
  path : Nat
  ring : Option Nat
deriving DecidableEq, Repr

/-- Start-up measurements, firmware and security (19): touched by start-up and security commands only. `clusterMap` holds, for each
compute die, the physical cluster of each logical one, once self-test has assigned them (01 R11). -/
structure Boot where
  repairMap : List Nat := List.replicate 16 0
  clusterMap : List (List Nat) := List.replicate 16 []
  failMap : List Nat := List.replicate 16 0
  hbmStatus : List Nat := List.replicate 32 0
  bootStatus : List Byte := List.replicate 16 0
  startupTimes : Tab Nat 8 := .fill 8 0
  waiting : List FwImage := []
  helper : Option (List Byte) := none
  puf : List Byte := []
  secret : List Byte := []
  identityKey : List Byte := List.replicate 57 0
  helperOut : List Byte := []
  identityStatus : Nat := 0
  fwAccepted : Bool := false
  fwDigest : List Byte := List.replicate 64 0
  fwVersion : Nat := 0
  attestReport : List Byte := List.replicate 424 0
  keyHash : List Byte := List.replicate 32 0
  keyLocked : Bool := false
  challenge : Option (List Byte) := none
  keyKind : Nat := 0
  entropy : Nat := 0
deriving DecidableEq, Repr

end Sys2Proof.Machine
end

