-- ==== Sys2Proof/Machine/StJob.lean ====
section
/-!
DEFINITION. The state of a hardware context (14), of its gradient reduction (13) and of its recovery (15).
-/

namespace Sys2Proof.Machine

/-- The context states of R484. -/
inductive CtxState where
  | free | idle | run | held | halt
deriving DecidableEq, Repr, Inhabited

/-- The code of `0x8000.02` (R484). -/
def CtxState.code : CtxState → Nat
  | .free => 0 | .idle => 1 | .run => 2 | .held => 3 | .halt => 4

/-- A BEGIN held at the barrier (R496, R501). -/
structure BeginRec where
  coord : Nat
  step : Nat
  replay : Nat
  causes : Nat
deriving DecidableEq, Repr

/-- A write of the update set (R19, R20): destination, new octets, and how Q1 stores them: 0 as they are, 1 bfloat16, 2 rows of the
table `scratch`, 3 to 5 elements of 8, 4 or 2 bits, 6 elements of a mixed object (R673). -/
structure UpdWrite where
  va : Nat
  kind : Nat
  data : List Byte
  scratch : Nat := 0
deriving DecidableEq, Repr

/-- The barrier, commit and replay bookkeeping of a context's pass (R496 to R502). -/
structure Pass where
  begins : List BeginRec := []
  sentBegin : Bool := false
  running : Bool := false
  waitSince : Nat := 0
  startAt : Nat := 0
  deadlineUs : Nat := 0
  commitUs : Nat := 0
  readies : List Nat := []
  sentReady : Bool := false
  readyAt : Nat := 0
  committed : Bool := false
  commitAt : Nat := 0
  aborted : Bool := false
  discarding : Bool := false
  waitX : Bool := false
  causes : Nat := 0
  sentCauses : Nat := 0
  stepCauses : Nat := 0
  passes : Nat := 0
  counted : Nat := 0
  shardTrips : Nat := 0
  satRepeats : Nat := 0
  calibrated : Bool := false
  satPersist : Bool := false
  pendingErr : Bool := false
  errCode : Nat := 0
  nonStrict : Bool := false
  ashSubs : Nat := 0
  xDone : Bool := false
  oDone : Bool := false
  strict : Bool := true
  waitPlan : Bool := false
  planRead : Bool := false
  planSince : Nat := 0
  quench : Nat := 0
  early : List BeginRec := []
deriving DecidableEq, Repr

/-- A block of a bucket on this device: its delivered record (R453, R454). -/
structure GBlk where
  blk : Nat
  maxExp : Int
  flags : Nat
  codes : List Int
deriving DecidableEq, Repr

/-- A bucket of a context (R448 to R469). -/
structure Bucket where
  desc : Pair := {}
  blocks : List GBlk := []
  sent : Bool := false
  arrived : List (Nat × Nat) := []
  maxima : List (Nat × Nat × Int × Nat) := []
  summed : Bool := false
  glob : SMap (Int × Nat) := []
  p1 : Nat := 0
  p2 : Nat := 0
deriving DecidableEq, Repr

/-- A transfer entry in progress in the pass (R488 to R493). -/
structure Xfer where
  desc : Pair := {}
  fired : Bool := false
  landed : List (Nat × Nat) := []
  parts : List (Nat × List Byte) := []
  noticed : Bool := false
deriving DecidableEq, Repr

/-- Gradient reduction and transfer entries of a context (13, R488). -/
structure Geyser where
  header : Pair := {}
  buckets : List Bucket := []
  entries : List Xfer := []
  norms : SMap (Nat × Nat) := []
  normSent : Bool := false
  calibPass : Bool := false
  satBlocks : Nat := 0
  pending : List (Nat × Nat × Int) := []
  steerN : Nat := 0
  steerSet : Bool := false
  recommended : Nat := 0
  noiseB : Nat := 0
  nextN : Nat := 0
  normRec : List Byte := List.replicate 64 0
deriving DecidableEq, Repr

/-- A page repair (R514 to R518): the page, the replica peer and the other one; READs outstanding as (tag, chunk), the
next chunk to ask for, chunks asked for twice, chunks that arrived. -/
structure Repair where
  page : Nat
  peer : Nat
  other : Nat
  usedOther : Bool := false
  asked : List (Nat × Nat) := []
  next : Nat := 0
  retried : List Nat := []
  data : SMap (List Byte) := []
  since10 : Nat := 0
  started : Bool := false
  after : Bool := false
  va : Nat := 0
deriving DecidableEq, Repr

/-- Checkpoints (R523, R527 to R529): the CKPT object's VA and CkptStatus; whether DIGEST has completed; VERIFY's READs
outstanding as (tag, own entry) and the objects that differ; a fast checkpoint's copy: the half it fills, the step number
it holds, its octets, WRITEs not yet acknowledged, whether its last header is sent. -/
structure Ckpt where
  va : Nat := 0
  status : List Byte := List.replicate 16 0
  digested : Bool := false
  verifying : List (Nat × List Byte) := []
  verifyBad : List Nat := []
  fast : Bool := false
  fastHalf : Nat := 1
  fastStep : Nat := 0
  fastBytes : Nat := 0
  fastTags : List Nat := []
  fastHead : Bool := false
deriving DecidableEq, Repr

/-- The resource claims of a context (R311). -/
structure Claims where
  raw : List Byte := []
  clusters : List Nat := []
  samplers : List Nat := []
  engines : List Nat := []
deriving DecidableEq, Repr

/-- A hardware context (R478 to R504, R522). -/
structure Ctx where
  st : CtxState := .free
  jobTag : Nat := 0
  grant : Nat := 0
  step : Nat := 0
  stepC : Nat := 2 ^ 64 - 1
  replay : Nat := 0
  mb : Nat := 0
  holdReq : Bool := false
  seed : Nat := 0
  devCount : Nat := 0
  axes : List Nat := [255, 255, 255, 255]
  debug : Bool := false
  deadlineUs : Nat := 0
  commitUs : Nat := 0
  noticeCount : Nat := 0
  noticeVa : Nat := 0
  logVa : Nat := 0
  logEntries : Nat := 0
  everRan : Bool := false
  lat : SMap (List Byte) := []
  latB : SMap (List Byte) := []
  pass : Pass := {}
  upd : List UpdWrite := []
  gey : Geyser := {}
  claims : Claims := {}
  lastRec : List Byte := List.replicate 32 0
  lastCommitted : Nat := 0
  failure : List Byte := List.replicate 64 0
  repairs : List Repair := []
  ckpt : Ckpt := {}
  margins : List Nat := List.replicate 64 0
  predMiss : Nat := 256
  predAudits : Nat := 256
  layersOff : List Nat := []
  layerOffSteps : SMap Nat := []
  reprune : Nat := 100
  mendDue : Bool := false
deriving DecidableEq, Repr

end Sys2Proof.Machine
end

