-- ==== Sys2Proof/Machine/StMem.lean ====
section
/-!
DEFINITION. The state of the memory tiers (02): bytes by physical place, staging memory, the object table, the page
directory, ages, migrations and outstanding lower-tier accesses.
-/

namespace Sys2Proof.Machine

/-- A pending migration (R68 to R73): places are tier and frame as a page entry holds them. `begun` once its copy has started, `fetched`
once a lower-tier source has been read, `stored` once a lower-tier destination has been written; `carrier` is the context whose pass carries
the copy. -/
structure Mig where
  vpn : Nat
  srcTier : Nat
  srcFrame : Nat
  dstTier : Nat
  dstFrame : Nat
  begun : Bool := false
  fetched : Bool := false
  stored : Bool := false
  carrier : Nat := 16
  copied : Bool := false
  dirty : List Nat := []
deriving DecidableEq, Repr

/-- Who waits for a lower-tier read: a gather item (engine, operation, item), a remote gather being served, a
te.xfer of a core, a SCATTER's start, a page's migration, the recopy of its dirty blocks, a HOT entry's copy, an ash scan, a digest of a
context, or nobody any more. -/
inductive Waiter where
  | item (engine op item : Nat)
  | remote (engine : Nat) (t : Txn)
  | xfer (core : Nat)
  | op (engine op : Nat)
  | mig (vpn : Nat)
  | recopy (vpn : Nat)
  | hot (table slot : Nat)
  | scan (table : Nat)
  | digest (ctx : Nat)
  | none
deriving DecidableEq, Repr

/-- An outstanding lower-tier read (R60 to R63, R667); `lost` when its port or region was or became unreachable: no response is delivered
(17 R572). -/
structure TierRead where
  id : Nat
  ctx : Nat
  step : Nat
  replay : Nat
  va : Nat
  len : Nat
  tier : Nat
  region : Nat
  issuedAt : Nat
  deadline : Option Nat
  missed : Bool := false
  stalled : Bool := false
  substituted : Bool := false
  lost : Bool := false
  who : Waiter := .none
deriving DecidableEq, Repr

/-- An outstanding lower-tier write of Q1 or Q3 (R75), or of a page's migration, into a frame; step and replay are its tag (R60). -/
structure TierWrite where
  id : Nat
  ctx : Nat
  region : Nat
  frame : Nat := 0
  step : Nat := 0
  replay : Nat := 0
  mig : Option Nat := none
deriving DecidableEq, Repr

/-- Memory: HBM and lower-tier bytes by physical place, cluster staging, and the structures over them. `leaves` holds the
frames of the directory leaf of each root index, `copyFrames` those of the loader's copies by context; `xlate` the page numbers in
each translation cache: 0 to 15 the compute dies' ports, 16 to 23 the memory-side dies. `ageSteps` counts the Q3s, and `ages` holds, for
each HBM frame that was ever accessed, the count at the last Q3 that found its access flag set (R65). `grants` holds the
round-robin pointers of the grant points that stand away from port 0 (11 R398). `stagingBad` names the 32-bit words of
staging whose parity is bad (15 R508), `failing` the 32-octet bursts of HBM, by place, whose second read failed and that nothing has
written since (15 R509, R516). `heldReads` holds READs that wait for the end of a Q1 (15 R516). -/
structure Mem where
  phys : List Host.Cell := []
  staging : List Host.Cell := []
  stagingBad : List Nat := []
  failing : List Nat := []
  objects : SMap Pair := []
  rq : List (Nat × Nat) := []
  pages : SMap Pair := []
  ageSteps : Nat := 0
  ages : SMap Nat := []
  touched : List Nat := []
  readCounts : SMap Nat := []
  migs : List Mig := []
  freeLater : List (Nat × Nat) := []
  hostMig : List (Nat × Nat) := []
  devFrames : List Nat := []
  leaves : SMap (List Nat) := []
  copyFrames : SMap (List Nat) := []
  retired : List Nat := []
  xlate : SMap (List Nat) := []
  grants : SMap Nat := []
  freeAtQuench : Nat := 0
  reads : List TierRead := []
  writes : List TierWrite := []
  nextId : Nat := 0
  lostRegions : List Nat := []
  reserve : List Nat := []
  xfersStalled : List Nat := []
  heldReads : List Txn := []
deriving DecidableEq, Repr

end Sys2Proof.Machine
end

