-- ==== Sys2Proof/Machine/State.lean ====
section
/-!
DEFINITION. The whole state of the device, the reasons a step can stop, and the state after reset.
-/

namespace Sys2Proof.Machine

/-- Reasons for which the machine would stop with a fault. The manual gives every error of the device an effect on
its state (a fault code, a context in HALT, the FAULT state), so no meaning raises one; the constructor exists for
the interface and is safe. -/
inductive Fault where
  /-- Raised by nothing (safe). -/
  | unreachable
deriving DecidableEq, Repr

/-- Reasons for which a command has no meaning in the model. -/
inductive Refusal where
  /-- Raised by an arm of exec whose command has no meaning yet (safe: nothing is claimed of it). -/
  | notModelled (mnemonic : String)
deriving DecidableEq, Repr

/-- Everything that engine and platform commands act on. `copies` holds the values of the loader's descriptors, from which
a replay discard rewrites them (R512, R513), by kind × 2^40 + key: 0 objects, 1 streams, 2 samplers, 3 gather programs,
4 targets, 5 rings (core × 8 + ring), 6 collective headers, 7 buckets, 8 transfer entries.
`shards` holds Generation and CommitStep of the shards that this device owns, by ObjectId (R441). -/
structure Mach where
  dev : Dev := {}
  mgmt : Mgmt := {}
  cxl : Cxl := {}
  pwr : Power := {}
  tor : Torus := {}
  mem : Mem := {}
  ctxs : Tab Ctx 16 := .fill 16 {}
  cores : SMap Core := []
  sinters : SMap Sinter := []
  streams : SMap Pair := []
  samplers : SMap Sampler := []
  smpDescs : SMap Pair := []
  engines : SMap Engine := []
  gsDescs : SMap Pair := []
  served : List Served := []
  targets : SMap Target := []
  tables : SMap Table := []
  tabSnap : SMap Pair := []
  copies : SMap Nat := []
  shards : SMap (Pair × Pair) := []
  cnt : SMap Nat := []
  lastDataError : List Byte := List.replicate 32 0
  recStats : Tab Nat 8 := .fill 8 0
  out : List Out := []
  freeCtr : Nat := 0
deriving DecidableEq, Repr

/-- The machine: start-up and security state, everything else, and the commands that wait, first in, first out. -/
structure State where
  boot : Boot := {}
  m : Mach := {}
  pending : List Instr := []
deriving DecidableEq, Repr

/-- The machine right after reset (R618, R578): RESET, every other field at its default, no command waiting. -/
def State.reset : State := { m := { dev := { st := .reset } } }

end Sys2Proof.Machine
end

