-- ==== Sys2Proof/Machine/Dict.lean ====
section
/-!
DEFINITION. The object dictionary's entries: index, range of subindexes, type code, access, size and default, as the
chapters' entry tables give them (R444, R475, R504, R532, R556, R573, R612, R613, R645 and their kin), and the
counter blocks (R582).
-/

namespace Sys2Proof.Machine

/-- Access rights (R577). -/
inductive Acc where
  | ro | rw | rwq | wo | const
deriving DecidableEq, Repr

/-- A row of an entry table: index, first and last subindex, type code (R576), access, size in octets, default as a
little-endian number. -/
structure DEnt where
  index : Nat
  lo : Nat
  hi : Nat
  ty : Nat
  acc : Acc
  size : Nat
  dflt : Nat
deriving DecidableEq, Repr

/-- Part 0 of the entry table. -/
def dictTab0 : List DEnt := [
  ⟨0x1000, 0x01, 0x01, 12, .const, 32, 0x736d65747379736f7263694d207265766f6b6e616e4f⟩,  -- VendorName
  ⟨0x1000, 0x02, 0x02, 12, .const, 16, 0x41323356442d5950⟩,  -- PartNumber
  ⟨0x1000, 0x03, 0x03, 3, .const, 2, 1⟩,  -- SiliconStepping
  ⟨0x1000, 0x04, 0x04, 5, .ro, 8, 0⟩,  -- SerialNumber
  ⟨0x1000, 0x05, 0x05, 11, .ro, 6, 0⟩,  -- MacAddress
  ⟨0x1000, 0x06, 0x06, 2, .ro, 1, 0⟩,  -- NodeId
  ⟨0x1000, 0x07, 0x07, 2, .ro, 1, 0⟩,  -- BoardSlot
  ⟨0x1000, 0x08, 0x08, 1, .ro, 1, 0⟩,  -- MgmtEnable
  ⟨0x1000, 0x09, 0x09, 3, .const, 2, 1⟩,  -- DictionaryRevision
  ⟨0x1000, 0x0A, 0x0A, 4, .ro, 4, 0⟩,  -- FirmwareVersion
  ⟨0x1000, 0x0B, 0x0B, 12, .rw, 32, 0⟩,  -- UserLabel
  ⟨0x1100, 0x01, 0x01, 3, .rwq, 2, 0x88b5⟩,  -- EtherType
  ⟨0x1100, 0x02, 0x02, 2, .ro, 1, 0⟩,  -- PlcaLocalId
  ⟨0x1100, 0x03, 0x03, 2, .rwq, 1, 0x20⟩,  -- PlcaToTimer
  ⟨0x1100, 0x04, 0x04, 2, .rwq, 1, 0⟩,  -- PlcaBurstCount
  ⟨0x1100, 0x05, 0x05, 2, .rwq, 1, 0x80⟩,  -- PlcaBurstTimer
  ⟨0x1100, 0x06, 0x06, 2, .ro, 1, 0⟩,  -- PlcaStatus
  ⟨0x1100, 0x07, 0x07, 11, .rw, 6, 0xffffffffffff⟩,  -- HeartbeatDest
  ⟨0x1100, 0x08, 0x08, 3, .const, 2, 0x64⟩,  -- HeartbeatPeriod
  ⟨0x1100, 0x09, 0x09, 2, .const, 1, 0x10⟩,  -- RequesterCache
  ⟨0x1100, 0x0A, 0x0A, 2, .const, 1, 4⟩,  -- BlockWriters
  ⟨0x1100, 0x0B, 0x0B, 2, .const, 1, 8⟩,  -- NotifyLimit
  ⟨0x1100, 0x0C, 0x0C, 11, .wo, 8, 0⟩,  -- NotifySubscribe
  ⟨0x1100, 0x0D, 0x0D, 11, .ro, 64, 0⟩,  -- Subscribers
  ⟨0x1100, 0x0E, 0x0E, 4, .ro, 4, 0⟩,  -- NotifySeq
  ⟨0x1100, 0x0F, 0x0F, 11, .ro, 2048, 0⟩,  -- NotifyHistory
  ⟨0x1100, 0x10, 0x10, 3, .const, 2, 0xa⟩,  -- NotifyCoalesce
  ⟨0x1100, 0x11, 0x11, 13, .rw, 65536, 0⟩,  -- DictImage
  ⟨0x1100, 0x12, 0x12, 13, .const, 65536, 0⟩,  -- ImageIndexList
  ⟨0x1100, 0x13, 0x13, 11, .ro, 16, 0⟩,  -- ImageStatus
  ⟨0x1100, 0x14, 0x14, 2, .wo, 1, 0⟩,  -- CounterClear
  ⟨0x1100, 0x15, 0x15, 3, .const, 2, 0x200⟩,  -- MaxFrameData
  ⟨0x1200, 0x01, 0x01, 2, .rw, 1, 0⟩,  -- DeviceState
  ⟨0x1200, 0x02, 0x02, 11, .ro, 32, 0⟩,  -- FaultReport
  ⟨0x1200, 0x03, 0x03, 3, .ro, 2, 0⟩,  -- StrapStatus
  ⟨0x1200, 0x04, 0x04, 11, .ro, 16, 0⟩,  -- BootStatus
  ⟨0x1200, 0x05, 0x05, 11, .ro, 32, 0⟩,  -- StartupTimes
  ⟨0x1200, 0x06, 0x06, 4, .const, 4, 0x1f4⟩,  -- OpticalWait
  ⟨0x1200, 0x10, 0x10, 13, .wo, 8388864, 0⟩,  -- FirmwareImage
  ⟨0x1200, 0x11, 0x11, 13, .wo, 4096, 0⟩,  -- PufHelper
  ⟨0x2000, 0x01, 0x01, 2, .const, 1, 0x10⟩,  -- ComputeDies
  ⟨0x2000, 0x02, 0x02, 2, .const, 1, 0x13⟩,  -- ClustersBuilt
  ⟨0x2000, 0x03, 0x03, 2, .const, 1, 0x12⟩,  -- ClustersEnabled
  ⟨0x2000, 0x04, 0x04, 2, .const, 1, 0x10⟩,  -- CoresPerCluster
  ⟨0x2000, 0x05, 0x05, 11, .ro, 16, 0⟩,  -- RepairMap
  ⟨0x2000, 0x06, 0x06, 11, .ro, 64, 0⟩,  -- FailMap
  ⟨0x2000, 0x07, 0x07, 2, .const, 1, 8⟩,  -- MemorySideDies
  ⟨0x2000, 0x08, 0x08, 2, .const, 1, 8⟩,  -- LinkDies
  ⟨0x2000, 0x09, 0x09, 2, .const, 1, 0x20⟩,  -- HbmStacks
  ⟨0x2000, 0x0A, 0x0A, 2, .const, 1, 0x40⟩,  -- StackGiB
  ⟨0x2000, 0x0B, 0x0B, 11, .ro, 32, 0⟩,  -- HbmStatus
  ⟨0x2100, 0x01, 0x01, 2, .rw, 1, 0⟩,  -- SeedContext
  ⟨0x2100, 0x02, 0x02, 5, .ro, 8, 0⟩,  -- JobSeed
  ⟨0x2100, 0x03, 0x03, 1, .rwq, 1, 0⟩,  -- StrictDeterminism
  ⟨0x2100, 0x04, 0x04, 4, .const, 4, 0x7fc00000⟩,  -- CanonicalNan32
  ⟨0x2100, 0x05, 0x05, 2, .const, 1, 0x18⟩,  -- SrFractionBits
  ⟨0x2100, 0x06, 0x06, 3, .const, 2, 0x7fff⟩,  -- FormatSupport
  ⟨0x2100, 0x07, 0x07, 2, .const, 1, 0x1c⟩,  -- GroupSizes
  ⟨0x2100, 0x08, 0x08, 1, .const, 1, 1⟩,  -- SubnormalSupport
  ⟨0x2100, 0x09, 0x09, 3, .const, 2, 1⟩,  -- NumericsRevision
  ⟨0x2100, 0x0A, 0x0A, 5, .ro, 8, 0⟩,  -- StrictSteps
  ⟨0x2200, 0x01, 0x01, 3, .const, 2, 0x1200⟩,  -- CoreCount
  ⟨0x2200, 0x02, 0x02, 3, .const, 2, 0x800⟩,  -- ImemBundles
  ⟨0x2200, 0x03, 0x03, 2, .const, 1, 0x20⟩   -- IringSlotBundles
]

/-- Part 1 of the entry table. -/
def dictTab1 : List DEnt := [
  ⟨0x2200, 0x04, 0x04, 2, .const, 1, 0x20⟩,  -- IringSlotsMax
  ⟨0x2200, 0x05, 0x05, 2, .const, 1, 8⟩,  -- RingsPerCore
  ⟨0x2200, 0x06, 0x06, 2, .const, 1, 2⟩,  -- LoopDepth
  ⟨0x2200, 0x07, 0x07, 2, .const, 1, 0x10⟩,  -- TransferQueue
  ⟨0x2200, 0x08, 0x08, 3, .const, 2, 1⟩,  -- IsaRevision
  ⟨0x2200, 0x09, 0x09, 11, .ro, 36, 0⟩,  -- ClusterClaimMap
  ⟨0x2200, 0x0A, 0x0A, 3, .rw, 2, 0⟩,  -- FaultCoreSelect
  ⟨0x2200, 0x0B, 0x0B, 11, .ro, 32, 0⟩,  -- FaultRecord
  ⟨0x2200, 0x0C, 0x0C, 3, .const, 2, 0x1000⟩,  -- DescStoreEntries
  ⟨0x2200, 0x0D, 0x0D, 4, .const, 4, 0x400000⟩,  -- StagingBytes
  ⟨0x2240, 0x01, 0x01, 2, .const, 1, 0x40⟩,  -- PredLayers
  ⟨0x2240, 0x02, 0x02, 3, .rw, 2, 0x100⟩,  -- PredMissLimit
  ⟨0x2240, 0x03, 0x03, 10, .rw, 4, 0x3d800000⟩,  -- PredMarginStep
  ⟨0x2240, 0x04, 0x04, 10, .rwq, 4, 0⟩,  -- PredMarginInit
  ⟨0x2240, 0x05, 0x05, 4, .rw, 4, 0x100⟩,  -- PredMinAudits
  ⟨0x2240, 0x06, 0x06, 10, .rw, 4, 0x40800000⟩,  -- PredMarginMax
  ⟨0x2240, 0x07, 0x07, 2, .const, 1, 0x40⟩,  -- AuditRatio
  ⟨0x2240, 0x08, 0x08, 4, .rwq, 4, 0x64⟩,  -- RepruneSteps
  ⟨0x2240, 0x09, 0x09, 3, .rw, 2, 0⟩,  -- PredSelect
  ⟨0x2240, 0x0A, 0x0A, 11, .ro, 16, 0⟩,  -- PredState
  ⟨0x2240, 0x0B, 0x0B, 3, .const, 2, 0x120⟩,  -- SinterCount
  ⟨0x3000, 0x01, 0x01, 4, .rw, 4, 0x1194⟩,  -- PowerCap
  ⟨0x3000, 0x02, 0x02, 4, .const, 4, 0x12c0⟩,  -- PowerCapMax
  ⟨0x3000, 0x03, 0x03, 4, .const, 4, 0x15e0⟩,  -- PeakLimit
  ⟨0x3000, 0x04, 0x04, 4, .ro, 4, 0⟩,  -- PowerFloor
  ⟨0x3000, 0x05, 0x05, 4, .ro, 4, 0⟩,  -- PowerNow
  ⟨0x3000, 0x06, 0x06, 4, .ro, 4, 0⟩,  -- PowerAvg
  ⟨0x3000, 0x07, 0x07, 2, .rw, 1, 0x24⟩,  -- PowerPriority
  ⟨0x3000, 0x08, 0x08, 2, .rwq, 1, 0⟩,  -- FixedFrequency
  ⟨0x3000, 0x09, 0x09, 1, .rw, 1, 1⟩,  -- BoostEnable
  ⟨0x3000, 0x0A, 0x0A, 11, .ro, 16, 0⟩,  -- DomainPower
  ⟨0x3000, 0x0B, 0x0B, 11, .ro, 32, 0⟩,  -- DieState
  ⟨0x3000, 0x0C, 0x0C, 11, .ro, 16, 0⟩,  -- MemLinkRate
  ⟨0x3000, 0x0D, 0x0D, 11, .ro, 16, 0⟩,  -- RailStatus
  ⟨0x3100, 0x01, 0x01, 2, .rw, 1, 0x5f⟩,  -- ThrottleTemp
  ⟨0x3100, 0x02, 0x02, 2, .const, 1, 0x6e⟩,  -- TripTemp
  ⟨0x3100, 0x03, 0x03, 2, .const, 1, 3⟩,  -- ReleaseMargin
  ⟨0x3100, 0x04, 0x04, 2, .rw, 1, 0x55⟩,  -- BoostTempMax
  ⟨0x3100, 0x05, 0x05, 10, .ro, 4, 0⟩,  -- TempMax
  ⟨0x3100, 0x06, 0x06, 2, .rw, 1, 0⟩,  -- SensorSelect
  ⟨0x3100, 0x07, 0x07, 10, .ro, 4, 0⟩,  -- SensorTemp
  ⟨0x3100, 0x08, 0x08, 11, .ro, 16, 0⟩,  -- ThrottleMap
  ⟨0x3200, 0x01, 0x01, 11, .const, 10, 0x3c00320028001e00190⟩,  -- AclkPoints
  ⟨0x3200, 0x02, 0x02, 4, .const, 4, 0x186a00⟩,  -- FclkKhz
  ⟨0x3200, 0x03, 0x03, 4, .const, 4, 0x124f80⟩,  -- MclkKhz
  ⟨0x3200, 0x04, 0x04, 4, .const, 4, 0x17d784⟩,  -- LclkKhz
  ⟨0x3200, 0x05, 0x05, 1, .rwq, 1, 1⟩,  -- SpreadEnable
  ⟨0x3200, 0x06, 0x06, 5, .ro, 8, 0⟩,  -- TimeBase
  ⟨0x3200, 0x07, 0x07, 5, .wo, 8, 0⟩,  -- TimeBaseSet
  ⟨0x3200, 0x08, 0x08, 8, .ro, 4, 0⟩,  -- TimeRate
  ⟨0x3200, 0x09, 0x09, 2, .ro, 1, 7⟩,  -- RefStatus
  ⟨0x4000, 0x01, 0x01, 4, .ro, 4, 0⟩,  -- PoolFrames
  ⟨0x4000, 0x02, 0x02, 4, .ro, 4, 0⟩,  -- FreeFrames
  ⟨0x4000, 0x03, 0x03, 4, .ro, 4, 0⟩,  -- PinnedFrames
  ⟨0x4000, 0x04, 0x04, 4, .rwq, 4, 0x4000⟩,  -- EvictLowWater
  ⟨0x4000, 0x05, 0x05, 4, .rwq, 4, 0x8000⟩,  -- EvictHighWater
  ⟨0x4000, 0x06, 0x06, 2, .rw, 1, 4⟩,  -- AgeMin
  ⟨0x4000, 0x07, 0x07, 3, .rwq, 2, 0x1000⟩,  -- MigrateMaxPending
  ⟨0x4000, 0x08, 0x08, 4, .rw, 4, 0x7d0⟩,  -- TierReadTimeoutMem
  ⟨0x4000, 0x09, 0x09, 4, .rw, 4, 0xc350⟩,  -- TierReadTimeoutFlash
  ⟨0x4000, 0x0A, 0x0A, 4, .rw, 4, 0x4e20⟩,  -- DefaultReadBudget
  ⟨0x4000, 0x0B, 0x0B, 4, .const, 4, 0x1000⟩,  -- DirtyBlockSize
  ⟨0x4000, 0x0C, 0x0C, 4, .const, 4, 0x10000⟩,  -- ObjectTableEntries
  ⟨0x4000, 0x10, 0x17, 11, .rwq, 16, 0⟩   -- 
]

/-- Part 2 of the entry table. -/
def dictTab2 : List DEnt := [
  ⟨0x4100, 0x01, 0x01, 3, .const, 2, 0x100⟩,  -- TableMax
  ⟨0x4100, 0x02, 0x02, 3, .ro, 2, 0⟩,  -- TablesLive
  ⟨0x4100, 0x03, 0x03, 4, .rwq, 4, 0x8000⟩,  -- CalderaFrames
  ⟨0x4100, 0x04, 0x04, 4, .const, 4, 0x1000000⟩,  -- CalderaSlotsMax
  ⟨0x4100, 0x05, 0x05, 2, .rw, 1, 8⟩,  -- CalderaAgeEvict
  ⟨0x4100, 0x06, 0x06, 2, .const, 1, 0x80⟩,  -- CountedTablesMax
  ⟨0x4100, 0x07, 0x07, 3, .rw, 2, 0x40⟩,  -- HotThreshold
  ⟨0x4100, 0x08, 0x08, 4, .rwq, 4, 0x3e8⟩,  -- RefreshSteps
  ⟨0x4100, 0x09, 0x09, 4, .rw, 4, 0x30d40⟩,  -- RefreshWaitLimit
  ⟨0x4100, 0x0A, 0x0A, 4, .const, 4, 0x10000⟩,  -- CandidateLogMax
  ⟨0x4100, 0x0B, 0x0B, 4, .const, 4, 0x100000⟩,  -- PlanMaxEntries
  ⟨0x4100, 0x0C, 0x0C, 3, .rw, 2, 0x40⟩,  -- GroupMaxPerPlan
  ⟨0x4100, 0x0D, 0x0D, 3, .const, 2, 0x1000⟩,  -- GroupRows
  ⟨0x4100, 0x10, 0x10, 11, .wo, 66, 0⟩,  -- TablePublish
  ⟨0x4100, 0x11, 0x11, 11, .wo, 16, 0⟩,  -- RefreshPost
  ⟨0x4100, 0x12, 0x12, 3, .rw, 2, 0⟩,  -- TableSelect
  ⟨0x4100, 0x13, 0x13, 11, .ro, 16, 0⟩,  -- TableStatus
  ⟨0x4200, 0x01, 0x01, 2, .const, 1, 0x80⟩,  -- SamplerCount
  ⟨0x4200, 0x02, 0x02, 3, .const, 2, 0x100⟩,  -- SamplerReadEntries
  ⟨0x4200, 0x03, 0x03, 2, .const, 1, 0x10⟩,  -- SamplerStartQueue
  ⟨0x4200, 0x04, 0x04, 4, .rw, 4, 0x1f4⟩,  -- ForwardTimeout
  ⟨0x4200, 0x05, 0x05, 3, .const, 2, 0x100⟩,  -- ForwardInEntries
  ⟨0x4200, 0x06, 0x06, 2, .const, 1, 4⟩,  -- MaxHops
  ⟨0x4200, 0x07, 0x07, 4, .const, 4, 0x10000⟩,  -- MaxSeeds
  ⟨0x4200, 0x08, 0x08, 4, .const, 4, 0x10000⟩,  -- DedupSramBound
  ⟨0x4200, 0x09, 0x09, 2, .const, 1, 0x40⟩,  -- TypeScanRate
  ⟨0x4200, 0x0A, 0x0A, 11, .ro, 16, 0⟩,  -- SamplerClaimMap
  ⟨0x4300, 0x01, 0x01, 2, .const, 1, 0x80⟩,  -- GsEngineCount
  ⟨0x4300, 0x02, 0x02, 2, .const, 1, 0x40⟩,  -- GsCoreOutstanding
  ⟨0x4300, 0x03, 0x03, 3, .const, 2, 0x200⟩,  -- GsRowEntries
  ⟨0x4300, 0x04, 0x04, 3, .const, 2, 0x100⟩,  -- GsTierEntries
  ⟨0x4300, 0x05, 0x05, 4, .rw, 4, 0x1f4⟩,  -- RemoteTimeout
  ⟨0x4300, 0x06, 0x06, 3, .const, 2, 0x100⟩,  -- GsRemoteInEntries
  ⟨0x4300, 0x07, 0x07, 3, .const, 2, 0x1000⟩,  -- GsMaxRowWidth
  ⟨0x4300, 0x08, 0x08, 2, .const, 1, 0x10⟩,  -- GsMaxSlices
  ⟨0x4300, 0x09, 0x09, 2, .const, 1, 0x20⟩,  -- GsQueueEntries
  ⟨0x4300, 0x0A, 0x0A, 4, .const, 4, 0x10000⟩,  -- GsMaxWinnerSegment
  ⟨0x4300, 0x0B, 0x0B, 11, .ro, 16, 0⟩,  -- GsClaimMap
  ⟨0x4400, 0x01, 0x01, 2, .const, 1, 3⟩,  -- RingSlotsMin
  ⟨0x4400, 0x02, 0x02, 2, .const, 1, 0x40⟩,  -- RingSlotsMax
  ⟨0x4400, 0x03, 0x03, 4, .const, 4, 0x100000⟩,  -- SlotBytesMax
  ⟨0x4400, 0x04, 0x04, 4, .rw, 4, 0x7d0⟩,  -- DemandSlack
  ⟨0x4400, 0x05, 0x05, 4, .rw, 4, 0x186a0⟩,  -- MaxAge
  ⟨0x4400, 0x06, 0x06, 2, .const, 1, 0x28⟩,  -- DeadlineWindow
  ⟨0x5000, 0x01, 0x01, 2, .const, 1, 8⟩,  -- PortCount
  ⟨0x5000, 0x02, 0x02, 4, .rwq, 4, 0xffffffff⟩,  -- Coordinate
  ⟨0x5000, 0x03, 0x03, 4, .rwq, 4, 0x1010101⟩,  -- RingSize
  ⟨0x5000, 0x04, 0x04, 2, .rwq, 1, 0xff⟩,  -- PortEnable
  ⟨0x5000, 0x05, 0x05, 2, .rwq, 1, 0⟩,  -- FibreGroup
  ⟨0x5000, 0x06, 0x06, 4, .const, 4, 0x2710⟩,  -- LinkLostTime
  ⟨0x5000, 0x07, 0x07, 4, .const, 4, 0x3e8⟩,  -- KeepAlivePeriod
  ⟨0x5000, 0x08, 0x08, 2, .rw, 1, 0x10⟩,  -- RetryLimit
  ⟨0x5000, 0x09, 0x09, 4, .rw, 4, 0x400⟩,  -- LaneSwapSymbols
  ⟨0x5000, 0x0A, 0x0A, 2, .rw, 1, 0⟩,  -- PortSelect
  ⟨0x5000, 0x0B, 0x0B, 11, .ro, 32, 0⟩,  -- PortStatus
  ⟨0x5000, 0x0C, 0x0C, 1, .ro, 1, 0⟩,  -- TimeLocked
  ⟨0x5000, 0x20, 0x2F, 3, .rwq, 2, 0⟩,  -- 
  ⟨0x5100, 0x01, 0x01, 2, .const, 1, 8⟩,  -- GeyserEngines
  ⟨0x5100, 0x02, 0x02, 2, .const, 1, 0x40⟩,  -- BucketWindow
  ⟨0x5100, 0x03, 0x03, 3, .const, 2, 0x4000⟩,  -- BucketsPerEngine
  ⟨0x5100, 0x04, 0x04, 2, .rw, 1, 2⟩,  -- HeadroomBits
  ⟨0x5100, 0x05, 0x05, 6, .rw, 1, 0xec⟩,  -- DefaultExp
  ⟨0x5100, 0x06, 0x06, 4, .rw, 4, 0⟩,  -- SatLimit
  ⟨0x5100, 0x07, 0x07, 2, .rw, 1, 4⟩   -- SatRepeatLimit
]

/-- Part 3 of the entry table. -/
def dictTab3 : List DEnt := [
  ⟨0x5100, 0x08, 0x08, 4, .const, 4, 0x200000⟩,  -- GeyserQueueBytes
  ⟨0x5100, 0x09, 0x09, 2, .rw, 1, 0⟩,  -- NormContext
  ⟨0x5100, 0x0A, 0x0A, 11, .ro, 64, 0⟩,  -- LastNorm
  ⟨0x5100, 0x0B, 0x0B, 5, .ro, 8, 0⟩,  -- CalibrationSteps
  ⟨0x5800, 0x01, 0x01, 11, .ro, 16, 0⟩,  -- CxlPortStatus
  ⟨0x5800, 0x02, 0x02, 2, .const, 1, 4⟩,  -- CommandRings
  ⟨0x5800, 0x03, 0x03, 3, .const, 2, 0x1000⟩,  -- MailboxPayload
  ⟨0x5800, 0x04, 0x04, 4, .rwq, 4, 0⟩,  -- HdmFrames
  ⟨0x5800, 0x05, 0x05, 4, .const, 4, 0x40000000⟩,  -- BulkMax
  ⟨0x5800, 0x06, 0x06, 11, .ro, 16, 0⟩,  -- RingStatus
  ⟨0x7000, 0x01, 0x01, 11, .ro, 57, 0⟩,  -- IdentityKey
  ⟨0x7000, 0x02, 0x02, 11, .const, 32, 0⟩,  -- RootKeyHash
  ⟨0x7000, 0x03, 0x03, 11, .ro, 64, 0⟩,  -- FirmwareDigest
  ⟨0x7000, 0x04, 0x04, 13, .ro, 4096, 0⟩,  -- PufHelperOut
  ⟨0x7000, 0x05, 0x05, 2, .ro, 1, 0⟩,  -- IdentityStatus
  ⟨0x7000, 0x10, 0x10, 11, .wo, 32, 0⟩,  -- AttestNonce
  ⟨0x7000, 0x11, 0x11, 11, .ro, 424, 0⟩,  -- AttestReport
  ⟨0x7000, 0x20, 0x20, 11, .rwq, 32, 0⟩,  -- DebugKeyHash
  ⟨0x7000, 0x21, 0x21, 11, .ro, 32, 0⟩,  -- DebugChallenge
  ⟨0x7000, 0x22, 0x22, 11, .wo, 224, 0⟩,  -- DebugToken
  ⟨0x7000, 0x23, 0x23, 2, .ro, 1, 0⟩,  -- DebugKeyKind
  ⟨0x8000, 0x01, 0x01, 2, .rw, 1, 0⟩,  -- ContextSelect
  ⟨0x8000, 0x02, 0x02, 2, .ro, 1, 0⟩,  -- ContextState
  ⟨0x8000, 0x03, 0x03, 2, .wo, 1, 0⟩,  -- ContextControl
  ⟨0x8000, 0x04, 0x04, 5, .ro, 8, 0⟩,  -- StepNumber
  ⟨0x8000, 0x05, 0x05, 4, .ro, 4, 0⟩,  -- StepsGranted
  ⟨0x8000, 0x06, 0x06, 4, .rw, 4, 0⟩,  -- StepDeadline
  ⟨0x8000, 0x07, 0x07, 4, .rw, 4, 0⟩,  -- CommitWait
  ⟨0x8000, 0x08, 0x08, 11, .ro, 32, 0⟩,  -- LastStepRecord
  ⟨0x8000, 0x09, 0x09, 4, .ro, 4, 0⟩,  -- ReplayCount
  ⟨0x8000, 0x0A, 0x0A, 4, .ro, 4, 0xffffffff⟩,  -- CutAxes
  ⟨0x8000, 0x0B, 0x0B, 3, .ro, 2, 0⟩,  -- GroupDevices
  ⟨0x8000, 0x0C, 0x0C, 3, .const, 2, 0x4000⟩,  -- GroupDevicesMax
  ⟨0x8100, 0x01, 0x01, 2, .rwq, 1, 3⟩,  -- FailurePolicy
  ⟨0x8100, 0x02, 0x02, 2, .rw, 1, 3⟩,  -- ReplayLimit
  ⟨0x8100, 0x03, 0x03, 4, .rw, 4, 0x3e8⟩,  -- RepairTimeout
  ⟨0x8100, 0x04, 0x04, 2, .const, 1, 0x20⟩,  -- RepairOutstanding
  ⟨0x8100, 0x05, 0x05, 2, .rw, 1, 0⟩,  -- RecoveryContext
  ⟨0x8100, 0x06, 0x06, 11, .ro, 64, 0⟩,  -- FailureRecord
  ⟨0x8100, 0x07, 0x07, 11, .ro, 32, 0⟩,  -- LastDataError
  ⟨0x8100, 0x08, 0x08, 11, .ro, 64, 0⟩,  -- RecoveryStats
  ⟨0x8100, 0x09, 0x09, 4, .ro, 4, 0⟩,  -- RetiredFrames
  ⟨0x8100, 0x0B, 0x0B, 2, .wo, 1, 0⟩,  -- CheckpointControl
  ⟨0x8100, 0x0C, 0x0C, 5, .rw, 8, 0⟩,  -- CkptRecordVa
  ⟨0x8100, 0x0D, 0x0D, 11, .ro, 16, 0⟩,  -- CkptStatus
  ⟨0x8100, 0x0E, 0x0E, 4, .rwq, 4, 0⟩,  -- FastCkptSteps
  ⟨0x8100, 0x0F, 0x0F, 2, .rwq, 1, 0⟩,  -- FastCkptPort
  ⟨0x8100, 0x10, 0x10, 4, .rwq, 4, 0⟩,  -- ReserveFrames
  ⟨0x8100, 0x11, 0x11, 11, .ro, 32, 0⟩,  -- ReserveStatus
  ⟨0x8100, 0x12, 0x12, 11, .rwq, 16384, 0⟩,  -- RecoveryMap
  ⟨0x9000, 0x01, 0x01, 2, .rwq, 1, 0⟩,  -- SteerMode
  ⟨0x9000, 0x02, 0x02, 3, .rwq, 2, 1⟩,  -- MinMicroBatches
  ⟨0x9000, 0x03, 0x03, 3, .rwq, 2, 1⟩,  -- MaxMicroBatches
  ⟨0x9000, 0x04, 0x04, 2, .rw, 1, 4⟩,  -- SmoothShift
  ⟨0x9000, 0x05, 0x05, 2, .rw, 1, 0⟩,  -- SteerContext
  ⟨0x9000, 0x06, 0x06, 11, .ro, 16, 0⟩,  -- SteerState
  ⟨0xA000, 0x01, 0x01, 1, .rwq, 1, 0⟩,  -- DebugEnable
  ⟨0xA000, 0x02, 0x02, 3, .rw, 2, 0⟩,  -- DebugCore
  ⟨0xA000, 0x03, 0x03, 3, .rw, 2, 0xffff⟩,  -- DebugBreak
  ⟨0xA000, 0x04, 0x04, 2, .wo, 1, 0⟩,  -- DebugControl
  ⟨0xA000, 0x05, 0x05, 2, .ro, 1, 0⟩,  -- DebugStatus
  ⟨0xA000, 0x06, 0x06, 11, .ro, 128, 0⟩,  -- DebugScalar
  ⟨0xA000, 0x07, 0x07, 11, .ro, 128, 0⟩,  -- DebugAddress
  ⟨0xA000, 0x08, 0x08, 11, .ro, 16, 0⟩   -- DebugFlow
]

/-- Every entry but the counters and the subindexes 0x00. -/
def dictTab : List DEnt := dictTab0 ++ dictTab1 ++ dictTab2 ++ dictTab3

/-- The counter ranges of the blocks of R582: index, first and last subindex. -/
def counterTab : List (Nat × Nat × Nat) := [
  (0x6100, 0x01, 0x0B), (0x6200, 0x01, 0x0D), (0x6200, 0x20, 0x2B), (0x6300, 0x01, 0x09), (0x6400, 0x01, 0x0C),
  (0x6500, 0x01, 0x0C), (0x6600, 0x01, 0x0E), (0x6700, 0x01, 0x0C), (0x6800, 0x01, 0x09), (0x6900, 0x01, 0x10),
  (0x6A00, 0x01, 0x09), (0x6B00, 0x01, 0x0C), (0x6C00, 0x01, 0x09), (0x6D00, 0x01, 0x09), (0x6E00, 0x01, 0x0F),
  (0x6F00, 0x01, 0x06)]

/-- The counter entries as rows (R582: U64 RO). -/
def counterRows : List DEnt := counterTab.map (fun t => ⟨t.1, t.2.1, t.2.2, 5, .ro, 8, 0⟩)

/-- The highest subindex of an index, if the index exists (R579). -/
def highestSub (index : Nat) : Option Nat :=
  let l := (dictTab ++ counterRows).filter (fun e => e.index == index)
  if l.isEmpty then none else some (l.foldl (fun a e => max a e.hi) 0)

/-- The row of an entry, subindex 0x00 included (R579). -/
def dictEnt (index sub : Nat) : Option DEnt :=
  if sub == 0 then
    match highestSub index with
    | some h => some ⟨index, 0, 0, 2, .const, 1, h⟩
    | none => none
  else (dictTab ++ counterRows).find? (fun e => e.index == index && decide (e.lo ≤ sub) && decide (sub ≤ e.hi))

/-- The default value of an entry (R578). -/
def DEnt.default (e : DEnt) : List Byte := leBytes e.size e.dflt

/-- The key of an entry in the store and in the counters. -/
def dkey (index sub : Nat) : Nat := index * 256 + sub

/-- The stored value of a writable entry; its default where none is stored or the pair fails (R580). -/
def dval (m : Mach) (index sub : Nat) : List Byte :=
  let d : List Byte := match dictEnt index sub with
    | some e => e.default
    | none => []
  match m.mgmt.dict.find (dkey index sub) with
  | some (v, c) => if c == cplBytes v then v else d
  | none => d

/-- The stored value as a number. -/
def dnum (m : Mach) (index sub : Nat) : Nat := leVal (dval m index sub)

/-- Stores a value with its complement (R580, R593). -/
def dput (m : Mach) (index sub : Nat) (v : List Byte) : Mach :=
  { m with mgmt := { m.mgmt with dict := m.mgmt.dict.put (dkey index sub) (v, cplBytes v) } }

/-- The value of an entry that a context takes at its load and at each Q1 (R594). -/
def dlat (m : Mach) (c : Ctx) (index sub : Nat) : Nat :=
  match c.lat.find (dkey index sub) with
  | some v => leVal v
  | none => dnum m index sub

/-- The value of an entry that a context takes when it sends its BEGIN (R594). -/
def dlatB (m : Mach) (c : Ctx) (index sub : Nat) : Nat :=
  match c.latB.find (dkey index sub) with
  | some v => leVal v
  | none => dnum m index sub

/-- The entries that act at the next quench (02 R74, 03, 04, 05 R204, 10 R380, 11 R402, 13 R475). -/
def quenchEntries : List (Nat × Nat) := [
  (0x4000, 0x06), (0x4000, 0x08), (0x4000, 0x09), (0x4000, 0x0A), (0x4200, 0x04), (0x4300, 0x05),
  (0x4100, 0x07), (0x2240, 0x02), (0x2240, 0x03), (0x2240, 0x05),
  (0x2240, 0x06), (0x4400, 0x04), (0x4400, 0x05), (0x5100, 0x04), (0x5100, 0x05), (0x5100, 0x06), (0x5100, 0x07),
  (0x9000, 0x04)]

/-- The entries that act at the next begin barrier (14 R504, 15 R532), the per-context ones apart. -/
def beginEntries : List (Nat × Nat) := [(0x8100, 0x02), (0x8100, 0x03)]

/-- Takes the current values of a list of entries. -/
def latch (m : Mach) (l : List (Nat × Nat)) : SMap (List Byte) :=
  l.foldl (fun a k => SMap.put a (dkey k.1 k.2) (dval m k.1 k.2)) []

end Sys2Proof.Machine
end

