-- ==== Sys2Proof/Machine/MemOps.lean ====
section
/-!
DEFINITION. The named operations over memory (02): the canonical list of cells, object and page entries, translation,
reads and writes of a device virtual address, and the frames of the tiers.
-/

namespace Sys2Proof.Machine

/-! ### Cells in canonical form: addresses rising, no zero octet (an unlisted octet reads zero, 19 R625) -/

/-- The octet at an address. -/
def cellGet : List Host.Cell → Nat → Byte
  | [], _ => 0
  | (a', b) :: r, a => if a == a' then b else cellGet r a

/-- Writes one octet, keeping the canonical form. -/
def cellPut : List Host.Cell → Nat → Byte → List Host.Cell
  | [], a, b => if b == 0 then [] else [(a, b)]
  | (a', b') :: r, a, b =>
    if a < a' then (if b == 0 then (a', b') :: r else (a, b) :: (a', b') :: r)
    else if a == a' then (if b == 0 then r else (a, b) :: r)
    else (a', b') :: cellPut r a b

/-- The cells of octets that stand from an address on. -/
def zipCells (a : Nat) : List Byte → List Host.Cell
  | [] => []
  | b :: r => if b == 0 then zipCells (a + 1) r else (a, b) :: zipCells (a + 1) r

/-- Writes octets from an address on: they take the place of the cells of their span. -/
def cellsPut (l : List Host.Cell) (a : Nat) (bs : List Byte) : List Host.Cell :=
  l.filter (fun p => decide (p.1 < a)) ++ zipCells a bs ++ l.filter (fun p => decide (a + bs.length ≤ p.1))

/-- `n` octets from an address on, of cells at or above it. -/
def cellsRun : Nat → Nat → List Host.Cell → List Byte
  | 0, _, _ => []
  | n + 1, a, [] => 0 :: cellsRun n (a + 1) []
  | n + 1, a, (a', b) :: r => if a == a' then b :: cellsRun n (a + 1) r else 0 :: cellsRun n (a + 1) ((a', b) :: r)

/-- Reads `n` octets. -/
def cellsGet (l : List Host.Cell) (a n : Nat) : List Byte :=
  cellsRun n a (l.filter (fun p => decide (a ≤ p.1) && decide (p.1 < a + n)))

/-- The octets of `[src, src + n)` take the place of those of `[dst, dst + n)`. -/
def cellsCopy (l : List Host.Cell) (src dst n : Nat) : List Host.Cell :=
  let moved := (l.filter (fun p => decide (src ≤ p.1) && decide (p.1 < src + n))).map (fun p => (p.1 - src + dst, p.2))
  l.filter (fun p => decide (p.1 < dst)) ++ moved ++ l.filter (fun p => decide (dst + n ≤ p.1))

/-- The canonical form. -/
def cellsWf : List Host.Cell → Bool
  | [] => true
  | [(_, b)] => b != 0
  | (a, b) :: (a', b') :: r => b != 0 && decide (a < a') && cellsWf ((a', b') :: r)

/-- Both memories are in canonical form. -/
def Mem.wf (m : Mem) : Bool := cellsWf m.phys && cellsWf m.staging

/-! ### Object-table entries (R50) and page entries (R53) -/

def oId (v : Nat) : Nat := fld v 255 240
def oCtx (v : Nat) : Nat := fld v 239 236
def oShared (v : Nat) : Bool := tbit v 235
def oClass (v : Nat) : Nat := fld v 234 231
def oValid (v : Nat) : Bool := tbit v 230
def oBase (v : Nat) : Nat := fld v 229 195
def oSize (v : Nat) : Nat := fld v 194 163
def oHome (v : Nat) : Nat := fld v 162 161
def oPin (v : Nat) : Bool := tbit v 160
def oWays (v : Nat) : Nat := match fld v 159 157 with | 0 => 1 | 1 => 4 | 2 => 8 | 3 => 16 | _ => 32
def oFirst (v : Nat) : Nat := fld v 156 152
def oWidth (v : Nat) : Nat := fld v 151 149
def oPolicy (v : Nat) : Nat := fld v 148 146
def oThreshold (v : Nat) : Nat := fld v 145 138
def oBudget (v : Nat) : Nat := fld v 137 122

/-- A value with its complement over `w` bits. -/
def mkPair (w v : Nat) : Pair := ⟨v % 2 ^ w, cpl w v⟩

/-- A page entry's value. -/
def pageVal (tier : Nat) (pin mig : Bool) (obj frame : Nat) : Nat :=
  2 ^ 63 + tier * 2 ^ 61 + (if pin then 2 ^ 60 else 0) + (if mig then 2 ^ 59 else 0) + obj * 2 ^ 43 + frame * 2 ^ 11

def pTier (v : Nat) : Nat := fld v 62 61
def pPin (v : Nat) : Bool := tbit v 60
def pMig (v : Nat) : Bool := tbit v 59
def pObj (v : Nat) : Nat := fld v 58 43
def pFrame (v : Nat) : Nat := fld v 42 11

/-- The page number of a VA. -/
def vpnOf (va : Nat) : Nat := va % 2 ^ 56 / 2 ^ 21

/-- The outcome of a walk: a page entry's value, TIER_UNMAPPED or TIER_DESC_CHECK (R53, R55). -/
inductive Walk where
  | entry (v : Nat)
  | bad (code : Nat)
deriving DecidableEq, Repr

/-- TIER_DESC_CHECK of an object-table entry, which the loader's copy mends (R512); 0x0701 by itself is that of a page entry. -/
def objCheck : Nat := 0x10701

/-- An entry of the object table or of the directory has failed its check. -/
def isDescCheck (code : Nat) : Bool := code % 65536 == 0x0701

/-- Walks the directory for a page number. -/
def walkVpn (m : Mem) (vpn : Nat) : Walk :=
  match m.pages.find vpn with
  | none => .bad 0x0702
  | some p => if !pairOk 64 p.v p.c then .bad 0x0701 else if tbit p.v 63 then .entry p.v else .bad 0x0702

/-- The physical place of an octet of a frame: HBM frames from 0, region frames from 2^60. -/
def placeOf (tier frame off : Nat) : Nat := (if tier == 0 then 0 else 2 ^ 60) + frame * 2 ^ 21 + off

/-- The physical place of a VA, if mapped. -/
def place? (m : Mem) (va : Nat) : Option Nat :=
  match walkVpn m (vpnOf va) with
  | .entry v => some (placeOf (pTier v) (pFrame v) (va % 2 ^ 21))
  | .bad _ => none

/-- The page numbers of a span. -/
def spanVpns (va n : Nat) : List Nat :=
  if n == 0 then [] else rangeFrom (vpnOf va) (vpnOf (va + n - 1) + 1 - vpnOf va)

/-- The fault code that reading a span raises first, or 0. -/
def readCheck (m : Mem) (va n : Nat) : Nat :=
  (spanVpns va n).foldl (fun acc p => if acc != 0 then acc else
    match walkVpn m p with | .entry _ => 0 | .bad c => c) 0

/-- One octet of a VA; zero where it is unmapped (callers check first). -/
def vbyte (m : Mem) (va : Nat) : Byte :=
  match place? m va with
  | some p => cellGet m.phys p
  | none => 0

/-- The parts of a span by page: page number, first octet's distance from the span's start, length. -/
def spanParts (va n : Nat) : List (Nat × Nat × Nat) :=
  let v := va % 2 ^ 56
  (spanVpns v n).map (fun p =>
    let lo := max v (p * 2 ^ 21)
    (p, lo - v, min (v + n) ((p + 1) * 2 ^ 21) - lo))

/-- `n` octets of a span. -/
def vget (m : Mem) (va n : Nat) : List Byte :=
  (spanParts va n).flatMap (fun p =>
    match place? m (va + p.2.1) with
    | some q => cellsGet m.phys q p.2.2
    | none => List.replicate p.2.2 0)

/-- A little-endian number of a span. -/
def vnum (m : Mem) (va n : Nat) : Nat := leVal (vget m va n)

/-- Sets the access flag of a page's HBM frame (R65). -/
def touchPage (vpn : Nat) (m : Mem) : Mem :=
  match walkVpn m vpn with
  | .entry v => if pTier v == 0 && !m.touched.contains (pFrame v) then { m with touched := pFrame v :: m.touched } else m
  | .bad _ => m

/-- Sets the access flags of a span's HBM frames (R65). -/
def vtouch (va n : Nat) (m : Mem) : Mem := (spanVpns va n).foldl (fun m p => touchPage p m) m

/-- Marks the 4 KiB blocks of a span inside one page dirty in the page's pending migration (R71). -/
def markDirty (va n : Nat) (m : Mem) : Mem :=
  let first := va % 2 ^ 21 / 4096
  let blocks := rangeFrom first ((va % 2 ^ 21 + n - 1) / 4096 + 1 - first)
  if m.migs.any (fun g => g.vpn == vpnOf va) then
    { m with migs := m.migs.map (fun g =>
        if g.vpn == vpnOf va then { g with dirty := g.dirty ++ blocks.filter (fun b => !g.dirty.contains b) } else g) }
  else m

/-- Bursts that are written have good CRCs (15 R509). -/
def goodBursts (q n : Nat) (l : List Nat) : List Nat := l.filter (fun b => decide (32 * b + 32 ≤ q) || decide (q + n ≤ 32 * b))

/-- A span holds a burst that fails its CRC (15 R516). -/
def spanFails (va n : Nat) (m : Mem) : Bool :=
  (spanParts va n).any (fun p => match place? m (va + p.2.1) with
    | some q => (goodBursts q p.2.2 m.failing).length != m.failing.length
    | none => false)

/-- Writes octets from a VA on, into the frames that the directory names. -/
def vputs (va : Nat) (bs : List Byte) (m : Mem) : Mem :=
  (spanParts va bs.length).foldl (fun m p =>
    match place? m (va + p.2.1) with
    | some q => markDirty (va + p.2.1) p.2.2 { m with
        phys := cellsPut m.phys q ((bs.drop p.2.1).take p.2.2), failing := goodBursts q p.2.2 m.failing }
    | none => m) m

/-- Writes a span and sets its access flags. -/
def vput (va : Nat) (bs : List Byte) (m : Mem) : Mem := vtouch va bs.length (vputs va bs m)

/-- The object that a VA's page belongs to. -/
def objAt (m : Mem) (va : Nat) : Option Nat :=
  match walkVpn m (vpnOf va) with
  | .entry v => match m.objects.find (pObj v) with
    | some p => if pairOk 256 p.v p.c then some p.v else none
    | none => none
  | .bad _ => none

/-- The object that a page entry names, where both pairs agree. -/
def objOfPage (m : Mem) (p : Pair) : Option Nat :=
  if !pairOk 64 p.v p.c || !tbit p.v 63 then none
  else match m.objects.find (pObj p.v) with
    | some o => if pairOk 256 o.v o.c then some o.v else none
    | none => none

/-- An object's descriptor by its number, when valid and its pair agrees. -/
def objById (m : Mem) (id : Nat) : Option Nat :=
  match m.objects.find id with
  | some p => if pairOk 256 p.v p.c && oValid p.v then some p.v else none
  | none => none

/-- First and one past the last VA of an object. -/
def objSpan (v : Nat) : Nat × Nat := (oBase v * 2 ^ 21, (oBase v + oSize v) * 2 ^ 21)

/-- A span lies inside one object of the given context, whose descriptor is answered. -/
def objHolding (m : Mem) (va n : Nat) : Option Nat :=
  match objAt m va with
  | some v => if decide (va + n ≤ (objSpan v).2) then some v else none
  | none => none

/-- The fault code that a write by a context during RUN raises, or 0: R52, R55. Only SCRATCH and RING objects of the
context itself, not Shared, are written between quenches. R52 names no code for a write of an own object of another class: 0x0707 is
the model's choice (log entry 94). -/
def writeCheck (m : Mem) (ctx va n : Nat) : Nat :=
  let r := readCheck m va n
  if r != 0 then r
  else (spanVpns va n).foldl (fun acc p => if acc != 0 then acc else
    match objAt m (p * 2 ^ 21) with
    | some v => if oCtx v == ctx && !oShared v && (oClass v == 5 || oClass v == 6) then 0 else 0x0707
    | none => objCheck) 0

/-- R55: the fault code that a write by a context of its own areas raises, or 0: unmapped, a pair that fails its check, an
object of another context, or a Shared one. -/
def rightCheck (m : Mem) (ctx va n : Nat) : Nat :=
  let r := readCheck m va n
  if r != 0 then r
  else (spanVpns va n).foldl (fun acc p => if acc != 0 then acc else
    match objAt m (p * 2 ^ 21) with
    | some v => if oCtx v == ctx && !oShared v then 0 else 0x0707
    | none => objCheck) 0

/-- An object's entry that fails its complement (R49). -/
def objBad (m : Mem) (id : Nat) : Bool :=
  match m.objects.find id with
  | some p => !pairOk 256 p.v p.c
  | none => false

/-- A page's object has an entry that fails its complement. -/
def entryBad (m : Mem) (va : Nat) : Bool :=
  match walkVpn m (vpnOf va) with
  | .entry v => objBad m (pObj v)
  | .bad _ => false

/-! ### Frames -/

/-- The frames of the device's own objects (R47): the object table and the HDM window, the directory leaves, the
loader's copies (R310), the reserve. -/
def Mem.ownFrames (m : Mem) : List Nat :=
  m.devFrames ++ m.leaves.flatMap Prod.snd ++ m.copyFrames.flatMap Prod.snd ++ m.reserve

/-- HBM frames that are named, reserved, the device's, or retired. -/
def usedHbm (m : Mem) : List Nat :=
  (m.pages.filter (fun p => tbit p.2.v 63 && pTier p.2.v == 0)).map (fun p => pFrame p.2.v) ++
  (m.migs.filter (fun g => g.dstTier == 0)).map Mig.dstFrame ++
  (m.freeLater.filter (fun p => p.1 == 0)).map Prod.snd ++ m.ownFrames ++ m.retired

/-- Lower-tier frames (region in bits 31:29) that are named or reserved. -/
def usedLow (m : Mem) : List Nat :=
  (m.pages.filter (fun p => tbit p.2.v 63 && pTier p.2.v != 0)).map (fun p => pFrame p.2.v) ++
  (m.migs.filter (fun g => g.dstTier != 0)).map Mig.dstFrame ++
  (m.freeLater.filter (fun p => p.1 != 0)).map Prod.snd

/-- The least number outside `used`. -/
def firstFree (used : List Nat) : Nat := lowestZero (used.foldl (fun y f => y ||| 2 ^ f) 0)

/-- Which frames are in use, one number for each stack and each region, a bit for each frame; and how many of HBM are. -/
structure FrameMap where
  hbmBits : List Nat := List.replicate 32 0
  count : Nat := 0
  regions : List Nat := List.replicate 8 0
deriving DecidableEq, Repr

/-- Sets a frame's bit, in parts of `span` frames. -/
def markFrame (span : Nat) (l : List Nat) (f : Nat) : List Nat :=
  setAt l (f / span) (l.getD (f / span) 0 ||| 2 ^ (f % span))

/-- Marks an HBM frame, counting it once. -/
def FrameMap.hbm (g : FrameMap) (f : Nat) : FrameMap :=
  if tbit (g.hbmBits.getD (f / 32768) 0) (f % 32768) then g
  else { g with hbmBits := markFrame 32768 g.hbmBits f, count := g.count + 1 }

/-- Marks a lower-tier frame. -/
def FrameMap.low (g : FrameMap) (f : Nat) : FrameMap := { g with regions := markFrame (2 ^ 29) g.regions f }

/-- Marks a frame of a tier. -/
def FrameMap.mark (g : FrameMap) (p : Nat × Nat) : FrameMap := if p.1 == 0 then g.hbm p.2 else g.low p.2

/-- The frames of the caldera's data region (05, `0x4100.03`). -/
def calderaFrames (m : Mach) : Nat := dnum m 0x4100 0x03

/-- How many of a region's `n` frames lie in a stack: an even share of each, the lowest stacks taking what is left over. -/
def regionShare (n stack : Nat) : Nat := n / 32 + (if stack < n % 32 then 1 else 0)

/-- The caldera's region takes the highest frames of every stack (log entry 78). -/
def regionBits (n stack : Nat) : Nat :=
  let q := min 32768 (regionShare n stack)
  (2 ^ q - 1) * 2 ^ (32768 - q)

/-- The frames that the device uses, its caldera region's with them. -/
def frameMap (m : Mach) : FrameMap :=
  let n := calderaFrames m
  (usedLow m.mem).foldl FrameMap.low ((usedHbm m.mem).foldl FrameMap.hbm
    { hbmBits := (List.range 32).map (regionBits n), count := ((List.range 32).map (fun s => min 32768 (regionShare n s))).foldl (· + ·) 0 })

/-- The lowest free frame of a stack. -/
def FrameMap.inStack (g : FrameMap) (stack : Nat) : Option Nat :=
  let f := lowestZero (g.hbmBits.getD stack 0)
  if f < 32768 then some (stack * 32768 + f) else none

/-- A free frame of an object's interleave set for page i (R50, R665). -/
def FrameMap.inSet (g : FrameMap) (v i : Nat) : Option Nat :=
  let w := oWays v
  ((List.range w).map (fun k => oFirst v + (i + k) % w)).findSome? g.inStack

/-- A free frame on the lowest-numbered stack outside the set (R665). -/
def FrameMap.outside (g : FrameMap) (v : Nat) : Option Nat :=
  let w := oWays v
  ((List.range 32).filter (fun s => !(decide (oFirst v ≤ s) && decide (s < oFirst v + w)))).findSome? g.inStack

def freeInSet (m : Mach) (v i : Nat) : Option Nat := (frameMap m).inSet v i
def freeOutside (m : Mach) (v : Nat) : Option Nat := (frameMap m).outside v

/-- HBM frames neither named, reserved, the device's nor retired. -/
def freeHbmCount (m : Mach) : Nat := 1048576 - (frameMap m).count

/-- Up to `n` free frames, each the lowest free one of the lowest stack. -/
def FrameMap.take : Nat → FrameMap → List Nat
  | 0, _ => []
  | n + 1, g => match (List.range 32).findSome? g.inStack with
    | none => []
    | some f => f :: FrameMap.take n (g.hbm f)

/-- Up to `n` free frames for the device (log entry 8). -/
def freeFrames (n : Nat) (m : Mach) : List Nat := FrameMap.take n (frameMap m)

/-- A tier region's fields (R57): base, frames, kind, port. -/
structure Region where
  base : Nat
  frames : Nat
  kind : Nat
  port : Nat
deriving DecidableEq, Repr

/-- Region k of the dictionary. -/
def regionAt (m : Mach) (k : Nat) : Region :=
  let d := dval m 0x4000 (0x10 + k)
  ⟨octs d 0 8, octs d 8 4, octs d 12 1, octs d 13 1⟩

/-- R666: the lowest free frame of the lowest region of a tier. -/
def FrameMap.inTier (g : FrameMap) (m : Mach) (tier : Nat) : Option Nat :=
  (List.range 8).findSome? (fun k =>
    let r := regionAt m k
    let f := lowestZero (g.regions.getD k 0)
    if r.kind == tier && decide (f < r.frames) then some (k * 2 ^ 29 + f) else none)

def freeLow (m : Mach) (tier : Nat) : Option Nat := (frameMap m).inTier m tier

/-- Lifts an operation on memory. -/
def onMem (f : Mem → Mem) (m : Mach) : Mach := { m with mem := f m.mem }

end Sys2Proof.Machine
end

