-- ==== Sys2Proof/Machine/Num.lean ====
section
/-!
DEFINITION. Number formats, decoding and rounding (06 R207 to R222, R226): every finite value is an exact dyadic
rational `(−1)^neg × m × 2^e`; every operation computes exactly and narrows once.
-/

namespace Sys2Proof.Machine

/-- A decoded value: NaN, an infinity, or `(−1)^neg × m × 2^e` exactly. -/
inductive FVal where
  | nan
  | inf (neg : Bool)
  | fin (neg : Bool) (m : Nat) (e : Int)
  deriving DecidableEq, Repr

/-- How a floating format encodes its special values (R208). -/
inductive Specials where
  | ieee      -- all-ones exponent: infinities and NaNs
  | e4m3      -- only the all-ones code is NaN, no infinity
  | none      -- FP4: neither
  deriving DecidableEq, Repr

/-- A floating format (R208): exponent bits, mantissa bits, bias, specials. -/
structure FFmt where
  eb : Nat
  mb : Nat
  bias : Nat
  sp : Specials
  deriving DecidableEq, Repr

/-- binary32. -/
def F32 : FFmt := ⟨8, 23, 127, .ieee⟩
/-- binary64 (13 R464, R466). -/
def F64 : FFmt := ⟨11, 52, 1023, .ieee⟩
/-- binary16. -/
def F16 : FFmt := ⟨5, 10, 15, .ieee⟩
/-- bfloat16. -/
def BF16 : FFmt := ⟨8, 7, 127, .ieee⟩
/-- FP8 E4M3. -/
def E4M3 : FFmt := ⟨4, 3, 7, .e4m3⟩
/-- FP8 E5M2. -/
def E5M2 : FFmt := ⟨5, 2, 15, .ieee⟩
/-- FP4 E2M1. -/
def E2M1 : FFmt := ⟨2, 1, 1, .none⟩

/-- Width in bits of a format. -/
def FFmt.width (f : FFmt) : Nat := 1 + f.eb + f.mb

/-- The canonical NaN of a format (R210); FP4 has none and takes +0 (R220). -/
def FFmt.nanCode (f : FFmt) : Nat :=
  match f.sp with
  | .ieee => ((2 ^ f.eb - 1) <<< f.mb) + 2 ^ (f.mb - 1)
  | .e4m3 => 2 ^ (f.eb + f.mb) - 1
  | .none => 0

/-- The code of the largest finite magnitude (R208). -/
def FFmt.maxCode (f : FFmt) : Nat :=
  match f.sp with
  | .ieee => ((2 ^ f.eb - 1) <<< f.mb) - 1
  | .e4m3 => 2 ^ (f.eb + f.mb) - 2
  | .none => 2 ^ (f.eb + f.mb) - 1

/-- The sign bit of a code. -/
def FFmt.signBit (f : FFmt) (neg : Bool) : Nat := if neg then 2 ^ (f.eb + f.mb) else 0

/-- Decodes a code (R208, R209: subnormals kept). -/
def FFmt.decode (f : FFmt) (c : Nat) : FVal :=
  let neg := tbit c (f.eb + f.mb)
  let ex := fld c (f.eb + f.mb - 1) f.mb
  let man := c % 2 ^ f.mb
  match f.sp with
  | .ieee =>
    if ex == 2 ^ f.eb - 1 then (if man == 0 then .inf neg else .nan)
    else if ex == 0 then .fin neg man (1 - (f.bias : Int) - f.mb)
    else .fin neg (2 ^ f.mb + man) ((ex : Int) - f.bias - f.mb)
  | .e4m3 =>
    if ex == 2 ^ f.eb - 1 && man == 2 ^ f.mb - 1 then .nan
    else if ex == 0 then .fin neg man (1 - (f.bias : Int) - f.mb)
    else .fin neg (2 ^ f.mb + man) ((ex : Int) - f.bias - f.mb)
  | .none =>
    if ex == 0 then .fin neg man (1 - (f.bias : Int) - f.mb)
    else .fin neg (2 ^ f.mb + man) ((ex : Int) - f.bias - f.mb)

/-- Rounding directions (R219). Stochastic rounding takes its draw `U` and compares it with `F` (R222). -/
inductive Rnd where
  | rne | rtz | rdn | rup
  | sr (u : Nat)
  deriving DecidableEq, Repr

/-- The rounding of a 3-bit field other than SR (R219); reserved codes do not occur in a loaded program (R279). -/
def rndOf (field : Nat) : Rnd :=
  match field with
  | 0 => .rne
  | 1 => .rtz
  | 2 => .rdn
  | 3 => .rup
  | _ => .rne

/-- Whether `lo + r/d` (0 ≤ r < d) rounds up to `lo + 1` in magnitude. For SR the comparison is made on the value
itself: `lo` is the greatest grid value at or below x, so a negative value's upper neighbour is the one of smaller
magnitude (R222). -/
def roundUp (md : Rnd) (neg : Bool) (loOdd : Bool) (r d : Nat) : Bool :=
  if r == 0 then false
  else
    match md with
    | .rne => decide (2 * r > d) || (2 * r == d && loOdd)
    | .rtz => false
    | .rdn => neg
    | .rup => !neg
    | .sr u =>
      if neg then
        -- x = −(lo + r/d); grid below: −(lo+1); distance above it is (d − r)/d
        !(decide (u < (d - r) * 2 ^ 24 / d))
      else decide (u < r * 2 ^ 24 / d)

/-- `num / den × 2^e` as a quotient and remainder at scale `2^q`: the value is `(k + r/d) × 2^q`. -/
def scaleAt (num den : Nat) (e q : Int) : Nat × Nat × Nat :=
  let sh := e - q
  if sh ≥ 0 then
    let n := num <<< sh.toNat
    (n / den, n % den, den)
  else
    let d := den <<< (-sh).toNat
    (num / d, num % d, d)

/-- ⌊log2 (num / den × 2^e)⌋ for a positive value. -/
def floorLog2 (num den : Nat) (e : Int) : Int :=
  let g : Int := (Nat.log2 num : Int) - (Nat.log2 den : Int)
  -- 2^g ≤ num/den < 2^(g+1), or one less
  let ok : Bool := if g ≥ 0 then decide (den <<< g.toNat ≤ num) else decide (den ≤ num <<< (-g).toNat)
  (if ok then g else g - 1) + e

/-- The result of narrowing: a code and whether its rounded magnitude was over the largest finite value. -/
structure Narrowed where
  code : Nat
  above : Bool
  deriving DecidableEq, Repr

/-- Rounds the positive magnitude `num / den × 2^e` with sign `neg` into format `f` (R219, R220, R222). `sat` is the
saturation bit. -/
def FFmt.roundQ (f : FFmt) (md : Rnd) (sat : Bool) (neg : Bool) (num den : Nat) (e : Int) : Narrowed :=
  let sb := f.signBit neg
  if num == 0 then ⟨sb, false⟩
  else
    let emin : Int := 1 - (f.bias : Int)
    let lg := floorLog2 num den e
    let q : Int := (if lg < emin then emin else lg) - f.mb
    let (k, r, d) := scaleAt num den e q
    let k' := if roundUp md neg (k % 2 == 1) r d then k + 1 else k
    -- the code of k' × 2^q: a carry into the next binade is absorbed by the addition
    let base : Nat := ((q + f.mb - emin).toNat) <<< f.mb
    let code := base + k'
    if code ≤ f.maxCode then ⟨sb + code, false⟩
    else
      -- over (R220): RTZ, RDN for positive and RUP for negative values never report it
      let never : Bool := match md with
        | .rtz => true
        | .rdn => !neg
        | .rup => neg
        | _ => false
      if never then ⟨sb + f.maxCode, false⟩
      else if sat then ⟨sb + f.maxCode, true⟩
      else match f.sp with
        | .ieee => ⟨sb + ((2 ^ f.eb - 1) <<< f.mb), true⟩
        | .e4m3 => ⟨f.nanCode, true⟩
        | .none => ⟨sb + f.maxCode, true⟩

/-- Narrows a decoded value into format `f` (R220, R221). -/
def FFmt.narrow (f : FFmt) (md : Rnd) (sat : Bool) (v : FVal) : Nat :=
  match v with
  | .nan => f.nanCode
  | .inf neg =>
    match f.sp with
    | .ieee => if sat then f.signBit neg + f.maxCode else f.signBit neg + ((2 ^ f.eb - 1) <<< f.mb)
    | .e4m3 => if sat then f.signBit neg + f.maxCode else f.nanCode
    | .none => f.signBit neg + f.maxCode
  | .fin neg m e => (f.roundQ md sat neg m 1 e).code

/-- Narrows to an integer of `w` bits, `±` range limit beyond it, NaN 0 (R220). The result is the signed value. -/
def narrowInt (w : Nat) (md : Rnd) (v : FVal) : Int :=
  let hi : Int := (2 ^ (w - 1) : Nat) - 1
  let lo : Int := -((2 ^ (w - 1) : Nat) : Int)
  match v with
  | .nan => 0
  | .inf neg => if neg then lo else hi
  | .fin neg m e =>
    let (k, r, d) := scaleAt m 1 e 0
    let k' : Nat := if roundUp md neg (k % 2 == 1) r d then k + 1 else k
    let x : Int := if neg then -(k' : Int) else k'
    if x > hi then hi else if x < lo then lo else x

/-! ### Exact arithmetic on decoded values -/

/-- Exact negation. -/
def FVal.neg : FVal → FVal
  | .nan => .nan
  | .inf n => .inf (!n)
  | .fin n m e => .fin (!n) m e

/-- The value is NaN. -/
def FVal.isNan : FVal → Bool
  | .nan => true
  | _ => false

/-- The value is an infinity. -/
def FVal.isInf : FVal → Bool
  | .inf _ => true
  | _ => false

/-- The value is a zero. -/
def FVal.isZero : FVal → Bool
  | .fin _ 0 _ => true
  | _ => false

/-- The signed mantissa of a finite value at exponent `q ≤ e`. -/
def signedAt (neg : Bool) (m : Nat) (e q : Int) : Int :=
  let k : Nat := m <<< (e - q).toNat
  if neg then -(k : Int) else k

/-- Exact product; `∞ × 0` is NaN (IEEE 754, R231). -/
def FVal.mul : FVal → FVal → FVal
  | .nan, _ => .nan
  | _, .nan => .nan
  | .inf a, .inf b => .inf (a != b)
  | .inf a, .fin b m _ => if m == 0 then .nan else .inf (a != b)
  | .fin a m _, .inf b => if m == 0 then .nan else .inf (a != b)
  | .fin a m e, .fin b m' e' => .fin (a != b) (m * m') (e + e')

/-- Exact sum. An exact zero sum of unlike signs is +0, or −0 when `rdn`; opposite infinities give NaN. -/
def FVal.add (rdn : Bool) : FVal → FVal → FVal
  | .nan, _ => .nan
  | _, .nan => .nan
  | .inf a, .inf b => if a == b then .inf a else .nan
  | .inf a, .fin _ _ _ => .inf a
  | .fin _ _ _, .inf b => .inf b
  | .fin a m e, .fin b m' e' =>
    let q := if e ≤ e' then e else e'
    let s := signedAt a m e q + signedAt b m' e' q
    if s == 0 then
      (if m == 0 && m' == 0 && a == b then .fin a 0 q else .fin rdn 0 q)
    else .fin (decide (s < 0)) s.natAbs q

/-- `a < b` on numbers; false when either is NaN; +0 equals −0. -/
def FVal.lt : FVal → FVal → Bool
  | .nan, _ => false
  | _, .nan => false
  | .inf a, .inf b => a && !b
  | .inf a, .fin _ _ _ => a
  | .fin _ _ _, .inf b => !b
  | .fin a m e, .fin b m' e' =>
    let q := if e ≤ e' then e else e'
    decide (signedAt a m e q < signedAt b m' e' q)

/-- Equality on numbers; false when either is NaN; +0 equals −0. -/
def FVal.eqv (a b : FVal) : Bool := !a.isNan && !b.isNan && !(a.lt b) && !(b.lt a)

/-- The sign of a value (NaN: positive). -/
def FVal.sign : FVal → Bool
  | .nan => false
  | .inf n => n
  | .fin n _ _ => n

/-- The absolute value. -/
def FVal.abs : FVal → FVal
  | .nan => .nan
  | .inf _ => .inf false
  | .fin _ m e => .fin false m e

/-! ### Operations on codes, each rounding once -/

/-- `a + b` in format `f`. -/
def FFmt.addC (f : FFmt) (md : Rnd) (sat : Bool) (a b : Nat) : Nat :=
  f.narrow md sat ((f.decode a).add (md == .rdn) (f.decode b))

/-- `a − b` in format `f`. -/
def FFmt.subC (f : FFmt) (md : Rnd) (sat : Bool) (a b : Nat) : Nat :=
  f.narrow md sat ((f.decode a).add (md == .rdn) (f.decode b).neg)

/-- `a × b` in format `f`. -/
def FFmt.mulC (f : FFmt) (md : Rnd) (sat : Bool) (a b : Nat) : Nat :=
  f.narrow md sat ((f.decode a).mul (f.decode b))

/-- `a × b + c`, rounded once (R234). -/
def FFmt.fmaC (f : FFmt) (md : Rnd) (sat : Bool) (a b c : Nat) : Nat :=
  f.narrow md sat (((f.decode a).mul (f.decode b)).add (md == .rdn) (f.decode c))

/-- `a / b` as a decoded quotient, rounded once into `f`. `x / 0` is a signed infinity, `0 / 0` and `∞ / ∞` NaN. -/
def FFmt.divV (f : FFmt) (md : Rnd) (a b : FVal) : Nat :=
  match a, b with
  | .nan, _ => f.nanCode
  | _, .nan => f.nanCode
  | .inf _, .inf _ => f.nanCode
  | .inf x, .fin y _ _ => f.narrow md false (.inf (x != y))
  | .fin x _ _, .inf y => f.signBit (x != y)
  | .fin x m e, .fin y m' e' =>
    if m' == 0 then (if m == 0 then f.nanCode else f.narrow md false (.inf (x != y)))
    else (f.roundQ md false (x != y) m m' (e - e')).code

/-- `a / b` in format `f`. -/
def FFmt.divC (f : FFmt) (md : Rnd) (a b : Nat) : Nat := f.divV md (f.decode a) (f.decode b)

/-- The correctly rounded square root of a value, RNE: the integer root of a scaled mantissa with a sticky bit. -/
def FFmt.sqrtV (f : FFmt) (v : FVal) : Nat :=
  match v with
  | .nan => f.nanCode
  | .inf n => if n then f.nanCode else f.narrow .rne false (.inf false)
  | .fin n m e =>
    if m == 0 then f.signBit n
    else if n then f.nanCode
    else
      let sh : Nat := 2 * (f.mb + 4) + (if e % 2 == 0 then 0 else 1)
      let m2 := m <<< sh
      let r := Nat.sqrt m2
      let m3 := if r * r == m2 then 2 * r else 2 * r + 1
      (f.roundQ .rne false false m3 1 ((e - sh) / 2 - 1)).code

/-- A code of format `f` names a NaN. -/
def FFmt.isNanC (f : FFmt) (a : Nat) : Bool := (f.decode a).isNan

/-- A code whose NaNs are made canonical (R210). -/
def FFmt.canon (f : FFmt) (a : Nat) : Nat := if f.isNanC a then f.nanCode else a

/-- Converts a code from `f` to `g` by R220 and R221. -/
def FFmt.cvt (f g : FFmt) (md : Rnd) (sat : Bool) (a : Nat) : Nat := g.narrow md sat (f.decode a)

/-- binary32 from a signed integer, RNE (09 R340). -/
def i32ToF32 (i : Int) : Nat := F32.narrow .rne false (.fin (decide (i < 0)) i.natAbs 0)

/-- INT32 saturation (R230). -/
def satI32 (i : Int) : Int := if i > 2147483647 then 2147483647 else if i < -2147483648 then -2147483648 else i

/-- The decoded value of a signed integer. -/
def ofInt (i : Int) : FVal := .fin (decide (i < 0)) i.natAbs 0

/-- The exact value `c × 2^k`. -/
def scaleV (v : FVal) (k : Int) : FVal :=
  match v with
  | .fin n m e => .fin n m (e + k)
  | x => x

/-! ### Format codes (R207) -/

/-- The element width in bits of a format code (R207); shared scales not counted. -/
def codeBits (c : Nat) : Nat :=
  match c with
  | 0x0 | 0xD => 32
  | 0x1 | 0x2 => 16
  | 0x3 | 0x4 | 0x5 | 0x8 | 0x9 | 0xB | 0xC | 0xE => 8
  | 0x6 | 0x7 | 0xA => 4
  | _ => 0

/-- The format code is a Microscaling format (R207). -/
def isMx (c : Nat) : Bool := c == 0x8 || c == 0x9 || c == 0xA || c == 0xB

/-- The floating format of a code, if it is one. -/
def floatOf (c : Nat) : Option FFmt :=
  match c with
  | 0x0 => some F32
  | 0x1 => some F16
  | 0x2 => some BF16
  | 0x3 | 0x8 => some E4M3
  | 0x4 | 0x9 => some E5M2
  | 0x7 | 0xA => some E2M1
  | _ => none

/-- The value of an element code without any shared scale (R208, R212, R214: MXINT8 code c stands for c × 2^−6). -/
def elemVal (fmt code : Nat) : FVal :=
  match floatOf fmt with
  | some f => f.decode (code % 2 ^ f.width)
  | none =>
    match fmt with
    | 0x5 => ofInt (sxt 8 code)
    | 0x6 => ofInt (sxt 4 code)
    | 0xB => scaleV (ofInt (sxt 8 code)) (-6)
    | 0xD => ofInt (sxt 32 code)
    | 0xE => ofInt (code % 256 : Nat)
    | _ => .nan

/-- The value of an E8M0 scale octet, as an exponent; none for the NaN octet 0xFF (R214). -/
def e8m0 (o : Nat) : Option Int := if o % 256 == 255 then none else some ((o % 256 : Int) - 127)

/-- Applies an E8M0 scale to a value (R214). -/
def scaled (o : Nat) (v : FVal) : FVal :=
  match e8m0 o with
  | none => .nan
  | some k => scaleV v k

/-- Narrows a decoded value to an element of format code `fmt` (R220); the code is given in the format's bits. -/
def narrowTo (fmt : Nat) (md : Rnd) (sat : Bool) (v : FVal) : Nat :=
  match floatOf fmt with
  | some f => f.narrow md sat v
  | none =>
    match fmt with
    | 0x5 => toU 8 (narrowInt 8 md v)
    | 0x6 => toU 4 (narrowInt 4 md v)
    | 0xB => toU 8 (narrowInt 8 md (scaleV v 6))
    | 0xD => toU 32 (narrowInt 32 md v)
    | _ => 0

/-- ⌊log2 |v|⌋ of a finite non-zero value. -/
def log2V (v : FVal) : Option Int :=
  match v with
  | .fin _ m e => if m == 0 then none else some ((Nat.log2 m : Int) + e)
  | _ => none

/-- The largest magnitude of a list of values, NaN excluded from the comparison (exact). -/
def maxMag (l : List FVal) : FVal :=
  l.foldl (fun acc v => if acc.lt v.abs then v.abs else acc) (.fin false 0 0)

/-- emax of R216. -/
def mxEmax (fmt : Nat) : Int :=
  match fmt with
  | 0x8 => 8
  | 0x9 => 15
  | 0xA => 2
  | _ => 0

/-- R216: quantizes 32 binary32 codes to an MX block: the scale octet and the 32 element codes. `draw i` is the
stochastic draw of element i where the rounding field is SR. -/
def mxBlock (xs : List Nat) (fmt rnd : Nat) (draw : Nat → Nat) : Nat × List Nat :=
  let vs := xs.map F32.decode
  if vs.any FVal.isNan then (0xFF, xs.map (fun _ => 0))
  else
    let m := maxMag vs
    let e0 : Int :=
      match m with
      | .inf _ => 128 - mxEmax fmt
      | v => match log2V v with
        | none => -127
        | some l => l - mxEmax fmt
    let e : Int := if e0 < -127 then -127 else if e0 > 127 then 127 else e0
    let code (p : FVal × Nat) : Nat :=
      narrowTo fmt (if rnd == 4 then .sr (draw p.2) else rndOf rnd) true (scaleV p.1 (-e))
    ((e + 127).toNat, (vs.zip (List.range vs.length)).map code)

end Sys2Proof.Machine
end

