-- ==== Sys2Proof/Machine/Crypto.lean ====
section
/-!
DEFINITION. SHAKE256 (FIPS 202), CRC-32C and CRC-8 as the manual names them: digests of 15 R515 and R524, of 19 R630,
R634, R640 and R643, CRC-32C of 12 R413 and 18 R608, CRC-8 of 12 R414. The inner workings of SHAKE256 come from the
standard that the manual names (PRESUMED, log 5).
-/

namespace Sys2Proof.Machine

/-- Round constants of Keccak-f[1600]. -/
def keccakRC : List W64 :=
  [0x0000000000000001#64, 0x0000000000008082#64, 0x800000000000808A#64, 0x8000000080008000#64,
   0x000000000000808B#64, 0x0000000080000001#64, 0x8000000080008081#64, 0x8000000000008009#64,
   0x000000000000008A#64, 0x0000000000000088#64, 0x0000000080008009#64, 0x000000008000000A#64,
   0x000000008000808B#64, 0x800000000000008B#64, 0x8000000000008089#64, 0x8000000000008003#64,
   0x8000000000008002#64, 0x8000000000000080#64, 0x000000000000800A#64, 0x800000008000000A#64,
   0x8000000080008081#64, 0x8000000000008080#64, 0x0000000080000001#64, 0x8000000080008008#64]

/-- Rotation offsets, lane x + 5y. -/
def keccakRot : List Nat :=
  [0, 1, 62, 28, 27, 36, 44, 6, 55, 20, 3, 10, 43, 25, 39, 41, 45, 15, 21, 8, 18, 2, 61, 56, 14]

/-- Lane `i` of a Keccak state. -/
def laneAt (s : List W64) (i : Nat) : W64 := s.getD i 0

/-- One round of Keccak-f[1600]. -/
def keccakRound (s : List W64) (rc : W64) : List W64 :=
  let c := (List.range 5).map (fun x =>
    laneAt s x ^^^ laneAt s (x + 5) ^^^ laneAt s (x + 10) ^^^ laneAt s (x + 15) ^^^ laneAt s (x + 20))
  let d := (List.range 5).map (fun x => laneAt c ((x + 4) % 5) ^^^ (laneAt c ((x + 1) % 5)).rotateLeft 1)
  let a := (List.range 25).map (fun i => (laneAt s i ^^^ laneAt d (i % 5)).rotateLeft (keccakRot.getD i 0))
  -- pi: B[y, 2x + 3y] = a[x, y]; here lane (X, Y) of B comes from x = X + 3Y, y = X (mod 5)
  let b := (List.range 25).map (fun i =>
    let x := i % 5
    let y := i / 5
    laneAt a ((x + 3 * y) % 5 + 5 * x))
  let e := (List.range 25).map (fun i =>
    let x := i % 5
    let y := i / 5
    laneAt b i ^^^ (~~~ (laneAt b ((x + 1) % 5 + 5 * y)) &&& laneAt b ((x + 2) % 5 + 5 * y)))
  match e with
  | h :: t => (h ^^^ rc) :: t
  | [] => []

/-- Keccak-f[1600]. -/
def keccakF (s : List W64) : List W64 := keccakRC.foldl keccakRound s

/-- XORs a 136-octet block into the first 17 lanes. -/
def absorbBlock (s : List W64) (blk : List Byte) : List W64 :=
  keccakF ((List.range 25).map (fun i =>
    if i < 17 then laneAt s i ^^^ BitVec.ofNat 64 (octs blk (8 * i) 8) else laneAt s i))

/-- Absorbs whole blocks of 136 octets, `n` of them. -/
def absorbAll : Nat → List Byte → List W64 → List W64
  | 0, _, s => s
  | n + 1, m, s => absorbAll n (m.drop 136) (absorbBlock s (m.take 136))

/-- Squeezes `n` blocks of 136 octets. -/
def squeezeAll : Nat → List W64 → List Byte
  | 0, _ => []
  | n + 1, s => ((List.range 17).flatMap (fun i => leBytes 8 (laneAt s i).toNat)) ++ squeezeAll n (keccakF s)

/-- SHAKE256 of `m`, `n` octets of output. -/
def shake256 (m : List Byte) (n : Nat) : List Byte :=
  let r := m.length % 136
  let pad : List Byte :=
    if r == 135 then [0x9F#8] else 0x1F#8 :: (List.replicate (134 - r) 0 ++ [0x80#8])
  let p := m ++ pad
  (squeezeAll (ceilDiv n 136) (absorbAll (p.length / 136) p (List.replicate 25 0))).take n

/-- One octet into a reflected CRC-32C register. -/
def crc32cByte (c : W32) (b : Byte) : W32 :=
  iter 8 (fun x => if x.getLsbD 0 then (x >>> 1) ^^^ 0x82F63B78#32 else x >>> 1) (c ^^^ b.zeroExtend 32)

/-- CRC-32C: polynomial 0x1EDC_6F41, reflected, initial value and final XOR all ones (R413). -/
def crc32c (l : List Byte) : Nat := (l.foldl crc32cByte 0xFFFFFFFF#32 ^^^ 0xFFFFFFFF#32).toNat

/-- One octet into a CRC-8 register, polynomial 0x07, not reflected. -/
def crc8Byte (c : Byte) (b : Byte) : Byte :=
  iter 8 (fun x => if x.getLsbD 7 then (x <<< 1) ^^^ 0x07#8 else x <<< 1) (c ^^^ b)

/-- CRC-8 over bits 63:8 of a link header, most significant bits first (R414). -/
def crc8Header (h : Nat) : Nat :=
  ((List.range 7).foldl (fun c i => crc8Byte c (BitVec.ofNat 8 (h >>> (56 - 8 * i)))) 0#8).toNat

end Sys2Proof.Machine
end

