-- ==== Sys2Proof/Machine/Rand.lean ====
section
/-!
DEFINITION. The keyed generator (03 R93 to R95) and stochastic rounding on it (06 R222, R223). Every random choice of
the device is a function of its key; nothing here holds state.
-/

namespace Sys2Proof.Machine

/-- `fold` of R93, one mixing round modulo 2^64. -/
def fold64 (x : W64) : W64 :=
  let x := x ^^^ (x >>> 29)
  let x := x * 0x8F1BC34D27A6E5C1#64
  let x := x ^^^ (x >>> 32)
  let x := x * 0xE35D7A09B4C296F7#64
  x ^^^ (x >>> 29)

/-- `fold` on a Nat key. -/
def foldN (x : Nat) : Nat := (fold64 (BitVec.ofNat 64 x)).toNat

/-- `fold` of a key of more than 64 bits: the high word is folded into the low one. How R110's fold takes a key of 80 bits is not stated:
DESIGN CHOICE (log entry 72). -/
def foldKey (x : Nat) : Nat := foldN (x % 2 ^ 64 ^^^ foldN (x / 2 ^ 64))

/-- `dv_rand` of R93. -/
def dvRand (seed domain step a b : Nat) : Nat :=
  let c0 : W64 := 0x6C8E9CF570B21A3D#64
  let x := fold64 (BitVec.ofNat 64 seed ^^^ (BitVec.ofNat 64 (domain % 256) * c0))
  let x := fold64 (x ^^^ BitVec.ofNat 64 step)
  let x := fold64 (x + BitVec.ofNat 64 a)
  (fold64 (x ^^^ BitVec.ofNat 64 b)).toNat

/-- `below` of R93: uniform in 0 to n − 1. -/
def belowN (r n : Nat) : Nat := (r * n) >>> 64

/-- The b argument of a sampler draw (R95): stream 63:48, hop 47:44, walk index 43:36, draw index 35:0. -/
def keyB (stream hop walk draw : Nat) : Nat :=
  (stream % 2 ^ 16) * 2 ^ 48 + (hop % 16) * 2 ^ 44 + (walk % 256) * 2 ^ 36 + draw % 2 ^ 36

/-- The node argument of a draw that belongs to no single node (R95). -/
def noNode : Nat := 0xFFFFFFFFFFFF

/-- A sampler draw, domain 0x01 (R94, R95). -/
def sampleDraw (seed step node stream hop walk draw : Nat) : Nat :=
  dvRand seed 1 step node (keyB stream hop walk draw)

/-- U of R222: bits 63:40 of the domain-0x02 draw. -/
def srDraw (seed step a b : Nat) : Nat := fld (dvRand seed 2 step a b) 63 40

/-- The b argument of a stochastic rounding: the user code in bits 63:60 (R223). -/
def srB (user rest : Nat) : Nat := user * 2 ^ 60 + rest % 2 ^ 60

/-- Key of user 0x1, table rows (R223). -/
def srKeyTable (seed stepKey rowKey tableId elem : Nat) : Nat :=
  srDraw seed stepKey rowKey (srB 1 ((tableId % 2 ^ 16) * 2 ^ 44 + elem % 2 ^ 12))

/-- Key of user 0x2, PARAM and OPTSTATE elements narrower than binary32 (R223). -/
def srKeyParam (seed step va : Nat) : Nat := srDraw seed step va (srB 2 0)

/-- Key of user 0x3, compact-mode write-back (R223, R224). -/
def srKeyCompact (seed step core array tile wbIndex elem : Nat) : Nat :=
  srDraw seed step (core % 2 ^ 13 + (array % 2) * 2 ^ 13 + (tile % 32) * 2 ^ 14)
    (srB 3 ((wbIndex % 2 ^ 32) * 2 ^ 28 + elem % 2 ^ 10))

/-- Key of user 0x4, a vector conversion under SR (R223). -/
def srKeyVec (seed step core key elem : Nat) : Nat :=
  srDraw seed step (core * 2 ^ 32 + key % 2 ^ 32) (srB 4 (elem % 2 ^ 32))

/-- Key of user 0x5, the G8 encode (R218, R223): coordinates at 5 bits per axis, axis 3 highest. -/
def srKeyG8 (seed step bucket coord20 elem : Nat) : Nat :=
  srDraw seed step (bucket * 2 ^ 24 + coord20 % 2 ^ 20) (srB 5 (elem % 2 ^ 32))

/-- The predictor's audit draw (10 R375): bits 63:58 of the domain-0x03 draw are all zero. -/
def auditDraw (seed step layer core array product elem : Nat) : Bool :=
  let a := (layer % 64) * 2 ^ 58 + (core % 2 ^ 13) * 2 ^ 45 + (array % 2) * 2 ^ 44
  let b := (product % 2 ^ 32) * 2 ^ 32 + elem % 2 ^ 10
  fld (dvRand seed 3 step a b) 63 58 == 0

/-- A coordinate in the layout of CSR Coord (08 R275) packed at 5 bits per axis (12 R420). -/
def coord20 (c : Nat) : Nat :=
  fld c 4 0 + fld c 12 8 * 2 ^ 5 + fld c 20 16 * 2 ^ 10 + fld c 28 24 * 2 ^ 15

/-- The inverse of `coord20`. -/
def coordCsr (c : Nat) : Nat :=
  fld c 4 0 + fld c 9 5 * 2 ^ 8 + fld c 14 10 * 2 ^ 16 + fld c 19 15 * 2 ^ 24

/-- R218: the G8 code of a binary32 element at exponent E with its draw: code (signed), saturated, non-finite. -/
def g8Code (x : Nat) (e : Int) (u : Nat) : Int × Bool × Bool :=
  match F32.decode x with
  | .fin n m ex =>
    let (k, r, d) := scaleAt m 1 ex e
    let k' : Nat := if roundUp (.sr u) n (k % 2 == 1) r d then k + 1 else k
    let c : Int := if n then -(k' : Int) else k'
    if c > 127 then (127, true, false) else if c < -127 then (-127, true, false) else (c, false, false)
  | _ => (0, false, true)

end Sys2Proof.Machine
end

