-- ==== Sys2Proof/Machine/Wire.lean ====
section
/-!
DEFINITION. Transactions as bytes, flits, routing, and the transmitting side of a port (12 R413 to R424). The byte
layout of the transactions whose fields the manual only names is the model's (log entry 21).
-/

namespace Sys2Proof.Machine

/-! ### Grant points (11 R398, R399) -/

/-- The dies of the package: compute 0 to 15, memory-side 16 to 23, link 24 to 31 (01 R6). The link die of a torus port, and of a CXL
port (01 R7, R8). -/
def linkDie (port : Nat) : Nat := 24 + port % 8
def cxlDie (port : Nat) : Nat := 25 + 4 * (port % 2)

/-- R399: the grant points: request scheduler of an HBM stack; fabric port of a die, inbound (0) and outbound (1). -/
def stackPoint (stack : Nat) : Nat := stack
def fabricPoint (die dir : Nat) : Nat := 32 + 2 * die + dir

/-- The grant points on the way from a die to another. -/
def crossing (x y : Nat) : List Nat := if x == y then [] else [fabricPoint x 1, fabricPoint y 0]

/-- The grant points that an access of die `x` to HBM stack `s` passes: those of the request, the scheduler, and those of what
answers. -/
def pointsOf (x s : Nat) : List Nat := crossing x (16 + s / 4) ++ stackPoint s :: crossing (16 + s / 4) x

/-- R398: each grant leaves its point's pointer at the port that it served. The manual does not number the ports: a constant of the
implementation. -/
def grantAll (x : Nat) (ps : List Nat) (m : Mem) : Mem :=
  { m with grants := ps.foldl (fun g p => g.put p (Config.inputPort x p)) m.grants }

def grantStack (x s : Nat) (m : Mem) : Mem := grantAll x (pointsOf x s) m

/-- A request of die `x` passes to die `y`; with its answer. -/
def grantCross (x y : Nat) (m : Mem) : Mem := grantAll x (crossing x y) m
def grantRound (x y : Nat) (m : Mem) : Mem := grantAll x (crossing x y ++ crossing y x) m

/-- Octets of a body. -/
def bodyBytes : Body → List Byte
  | .raw b => b
  | .fwd f => [f.kind, f.node, f.seed, f.bound, f.hop, f.method, f.fanout, f.stream, f.rank, f.walk, f.stepIx,
      f.typeStep].flatMap (leBytes 8) ++ leBytes 32 f.typeMask
  | .fwdRes n es => leBytes 8 n ++ es.flatMap (fun e => leBytes 8 e.1 ++ leBytes 8 e.2)
  | .gather k o sk w => leBytes 8 k ++ leBytes 8 o ++ leBytes 8 sk ++ leBytes 8 w
  | .gatherRes row _ _ => row.flatMap (leBytes 4)
  | .scatter _ k row => leBytes 24 k ++ row.flatMap (leBytes 4)
  | .scatterEnd t p sl i => leBytes 8 t ++ leBytes 8 p ++ leBytes 8 sl ++ leBytes 8 i

/-- The Detail of a transaction: of a row's Ash flag and version, or a contribution's target, so that its data fits a Length (R420). -/
def txnDetail (t : Txn) : Nat :=
  match t.body with
  | .gatherRes _ ash ver => (if ash then 1 else 0) + 2 * ver
  | .scatter tid _ _ => tid
  | _ => t.detail

/-- Consecutive groups of `n` octets as numbers. -/
def groupsOf : Nat → Nat → List Byte → List Nat
  | 0, _, _ => []
  | k + 1, n, l => leVal (l.take n) :: groupsOf k n (l.drop n)

/-- Pairs of consecutive numbers. -/
def pairUp : List Nat → List (Nat × Nat)
  | a :: b :: r => (a, b) :: pairUp r
  | _ => []

/-- The body that the Detail and the data of a transaction type spell. -/
def bodyOfBytes (typ detail : Nat) (d : List Byte) : Body :=
  let q (i : Nat) : Nat := octs d (8 * i) 8
  match typ with
  | 0x06 => .fwd {
      kind := q 0, node := q 1, seed := q 2, bound := q 3, hop := q 4, method := q 5, fanout := q 6,
      stream := q 7, rank := q 8, walk := q 9, stepIx := q 10, typeStep := q 11, typeMask := octs d 96 32 }
  | 0x86 => .fwdRes (q 0) (pairUp (groupsOf ((d.length - 8) / 8) 8 (d.drop 8)))
  | 0x03 => .gather (q 0) (q 1) (q 2) (q 3)
  | 0x83 => .gatherRes (groupsOf (d.length / 4) 4 d) (tbit detail 0) (detail / 2)
  | 0x04 => .scatter detail (octs d 0 24) (groupsOf ((d.length - 24) / 4) 4 (d.drop 24))
  | 0x05 => .scatterEnd (q 0) (q 1) (q 2) (q 3)
  | _ => .raw d

/-- R420: header, data, zeros to a multiple of 16 octets. -/
def txnBytes (t : Txn) : List Byte :=
  let d := bodyBytes t.body
  padTo 16 (leBytes 1 t.typ ++ leBytes 1 (if t.err then 1 else 0) ++ leBytes 2 d.length ++ leBytes 3 t.dest ++
    leBytes 3 t.src ++ leBytes 2 t.tag ++ leBytes 2 t.jobTag ++ leBytes 2 t.replay ++ leBytes 8 t.step ++
    leBytes 8 (txnDetail t) ++ d)

/-- The transaction that octets spell. -/
def txnOfBytes (b : List Byte) : Txn :=
  let typ := octs b 0 1
  { typ := typ, err := tbit (octs b 1 1) 0, dest := octs b 4 3, src := octs b 7 3, tag := octs b 10 2,
    jobTag := octs b 12 2, replay := octs b 14 2, step := octs b 16 8, detail := octs b 24 8,
    body := bodyOfBytes typ (octs b 24 8) ((b.drop 32).take (octs b 2 2)) }

/-- The octets a transaction takes, padding included, from its header. -/
def txnSpan (b : List Byte) : Nat := (32 + octs b 2 2 + 15) / 16 * 16

/-- The VC of a transaction type (R422). -/
def vcOf (typ : Nat) : Nat :=
  if typ ≥ 0x80 then 1
  else if typ == 0x07 || typ == 0x08 || typ == 0x09 then 2
  else if typ == 0x0A || typ == 0x0B then 3
  else 0

/-- The codes of R422. -/
def txnKnown (typ : Nat) : Bool :=
  (decide (1 ≤ typ) && decide (typ ≤ 0x0B)) || [0x81, 0x82, 0x83, 0x86].contains typ

/-- Adds to a saturating 64-bit counter. -/
def countN (index sub n : Nat) (m : Mach) : Mach :=
  let k := dkey index sub
  { m with cnt := m.cnt.put k (min (2 ^ 64 - 1) (m.cnt.get k 0 + n)) }

/-- Adds one. -/
def count (index sub : Nat) (m : Mach) : Mach := countN index sub 1 m

/-- Appends to what leaves the device. -/
def emit (o : Out) (m : Mach) : Mach := { m with out := m.out ++ [o] }

/-- The device's own coordinate in the layout of a transaction header, if assigned (R420, `0x5000.02`). -/
def ownCoord? (m : Mach) : Option Nat :=
  let c := dnum m 0x5000 0x02
  if c == 0xFFFFFFFF then none else some (coord20 c)

/-- The same, zero while unassigned. -/
def ownCoord (m : Mach) : Nat := (ownCoord? m).getD 0

/-- The ring size of an axis (`0x5000.03`). -/
def ringSize (m : Mach) (a : Nat) : Nat := (dnum m 0x5000 0x03 >>> (8 * a)) % 256

/-- The coordinate on an axis. -/
def axisOf (c a : Nat) : Nat := (c >>> (5 * a)) % 32

/-- A coordinate with one axis replaced. -/
def withAxis (c a v : Nat) : Nat := c - axisOf c a * 2 ^ (5 * a) + v * 2 ^ (5 * a)

/-- Every field of a coordinate lies within the ring sizes (R427). -/
def routable (m : Mach) (c : Nat) : Bool := [0, 1, 2, 3].all (fun a => decide (axisOf c a < ringSize m a)) && c < 2 ^ 20

/-- R424: the port by which a transaction for `dest` leaves a device at `here`. -/
def routePort (m : Mach) (here dest : Nat) : Option Nat :=
  match [0, 1, 2, 3].find? (fun a => axisOf here a != axisOf dest a) with
  | none => none
  | some a =>
    let n := ringSize m a
    let plus := (axisOf dest a + n - axisOf here a) % n
    some (2 * a + (if plus ≤ n - plus then 0 else 1))

/-- Port p. -/
def portAt (m : Mach) (p : Nat) : Port := m.tor.ports.getD p {}

/-- Replaces port p. -/
def setPort (p : Nat) (x : Port) (m : Mach) : Mach := { m with tor := { m.tor with ports := m.tor.ports.set p x } }

/-- Octets 8 to 255 of a flit with a body (R413). -/
def flitRest (body : List Byte) : List Byte :=
  let b := slice body 0 240 ++ leBytes 2 (min 240 body.length) ++ leBytes 2 0
  b ++ leBytes 4 (crc32c b)

/-- A link header with its CRC (R414). `credits` holds the four credit fields as bits 31:8 place them. -/
def linkHeader (typ vc seq ack ackValid nak credits : Nat) : Nat :=
  let h := typ <<< 60 + vc <<< 58 + seq <<< 46 + ack <<< 34 + ackValid <<< 33 + nak <<< 32 + credits <<< 8
  h + crc8Header h

/-- The credits owed as header bits, and what remains owed. -/
def takeCredits (owed : List Nat) : Nat × List Nat :=
  let t := owed.map (fun x => min x 63)
  (t.getD 0 0 + t.getD 1 0 <<< 6 + t.getD 2 0 <<< 12 + t.getD 3 0 <<< 18, (owed.zip t).map (fun p => p.1 - p.2))

/-- Sends one sequenced flit on a port: NULL (type 0) or TXN (type 1); a Nak that waits goes with it. With 2,048 flits unacknowledged a
NULL flit waits (R415). -/
def sendSeq (p typ vc : Nat) (rest : List Byte) (nak : Nat) (m : Mach) : Mach :=
  let x := portAt m p
  let nk := x.nakDue || nak == 1
  if 2048 ≤ x.retry.length then setPort p { x with nullDue := x.nullDue || typ == 0, nakDue := nk } m
  else
    let (cr, owed) := takeCredits x.owed
    let h := linkHeader typ vc x.txSeq x.rxLast (if x.rxAny then 1 else 0) (if nk then 1 else 0) cr
    count 0x6900 0x01 (emit (.flit p ⟨h, rest⟩)
      (setPort p { x with txSeq := (x.txSeq + 1) % 4096, owed := owed, nullDue := false, nakDue := false,
                          retry := x.retry ++ [⟨x.txSeq, typ * 4 + vc, cr, rest⟩] } m))

/-- The header of a management flit (R414): type 2, no Seq. It is never sent again, so that it carries acknowledgements and no credits:
DEDUCED (log entry 21). -/
def mgmtHeader (x : Port) : Nat := linkHeader 2 0 0 x.rxLast (if x.rxAny then 1 else 0) (if x.nakDue then 1 else 0) 0

/-- Sends a management flit: MgmtType in octets 8 and 9, then the content (R413, R429). -/
def sendMgmt (p typ : Nat) (content : List Byte) (m : Mach) : Mach :=
  let x := portAt m p
  count 0x6900 0x01 (emit (.flit p ⟨mgmtHeader x, flitRest (leBytes 2 typ ++ content)⟩) (setPort p { x with nakDue := false } m))

/-- The flit body that waits first on a VC, and the credits that it needs. -/
def headOf (x : Port) (vc : Nat) : Option (Nat × List Byte) := (x.queue.find? (fun i => i.vc == vc)).bind (fun i => i.bodies.head?)

/-- Whether a flit of a VC may be sent now (R415, R417, R418); transactions travel in ACTIVE only (R428). -/
def vcReady (x : Port) (vc : Nat) : Bool :=
  match headOf x vc with
  | some (need, _) => x.st == 6 && decide (need ≤ x.credits.getD vc 0) && decide (x.retry.length < 2048)
  | none => false

/-- Removes the first flit body of a VC from a queue. -/
def dropVc (vc : Nat) : List QItem → List QItem
  | [] => []
  | i :: r =>
    if i.vc != vc then i :: dropVc vc r
    else if i.bodies.length ≤ 1 then r else { i with bodies := i.bodies.drop 1 } :: r

/-- The VC that R419 serves next. -/
def nextVc (x : Port) : Option Nat :=
  let order := if x.vcPtr == 0 then [3, 1, 0, 2] else [3, 1, 2, 0]
  order.find? (vcReady x)

/-- Flits leave a VC's buffer of a receiving port: their credits are owed to its partner, and a NULL flit takes them (R417, R419). -/
def freeBuffer (p vc n : Nat) (m : Mach) : Mach :=
  if 8 ≤ p || n == 0 then m
  else
    let x := portAt m p
    let m1 := setPort p { x with owed := x.owed.set vc (x.owed.getD vc 0 + n) } m
    if x.st == 6 then sendSeq p 0 0 (flitRest []) 0 m1 else m1

/-- Removes items from a transmitter's queue without sending them: their buffers are free again (R417). -/
def freeItems (q : List QItem) (m : Mach) : Mach := q.foldl (fun m i => freeBuffer i.src i.vc i.bodies.length m) m

/-- Sends waiting flits while credits and the retry buffer allow, each next one by R419. -/
def pumpPort : Nat → Nat → Mach → Mach
  | 0, _, m => m
  | n + 1, p, m =>
    let x := portAt m p
    match nextVc x with
    | none => if x.nullDue && decide (x.retry.length < 2048) then sendSeq p 0 0 (flitRest []) 0 m else m
    | some vc =>
      match x.queue.find? (fun i => i.vc == vc), headOf x vc with
      | some i, some (_, f) =>
        let x' := { x with queue := dropVc vc x.queue, credits := x.credits.set vc (x.credits.getD vc 0 - 1),
                           vcPtr := if vc == 0 then 2 else if vc == 2 then 0 else x.vcPtr }
        pumpPort n p (freeBuffer i.src vc 1 (sendSeq p 1 vc f 0 (setPort p x' m)))
      | _, _ => m

/-- Sends what a port's queue allows. -/
def pump (p : Nat) (m : Mach) : Mach := pumpPort (((portAt m p).queue.map (fun i => i.bodies.length)).sum + 1) p m

/-- Puts the flit bodies of whole transactions on a port's queue. -/
def enqueue (p : Nat) (i : QItem) (m : Mach) : Mach :=
  let x := portAt m p
  let blocked := decide (x.credits.getD i.vc 0 < (i.bodies.head?.map Prod.fst).getD 0) || x.queue.any (fun j => j.vc == i.vc)
  let m1 := if blocked then countN 0x6900 0x0A i.bodies.length m else m
  pump p (setPort p { x with queue := x.queue ++ [i] } m1)

/-- A received transaction whose unit has no entry waits (R121, R136). -/
def holdTxn (h : HeldTxn) (m : Mach) : Mach := { m with tor := { m.tor with held := m.tor.held ++ [h] } }

/-- Octets cut into flit bodies. -/
def cutBodies : Nat → List Byte → List (List Byte)
  | 0, _ => []
  | n + 1, b => if b.isEmpty then [] else flitRest (b.take 240) :: cutBodies n (b.drop 240)

/-- Hands a transaction to the torus: it leaves by the port of R424 when that port is in ACTIVE, and is lost
otherwise (R424: never rerouted). -/
def putTxn (t : Txn) (m : Mach) : Mach :=
  let m1 := emit (.txn t) m
  match routePort m (ownCoord m) t.dest with
  | none => m1
  | some p =>
    if (portAt m p).st == 6 then
      let b := txnBytes t
      let fs := cutBodies (b.length / 240 + 1) b
      enqueue p { vc := vcOf t.typ, bodies := (fs.zip (List.range fs.length)).map (fun x => (if x.2 == 0 then fs.length + 69 else 1, x.1)) } m1
    else m1

end Sys2Proof.Machine
end

