-- ==== Sys2Proof/Machine/Ops.lean ====
section
/-!
DEFINITION. Operations that every chapter shares: time, notifications and faults (18 R602 to R605), device states
(R43, R627), contexts, the step group, step control messages, aborts, program faults and the failure path (R22, R23,
R56, R499, R500, R520 to R522).
-/

namespace Sys2Proof.Machine

/-- The time base in nanoseconds (R554). -/
def nowNs (m : Mach) : Nat := m.dev.time10 / 10

/-- Moves the time base to at least a time in units of 0.1 ns. -/
def timeTo (t10 : Nat) (m : Mach) : Mach := { m with dev := { m.dev with time10 := max m.dev.time10 t10 } }

/-- A value that the manual leaves open, fresh each time. -/
def freshFree (m : Mach) : Nat × Mach := ((Config.freeValue (2 ^ 80 + m.freeCtr)).toNat, { m with freeCtr := m.freeCtr + 1 })

/-- Octets that the manual leaves undefined, fresh each time. -/
def freshOctets (n : Nat) (m : Mach) : List Byte × Mach :=
  ((List.range n).map (fun k => Config.freeByte (m.freeCtr + k)), { m with freeCtr := m.freeCtr + n })

/-- Lets the time base advance. -/
def timeBy (t10 : Nat) (m : Mach) : Mach := { m with dev := { m.dev with time10 := m.dev.time10 + t10 } }

/-! ### Straps, management sending -/

def nodeId (m : Mach) : Nat := fld m.dev.strap 5 0
def boardSlot (m : Mach) : Nat := fld m.dev.strap 11 8
def mgmtEn (m : Mach) : Bool := tbit m.dev.strap 12

/-- The MAC address as a number whose lowest octet comes first in the frame (R586). -/
def macAddr (m : Mach) : Nat :=
  leVal [0x02#8, 0x44#8, 0x56#8, 0x00#8, BitVec.ofNat 8 (boardSlot m), BitVec.ofNat 8 (nodeId m)]

/-- The management transceiver is driven (R587, R588, R661). -/
def mgmtDriven (m : Mach) : Bool :=
  mgmtEn m && (match m.dev.st with | .off => false | .reset => false | .selftest => m.dev.oclk | _ => true)

/-- The octets of a management payload (R589). -/
def mgmtPayload (op seq index sub flags off len : Nat) (data : List Byte) : List Byte :=
  leBytes 1 1 ++ leBytes 1 op ++ leBytes 2 seq ++ leBytes 2 index ++ leBytes 1 sub ++ leBytes 1 flags ++
    leBytes 4 off ++ leBytes 2 len ++ leBytes 2 0 ++ data

/-- Sends a management frame, or queues nothing while the transceiver is high-impedance. -/
def sendFrame (dst : Nat) (payload : List Byte) (m : Mach) : Mach :=
  if mgmtDriven m then
    count 0x6E00 0x02 (emit (.frame dst payload) { m with mgmt := { m.mgmt with txQueue := [(dst, payload)] } })
  else m

/-! ### Contexts -/

def ctxAt (m : Mach) (i : Nat) : Ctx := m.ctxs.getD i {}
def setCtx (i : Nat) (c : Ctx) (m : Mach) : Mach := { m with ctxs := m.ctxs.set i c }
def modCtx (i : Nat) (f : Ctx → Ctx) (m : Mach) : Mach := setCtx i (f (ctxAt m i)) m
def modPass (i : Nat) (f : Pass → Pass) (m : Mach) : Mach := modCtx i (fun c => { c with pass := f c.pass }) m
def modGey (i : Nat) (f : Geyser → Geyser) (m : Mach) : Mach := modCtx i (fun c => { c with gey := f c.gey }) m
def loaded (c : Ctx) : Bool := c.st != .free

/-- The hardware context that holds a JobTag, if any (R425). -/
def ctxOfTag (m : Mach) (tag : Nat) : Option Nat :=
  if tag == 0 then none
  else (List.range 16).find? (fun i => loaded (ctxAt m i) && (ctxAt m i).jobTag == tag)

/-! ### Notifications (R602 to R605) -/

/-- R602: the record of a code. -/
def recordBytes (seq code ctx flags repeats ns step : Nat) : List Byte :=
  leBytes 4 seq ++ leBytes 2 code ++ leBytes 1 ctx ++ leBytes 1 flags ++ leBytes 2 repeats ++ leBytes 6 0 ++
    leBytes 8 ns ++ leBytes 8 step

/-- The states whose notifications are formed and sent (R588). -/
def notifies (s : DevState) : Bool :=
  match s with
  | .config | .ready | .run | .quench | .halt | .fault => true
  | _ => false

/-- Sends a record to every subscriber whose mask holds its class (R604, R605). -/
def sendRecord (rb : List Byte) (seq cls : Nat) (m : Mach) : Mach :=
  m.mgmt.subs.list.foldl (fun m s =>
    if tbit s.2 cls then
      (if s.1 == 0 then
        (List.range 2).foldl (fun m p => if (m.cxl.ports.getD p {}).l0 then emit (.msix p 1) m else m) m
      else sendFrame s.1 (mgmtPayload 0x05 (seq % 65536) 0x1100 0x0F 0x01 0 64 (withCpl rb)) m)
    else m) m

/-- Forms a record: keeps it in the history and sends it. -/
def formRecord (code ctx flags : Nat) (m : Mach) : Mach :=
  let seq := m.mgmt.seq + 1
  let rep := (m.mgmt.lastRaise.get code (0, 0)).2
  let step := if ctx < 16 then (ctxAt m ctx).step else 0
  let rb := recordBytes seq code ctx flags (min rep 65535) (nowNs m) step
  let h := m.mgmt.history ++ [rb]
  let m1 := { m with mgmt := { m.mgmt with
    seq := seq, history := h.drop (h.length - 64), lastRaise := m.mgmt.lastRaise.put code (m.dev.time10, 0) } }
  sendRecord rb seq (code / 256) (count 0x6E00 0x09 m1)

/-- R602: raises a code. Within 10 ms of the code's last record it is folded into the next one. -/
def notifyCode (code ctx flags : Nat) (m : Mach) : Mach :=
  if !notifies m.dev.st then m
  else
    match m.mgmt.lastRaise.find code with
    | some (t, rep) =>
      if m.dev.time10 < t + 100000000 then
        count 0x6E00 0x0A { m with mgmt := { m.mgmt with lastRaise := m.mgmt.lastRaise.put code (t, rep + 1) } }
      else formRecord code ctx flags m
    | none => formRecord code ctx flags m

/-- Raises a code of the device itself. -/
def raiseDev (code : Nat) (m : Mach) : Mach := notifyCode code 0xFF 0 m

/-- Enters a device state; a change forms a record of class 0x00 (R602). -/
def setDevState (s : DevState) (m : Mach) : Mach :=
  if m.dev.st == s then m
  else
    let m1 := { m with dev := { m.dev with st := s } }
    if notifies s then
      formRecord s.code 0xFF 0 { m1 with mgmt := { m1.mgmt with lastRaise := m1.mgmt.lastRaise.del s.code } }
    else m1

/-! ### The step group (R485, R495) -/

/-- The coordinates of the step group of a context: every value of every assigned axis (R485). -/
def groupOf (m : Mach) (c : Ctx) : List Nat :=
  c.axes.foldl (fun acc a =>
    if a > 3 then acc
    else acc.flatMap (fun x => (List.range (max 1 (ringSize m a))).map (withAxis x a))) [ownCoord m]

/-- The other devices of the group. -/
def othersOf (m : Mach) (c : Ctx) : List Nat := (groupOf m c).filter (· != ownCoord m)

/-- The axis of a cut: 0 data, 1 tensor, 2 pipeline, 3 graph. -/
def cutAxis (c : Ctx) (k : Nat) : Option Nat :=
  let a := c.axes.getD k 255
  if a ≤ 3 then some a else none

/-- Ring size and rank on a cut's axis; 1 and 0 without the cut (R450, R487). -/
def cutSize (m : Mach) (c : Ctx) (k : Nat) : Nat := match cutAxis c k with | some a => max 1 (ringSize m a) | none => 1
def cutRank (m : Mach) (c : Ctx) (k : Nat) : Nat := match cutAxis c k with | some a => axisOf (ownCoord m) a | none => 0
/-- The coordinate of the device of a rank on a cut's axis. -/
def cutPeer (m : Mach) (c : Ctx) (k r : Nat) : Nat := match cutAxis c k with | some a => withAxis (ownCoord m) a r | none => ownCoord m

/-- A transaction of a context to a destination. -/
def mkTxn (m : Mach) (c : Ctx) (typ dest detail : Nat) (body : Body) : Txn :=
  { typ := typ, dest := dest, src := ownCoord m, jobTag := c.jobTag, replay := c.replay % 65536, step := c.step,
    detail := detail, body := body }

/-- A fresh 16-bit transaction tag (R420). -/
def freshTag (m : Mach) : Nat × Mach :=
  (m.tor.nextTag, { m with tor := { m.tor with nextTag := (m.tor.nextTag + 1) % 65536 } })

/-- R495: sends a step-control message to every other device of the group. -/
def sendCtrl (kind causes : Nat) (data : List Byte) (i : Nat) (m : Mach) : Mach :=
  let c := ctxAt m i
  (othersOf m c).foldl (fun m d =>
    putTxn (mkTxn m c 0x0A d (kind * 2 ^ 60 + causes * 2 ^ 52) (.raw data)) m) m

/-! ### HALT, the failure path, program faults -/

/-- R627, R484: the device leaves RUN or QUENCH for HALT, and RUN for QUENCH after a device-wide hold. -/
def deviceAuto (m : Mach) : Mach :=
  let l := m.ctxs.list.filter loaded
  if m.dev.st == .run || m.dev.st == .quench then
    if l.any (fun c => c.st == .halt) && !l.any (fun c => c.st == .run) then setDevState .halt m
    else if m.dev.st == .run && m.dev.holdAll && !l.isEmpty && l.all (fun c => c.st == .held || c.st == .idle) then
      setDevState .quench m
    else m
  else m

/-- R507: a wait at a begin barrier ends, as the pass begins, is aborted, or fails: its nanoseconds are counted. -/
def waitEnds (i : Nat) (m : Mach) : Mach :=
  let p := (ctxAt m i).pass
  if p.sentBegin && !p.running && !p.aborted then countN 0x6B00 0x07 ((m.dev.time10 - p.waitSince) / 10) m else m

/-- Puts a context into HALT and sends HALT to its group (R500). The device's own change of state (R627) comes after what
the caller does. -/
def haltCtx (i : Nat) (m : Mach) : Mach :=
  if (ctxAt m i).st == .halt || (ctxAt m i).st == .free then m
  else
    let m1 := modCtx i (fun c => { c with st := .halt, pass := { c.pass with running := false, sentBegin := false } }) (waitEnds i m)
    sendCtrl 0x4 0 [] i m1

/-- R522: the failure record. -/
def failureBytes (m : Mach) (i code cause port va : Nat) : List Byte :=
  let c := ctxAt m i
  leBytes 2 code ++ leBytes 1 cause ++ leBytes 1 i ++ leBytes 4 (dnum m 0x5000 0x02) ++ leBytes 8 c.step ++
    leBytes 4 c.replay ++ leBytes 1 port ++ leBytes 3 0 ++ leBytes 8 c.lastCommitted ++ leBytes 8 va ++
    List.replicate 24 0

/-- Adds one to a value of RecoveryStats (R532). -/
def recStat (k : Nat) (m : Mach) : Mach :=
  { m with recStats := m.recStats.set k (min (2 ^ 64 - 1) (m.recStats.getD k 0 + 1)) }

/-- R521: the failure path. Causes of R522; port 255 where there is none. -/
def failCtx (i code cause port va flags : Nat) (m : Mach) : Mach :=
  if (ctxAt m i).st == .halt || (ctxAt m i).st == .free then m
  else
    let rb := failureBytes m i code cause port va
    deviceAuto (notifyCode code i flags (recStat 4 (modCtx i (fun c => { c with failure := rb }) (haltCtx i m))))

/-- R56: a program fault of a context. -/
def progFault (code i : Nat) (m : Mach) : Mach := failCtx i code 0x09 255 0 1 m

/-- The context's detected errors now are after commit (R23, R33). -/
def afterCommit (c : Ctx) : Bool := c.pass.sentReady

/-- The context's step number and complement agree (R503). -/
def stepPairOk (c : Ctx) : Bool := pairOk 64 c.step c.stepC

/-- R503, R512: a use of a step number that fails its complement takes the failure path. -/
def stepFault (i : Nat) (m : Mach) : Mach := failCtx i 0x0B07 0x03 255 0 (if afterCommit (ctxAt m i) then 2 else 0) m

/-- R503: what uses a context's step number checks it. -/
def stepUsed (i : Nat) (f : Mach → Mach) (m : Mach) : Mach := if stepPairOk (ctxAt m i) then f m else stepFault i m

/-- R425: a received transaction that matches the tag of no loaded context is discarded and counted. No port is lit in
OFF, RESET, SELFTEST and FAULT (R428), so nothing is received there. It is compared with the context's step
number (R503), but in HALT, where only READs are served (R516). -/
def tagged (t : Txn) (f : Mach → Mach) (m : Mach) : Mach :=
  match m.dev.st with
  | .off | .reset | .selftest | .fault => m
  | _ => match ctxOfTag m t.jobTag with
    | none => countN 0x6900 0x0C 1 m
    | some i => if (ctxAt m i).st == .halt then f m else stepUsed i f m

/-- Sends a transaction. One whose destination lies outside the ring sizes is not sent: a program fault of the context that its JobTag
names, at its source (R427). -/
def sendTxn (t : Txn) (m : Mach) : Mach :=
  if routable m t.dest then match ctxOfTag m t.jobTag with
    | some i => if (ctxAt m i).st == .halt then putTxn t m else stepUsed i (putTxn t) m
    | none => putTxn t m
  else match ctxOfTag m t.jobTag with
    | some i => if (ctxAt m i).st == .halt then notifyCode 0x0908 i 1 m else progFault 0x0908 i m
    | none => raiseDev 0x0908 m

/-- A unit of die `x` sends a transaction: it crosses to the link die of the port by which it leaves (11 R399). -/
def sendFrom (x : Nat) (t : Txn) (m : Mach) : Mach :=
  sendTxn t (match routePort m (ownCoord m) t.dest with
    | some p => { m with mem := grantCross x (linkDie p) m.mem }
    | none => m)

/-- R499: a device that has not sent READY sends ABORT to the group on a cause of its own: one ABORT for each cause in a pass (log entry
98), whether or not the pass is aborted already. -/
def sendAbort (i cause : Nat) (m : Mach) : Mach :=
  let c := ctxAt m i
  if c.pass.sentCauses &&& cause == cause then m
  else countN 0x6B00 0x04 (othersOf m c).length (sendCtrl 0x3 cause [] i (modPass i (fun p => { p with sentCauses := p.sentCauses ||| cause }) m))

/-- R499, R500: the device acts on the first ABORT of a pass and only collects the causes of later ones. A device that
has sent READY sends no ABORT (R22), and a committed step stays committed (R25). `own` ABORTs are sent to the group. -/
def abortPass (i cause : Nat) (own : Bool) (m : Mach) : Mach :=
  let c := ctxAt m i
  if c.st != .run || c.pass.committed || (own && c.pass.sentReady) then m
  else
    let lets := cause &&& 0b00111 == 0 && c.pass.running && !c.pass.xDone
    let m1 := modPass i (fun p => if p.aborted then { p with causes := (p.causes ||| cause) }
      else { p with aborted := true, causes := (p.causes ||| cause), waitX := lets, discarding := !lets }) (waitEnds i m)
    if own then sendAbort i cause m1 else m1

/-- What an error does to a context: before commit it aborts the pass with cause ERROR, after commit the step goes on and
the descriptors that fail their complements are rewritten before the next BEGIN (R23, R499, R512). -/
def ctxClassed (code i : Nat) (m : Mach) : Mach :=
  let c := ctxAt m i
  if c.st == .run && !afterCommit c then
    abortPass i 1 true (modPass i (fun p => { p with errCode := code, pendingErr := true }) m)
  else modCtx i (fun c => { c with mendDue := true }) m

/-- An error detected in a context: it is reported, and acts on the context. -/
def ctxError (code i : Nat) (m : Mach) : Mach :=
  ctxClassed code i (notifyCode code i (if afterCommit (ctxAt m i) then 2 else 0) m)

/-- R512: an error in data of the step for which no code is listed: replay before commit, nothing after it. -/
def dataParity (i : Nat) (m : Mach) : Mach :=
  if (ctxAt m i).st == .run && !afterCommit (ctxAt m i) then
    abortPass i 1 true (modPass i (fun p => { p with errCode := 0, pendingErr := true }) m)
  else m

/-- An error of the device that each context in RUN classes (R580). -/
def allRunning (f : Nat → Mach → Mach) (m : Mach) : Mach :=
  (List.range 16).foldl (fun m i => if (ctxAt m i).st == .run then f i m else m) m

/-- Whether a transaction belongs to the context's current pass. -/
def sameTag (c : Ctx) (t : Txn) : Bool := t.step == c.step && t.replay == c.replay % 65536

/-! ### Device faults (R627, R628) -/

/-- R567: the counts of a cancelled ring return to zero and Enable clears; its bases, sizes and interrupt enable stay. -/
def ringCleared (r : CmdRing) : CmdRing :=
  { r with enable := false, produced := 0, consumed := 0, cplProduced := 0, cplConsumed := 0, owed := [], current := none, epoch := r.epoch + 1 }

/-- The time parent of R434. -/
def parentPort (m : Mach) : Option Nat :=
  match ownCoord? m with
  | none => none
  | some c =>
    match [0, 1, 2, 3].find? (fun a => axisOf c a != 0) with
    | none => none
    | some a => some (2 * a + (if 2 * axisOf c a ≤ ringSize m a then 1 else 0))

/-- R438: the parent port left ACTIVE. -/
def loseTime (p : Nat) (m : Mach) : Mach :=
  if parentPort m == some p then
    raiseDev 0x0907 { m with tor := { m.tor with locked := false, lockCount := 0, stepped := false } }
  else m

/-- Every port goes dark, every CXL port leaves L0 and every ring is cancelled, as in FAULT (R438, R628, R661, R567, R575). -/
def darkAll (m0 : Mach) : Mach :=
  let mt := match parentPort m0 with
    | some p => if (portAt m0 p).st == 6 then loseTime p m0 else m0
    | none => m0
  let m := countN 0x6D00 0x05 (m0.cxl.ports.list.filter CxlPort.l0).length mt
  { m with tor := { m.tor with ports := m.tor.ports.map (fun p => { p with st := 0 }) },
           cxl := { m.cxl with
             rings := m.cxl.rings.map ringCleared
             ports := m.cxl.ports.map (fun p => { p with l0 := false, training := false }) } }

/-- R627: fills FaultReport, then enters FAULT; in FAULT the code is raised and the report stays. What the report's detail holds is not stated: a free value. -/
def devFault (code die : Nat) (m0 : Mach) : Mach :=
  if m0.dev.st == .off || m0.dev.st == .reset then m0
  else if m0.dev.st == .fault then raiseDev code m0
  else
    let (detail, m) := freshFree m0
    let rep := leBytes 2 code ++ leBytes 1 m.dev.st.code ++ leBytes 1 die ++ leBytes 4 detail ++
      leBytes 8 (nowNs m) ++ List.replicate 16 0
    let m1 := { m with dev := { m.dev with faultReport := rep },
                       ctxs := m.ctxs.map (fun c => { c with pass := { c.pass with running := false, sentBegin := false } }) }
    setDevState .fault (darkAll (raiseDev code m1))

end Sys2Proof.Machine
end

