-- ==== Sys2Proof/Machine/Operands.lean ====
section
/-!
DEFINITION. The operand forms of a core's bundle (08 R276 to R281, R297 to R302): slot words and their fields, and
which words hold a reserved opcode, a reserved value or a bit that must be zero (R279, R280).
-/

namespace Sys2Proof.Machine

/-- R276: the slot words of a bundle: 0 S, 1 M, 2 V, 3 T. -/
def slotWord (bundle slot : Nat) : Nat :=
  match slot with
  | 0 => fld bundle 127 96
  | 1 => fld bundle 95 64
  | 2 => fld bundle 63 32
  | _ => fld bundle 31 0

/-- R277: the opcode and the operand bits. -/
def swOp (w : Nat) : Nat := fld w 27 22
def swPred (w : Nat) : Nat := fld w 30 28
def swNeg (w : Nat) : Bool := tbit w 31

/-- R281: fields of the S formats. -/
def fRd (w : Nat) : Nat := fld w 21 17
def fRs1 (w : Nat) : Nat := fld w 16 12
def fRs2 (w : Nat) : Nat := fld w 11 7
def fImm12 (w : Nat) : Nat := fld w 11 0
def fImm16 (w : Nat) : Nat := fld w 15 0

/-- R282, R281: an S-slot word has a listed opcode and no reserved value. -/
def sLegal (w : Nat) : Bool :=
  let op := swOp w
  if op == 0 then true
  else if op ≤ 0x0B then fld w 6 0 == 0
  else if op == 0x10 || op == 0x11 || op == 0x12 || op == 0x13 then true
  else if op == 0x14 || op == 0x15 then fld w 11 5 == 0
  else if op == 0x16 || op == 0x17 then fld w 16 16 == 0
  else if op == 0x18 then fld w 8 5 == 0 && decide (fld w 4 2 ≤ 5)
  else if op == 0x19 then decide (fld w 4 2 ≤ 5)
  else if op == 0x1A then fld w 12 2 == 0
  else if op == 0x1B then fld w 16 16 == 0 && decide (fImm16 w ≤ 0x0A)
  else if op == 0x20 || op == 0x21 then true
  else if op == 0x22 || op == 0x23 then !tbit w 21
  else if op == 0x24 || op == 0x25 then true
  else if op == 0x26 then fld w 6 0 == 0 && !tbit w 21
  else if op == 0x27 then fld w 6 0 == 0
  else if op == 0x32 then fld w 2 0 == 0 && fld w 21 11 == 0
  else if 0x30 ≤ op && op ≤ 0x37 then fld w 2 0 == 0
  else false

/-- The weight formats of `mm.wld` (R241). -/
def wldFmt (f : Nat) : Bool := (decide (1 ≤ f) && decide (f ≤ 0xB)) || f == 0xE

/-- R297, R241, R246, R353, R357, R371, R374: an M-slot word has a listed opcode and no reserved value. -/
def mLegal (w : Nat) : Bool :=
  let op := swOp w
  let k := fld w 15 11
  let lay := fld w 10 9
  if op == 0 then true
  else if op == 0x01 then
    fld w 8 3 == 0 && wldFmt (fld w 19 16) && decide (1 ≤ k) && decide (k ≤ 16) &&
      (lay != 2 || decide (k ≤ 4)) && (lay != 3 || decide (k ≤ 8))
  else if op == 0x02 || op == 0x03 || op == 0x11 || op == 0x12 || op == 0x14 then
    decide (fld w 7 3 + fld w 13 8 ≤ 32)
  else if op == 0x04 then fld w 14 0 == 0
  else if op == 0x08 || op == 0x09 then decide (fld w 9 8 ≤ 2) && decide (fld w 14 10 + fld w 9 8 ≤ 32)
  else if op == 0x0C || op == 0x0D then fld w 4 0 == 0 && (tbit w 15 || decide (fld w 20 16 ≤ 15))
  else if op == 0x10 then fld w 19 3 == 0
  else if op == 0x13 then fld w 21 3 == 0
  else false

/-- R301, R302, R329, R331, R333, R336, R345: a V-slot word has a listed opcode and no reserved value. -/
def vLegal (w : Nat) : Bool :=
  let op := swOp w
  let ty := fld w 9 6
  let okTy := ty == 0 || ty == 2
  let rnd := fld w 5 3
  if op == 0 then true
  else if 0x01 ≤ op && op ≤ 0x06 then okTy && decide (rnd ≤ 3) && fld w 1 0 == 0
  else if op == 0x07 || op == 0x08 then okTy && decide (rnd ≤ 3)
  else if op == 0x09 then okTy && decide (fld w 1 0 ≤ 2)
  else if op == 0x0A then okTy && rnd == 0
  else if op == 0x10 || op == 0x11 then true
  else if op == 0x12 || op == 0x13 then
    let t := fld w 10 7
    fld w 6 0 == 0 && (decide (t ≤ 5) || t == 0xD || t == 0xE)
  else if op == 0x18 then
    let t := fld w 13 10
    fld w 9 0 == 0 && (t == 0 || t == 2 || t == 0xD)
  else if op == 0x19 then
    let t := fld w 13 10
    fld w 6 0 == 0 && (t == 0 || t == 2 || t == 0xD) && decide (fld w 9 7 ≤ 3)
  else if op == 0x1A then fld w 3 0 == 0 && fld w 10 7 == 0 && decide (fld w 6 4 ≤ 3)
  else if op == 0x20 then
    let d := fld w 15 12
    fld w 2 0 == 0 && decide (fld w 11 9 ≤ 4) && (decide (d ≤ 7) || d == 0xD || d == 0xE)
  else if op == 0x21 then
    let d := fld w 15 12
    fld w 2 0 == 0 && decide (fld w 11 9 ≤ 4) && decide (8 ≤ d) && decide (d ≤ 0xC) &&
      (d != 0xC || fld w 11 9 == 4)
  else if op == 0x30 then decide (fld w 14 13 ≤ 2) && decide (fld w 8 6 ≤ 4) && decide (fld w 12 9 < 0xE) &&
    (tbit w 15 || decide (fld w 20 16 ≤ 15)) && (fld w 12 9 != 0xC || fld w 8 6 == 4)
  else if op == 0x31 then fld w 13 0 == 0
  else false

/-- R302: a T-slot word has a listed opcode and no reserved value. -/
def tLegal (w : Nat) : Bool :=
  let op := swOp w
  if op == 0 then true
  else if op == 0x01 || op == 0x03 then fld w 16 0 == 0
  else if op == 0x02 then fld w 8 0 == 0 && decide (fld w 12 9 ≤ 13)
  else if op == 0x04 then fld w 2 0 == 0
  else if op == 0x08 || op == 0x0A then fld w 14 0 == 0
  else if op == 0x09 || op == 0x0B then fld w 18 0 == 0
  else false

/-- A slot word is legal by itself. -/
def slotLegal (slot w : Nat) : Bool :=
  match slot with
  | 0 => sLegal w
  | 1 => mLegal w
  | 2 => vLegal w
  | _ => tLegal w

/-- The registers that a slot word writes, as (file, number): 0 scalar, 1 address, 2 predicate, 3 lane. -/
def slotWrites (slot w : Nat) : List (Nat × Nat) :=
  let op := swOp w
  match slot with
  | 0 =>
    if (1 ≤ op && op ≤ 0x17) || op == 0x1B || op == 0x20 || op == 0x27 then [(0, fRd w)]
    else if op == 0x18 || op == 0x19 || op == 0x1A then [(2, fld w 21 19)]
    else if op == 0x22 || op == 0x26 then [(1, fRd w % 16)]
    else if op == 0x24 || op == 0x25 then [(1, fld w 21 18)]
    else if op == 0x31 then [(0, fld w 10 6)]
    else []
  | 2 =>
    if (1 ≤ op && op ≤ 0x0A) || op == 0x10 || op == 0x12 || op == 0x18 || op == 0x1A || op == 0x20 then [(3, fld w 21 19)]
    else if op == 0x21 then [(3, fld w 21 19), (0, (fld w 7 3 + 1) % 32)]
    else if op == 0x19 then [(0, fld w 18 14)]
    else []
  | 3 => if op == 0x08 || op == 0x0A then [(1, fld w 18 15)] else []
  | _ => []

/-- The registers that a slot word reads when its guard is true, as (file, number) (R270, R281, R297, R301, R302). -/
def slotReads (slot w : Nat) : List (Nat × Nat) :=
  let op := swOp w
  let group (b n : Nat) : List (Nat × Nat) := (rangeFrom (4 * b) n).map (fun r => (0, r))
  let rs1 := (0, fRs1 w)
  let rs2 := (0, fRs2 w)
  match slot with
  | 0 =>
    if (1 ≤ op && op ≤ 0x0B) || op == 0x26 then [rs1, rs2]
    else if (0x10 ≤ op && op ≤ 0x15) || op == 0x20 || op == 0x22 then [rs1]
    else if op == 0x17 then [(0, fRd w)]
    else if op == 0x18 then [(0, fld w 18 14), (0, fld w 13 9)]
    else if op == 0x19 then [(0, fld w 18 14)]
    else if op == 0x1A then [(2, fld w 18 16), (2, fld w 15 13)]
    else if op == 0x21 then [rs1, (0, fRd w)]
    else if op == 0x23 then [rs1, (1, fRd w % 16)]
    else if op == 0x24 then [(1, fld w 17 14), (0, fld w 13 9)]
    else if op == 0x25 then [(1, fld w 17 14)]
    else if op == 0x27 then [(1, fRs1 w % 16)]
    else if op == 0x32 || op == 0x33 then [(0, fld w 10 6)]
    else []
  | 1 =>
    if op == 0x01 || op == 0x02 || op == 0x03 || op == 0x11 || op == 0x12 then group (fld w 2 0) 3
    else if op == 0x13 || op == 0x14 then group (fld w 2 0) 4
    else if op == 0x10 then group (fld w 2 0) 1
    else if op == 0x04 then [(0, fld w 19 15)]
    else if op == 0x08 || op == 0x09 then group (fld w 5 3) 4 ++ group (fld w 2 0) 3
    else if op == 0x0C || op == 0x0D then [(0, fld w 9 5)]
    else []
  | 2 =>
    let vd := (3, fld w 21 19)
    let va := (3, fld w 18 16)
    let vb := (3, fld w 15 13)
    let vc := (3, fld w 12 10)
    if op == 0x04 || op == 0x08 then [va, vb, vc]
    else if 1 ≤ op && op ≤ 0x07 then [va, vb]
    else if op == 0x09 || op == 0x0A then [va]
    else if op == 0x10 || op == 0x18 || op == 0x31 then [(0, fld w 18 14)]
    else if op == 0x11 then [(0, fld w 18 14), vd]
    else if op == 0x12 then [va, (0, fld w 15 11)]
    else if op == 0x13 || op == 0x1A then [vd, va, (0, fld w 15 11)]
    else if op == 0x19 then [vd]
    else if op == 0x20 then [va, (0, fld w 7 3)]
    else if op == 0x21 then [va, (0, fld w 7 3), (0, (fld w 7 3 + 1) % 32)]
    else if op == 0x30 then group (fld w 2 0) 4
    else []
  | _ =>
    if op == 0x01 || op == 0x03 then [(0, fld w 21 17)]
    else if op == 0x02 then (0, fld w 17 13) :: (rangeFrom (fld w 12 9) 3).map (fun r => (1, r))
    else if op == 0x04 then [(0, fld w 19 15), (1, fld w 14 11), (0, fld w 10 6)]
    else []

/-- R279: two slots of the bundle write the same register. -/
def writesClash (bundle : Nat) : Bool :=
  let l := [0, 1, 2, 3].flatMap (fun s => dedupKeep (slotWrites s (slotWord bundle s)))
  (dedupKeep l).length != l.length

end Sys2Proof.Machine
end

