-- ==== Sys2Proof/Machine/Flags.lean ====
section
/-!
DEFINITION. Conditions and predicates of a core (08 R278, R282, R283) and the fault record's flags (R309). The core has
no arithmetic flags: `sc.cmp` and `sc.cmpi` write a predicate.
-/

namespace Sys2Proof.Machine

/-- Cond of `sc.cmp` and `sc.cmpi` on 32-bit values: EQ, NE, LT, LTU, LE, LEU. -/
def condHolds (c a b : Nat) : Bool :=
  match c with
  | 0 => a == b
  | 1 => a != b
  | 2 => decide (sxt 32 a < sxt 32 b)
  | 3 => decide (a < b)
  | 4 => decide (sxt 32 a ≤ sxt 32 b)
  | _ => decide (a ≤ b)

/-- Op of `sc.pop`: AND, OR, XOR, AND-NOT. -/
def popOp (o : Nat) (a b : Bool) : Bool :=
  match o with
  | 0 => a && b
  | 1 => a || b
  | 2 => a != b
  | _ => a && !b

/-- R278: the guard of a slot word over the predicates. -/
def guardOn (p : List Bool) (w : Nat) : Bool := (p.getD (swPred w) false) != swNeg w

/-- R309: Flags of a fault record. -/
def faultFlags (prog after bundle : Bool) : Nat :=
  (if prog then 1 else 0) + (if after then 2 else 0) + (if bundle then 4 else 0)

end Sys2Proof.Machine
end

