-- ==== Sys2Proof/Machine/CoreOps.lean ====
section
/-!
DEFINITION. Shared operations of the core: cores and clusters, the operand cache, cluster staging, accumulator memory,
core faults (08 R308, R309), stream rings and completion posting (11), the array reset (07 R265), and what a core holds
at the start of a step and after a replay discard (08 R274, 09 R338, 10 R370, 11 R389).
-/

namespace Sys2Proof.Machine

def coreAt (m : Mach) (k : Nat) : Core := m.cores.get k {}
def setCore (k : Nat) (c : Core) (m : Mach) : Mach := { m with cores := m.cores.put k c }
def modCore (k : Nat) (f : Core → Core) (m : Mach) : Mach := setCore k (f (coreAt m k)) m

/-- The cores of a context, in ascending order. -/
def coresOf (m : Mach) (i : Nat) : List Nat := (m.cores.filter (fun p => p.2.ctx == i)).map Prod.fst

/-- The logical cluster of a core (R13, R275). -/
def clusterOf (k : Nat) : Nat := k / 16

/-- The StagingBytes that a context claims in each of its clusters (R311). -/
def stagingOf (m : Mach) (i : Nat) : Nat := octs (ctxAt m i).claims.raw 76 4

/-- The address of a staging octet. -/
def stagAddr (cluster off : Nat) : Nat := cluster * 2 ^ 22 + off

/-- Octets of the operand cache. -/
def opcGet (c : Core) (off n : Nat) : List Byte := cellsGet c.opc off n
def opcNum (c : Core) (off n : Nat) : Nat := leVal (opcGet c off n)

/-- A write leaves the words that it touches with good parity (R508; log entry 85). -/
def goodPar (p : ParWord → Bool) (c : Core) : Core := { c with par := c.par.filter (fun w => !p w) }

/-- A word of 32 bits meets n octets from an offset. -/
def wordIn (off n word : Nat) : Bool := decide (4 * word < off + n) && decide (off < 4 * word + 4)

/-- A word of the operand cache within a span; a word of accumulator memory. -/
def opcWord (off n : Nat) (w : ParWord) : Bool := match w with | .opc x => wordIn off n x | _ => false
def accWord (off n : Nat) (w : ParWord) : Bool := match w with | .acc x => wordIn off n x | _ => false

def opcPut (off : Nat) (bs : List Byte) (c : Core) : Core :=
  goodPar (opcWord off bs.length) { c with opc := cellsPut c.opc off bs }

/-- R323: a read of spans of the operand cache meets a parity error; of accumulator memory. -/
def opcParBad (c : Core) (spans : List (Nat × Nat)) : Bool := spans.any (fun s => c.par.any (opcWord s.1 s.2))
def accParBad (c : Core) (spans : List (Nat × Nat)) : Bool := spans.any (fun s => c.par.any (accWord s.1 s.2))

/-- A span lies within the 262,144 octets of the operand cache (R323). -/
def opcFits (off n : Nat) : Bool := decide (off + n ≤ 262144)

/-- Writes octets of a cluster's staging; their words then have good parity. -/
def stagPut (cl off : Nat) (bs : List Byte) (x : Mem) : Mem :=
  { x with staging := cellsPut x.staging (stagAddr cl off) bs,
           stagingBad := x.stagingBad.filter (fun w => !wordIn (stagAddr cl off) bs.length w) }

/-- R508: a read of staging meets a parity error. -/
def stagParBad (x : Mem) (cl off n : Nat) : Bool := x.stagingBad.any (wordIn (stagAddr cl off) n)

/-- Scalar register r. -/
def sreg (c : Core) (r : Nat) : Nat := c.s.getD r 0
def areg (c : Core) (r : Nat) : Nat := c.a.getD r 0
def setS (r v : Nat) (c : Core) : Core := goodPar (· == .sreg r) { c with s := c.s.set r (v % 2 ^ 32) }
def setA (r v : Nat) (c : Core) : Core := goodPar (· == .areg r) { c with a := c.a.set r (v % 2 ^ 64) }
/-- Writes a predicate; writes to p0 are discarded (R273). -/
def setP (r : Nat) (v : Bool) (c : Core) : Core :=
  if r == 0 then c else goodPar (· == .preg r) { c with p := c.p.set r v }

/-- R261: the octet address of element (r, c) in accumulator memory, arrays 64 KiB apart. -/
def accAddr (arr tile : Nat) (compact : Bool) (r col : Nat) : Nat :=
  arr * 65536 + (if compact then 2048 * tile + 64 * r + 2 * col else 4096 * tile + 128 * r + 4 * col)

/-- An accumulator element's bits. -/
def accGet (c : Core) (arr tile : Nat) (compact : Bool) (r col : Nat) : Nat :=
  leVal (cellsGet c.acc (accAddr arr tile compact r col) (if compact then 2 else 4))

/-- Writes an accumulator element. -/
def accPut (arr tile : Nat) (compact : Bool) (r col v : Nat) (c : Core) : Core :=
  goodPar (accWord (accAddr arr tile compact r col) (if compact then 2 else 4))
    { c with acc := cellsPut c.acc (accAddr arr tile compact r col) (leBytes (if compact then 2 else 4) v) }

/-- R264: the number by which tiles are compared: compact tiles 2t and 2t + 1 count as tile t. -/
def tileKey (arr tile : Nat) (compact : Bool) : Nat := arr * 32 + (if compact then tile / 2 else tile)

/-! ### Fields of a matrix configuration (R298) -/

def cMode (w : Nat) : Nat := fld w 31 29
def cAFmt (w : Nat) : Nat := fld w 28 25
def cWFmt (w : Nat) : Nat := fld w 24 21
def cGroup (w : Nat) : Nat := match fld w 20 19 with | 0 => 4 | 1 => 8 | _ => 16
def cFold (w : Nat) : Bool := tbit w 18
def cCompact (w : Nat) : Bool := tbit w 17
def cN (w : Nat) : Nat := fld w 16 11
def cK (w : Nat) : Nat := fld w 10 6

/-! ### Faults of a core -/

/-- R309: writes the fault record. -/
def recordFault (k code slot : Nat) (prog bundle : Bool) (pc detail : Nat) (m : Mach) : Mach :=
  let c := coreAt m k
  let x := ctxAt m c.ctx
  let rb := leBytes 2 code ++ leBytes 1 slot ++ leBytes 1 (faultFlags prog (afterCommit x) bundle) ++ leBytes 2 pc ++
    leBytes 2 k ++ leBytes 8 x.step ++ leBytes 8 detail ++ leBytes 4 x.replay ++ leBytes 4 0
  stepUsed c.ctx id (count 0x6100 0x0A (setCore k { c with fault := rb } m))

/-- R308: a program fault of a core: recorded, then handled by R56. -/
def coreFault (k code slot : Nat) (bundle : Bool) (pc detail : Nat) (m : Mach) : Mach :=
  progFault code (coreAt m k).ctx (recordFault k code slot true bundle pc detail m)

/-- A fault that R23 classes before or after commit. -/
def coreError (k code slot : Nat) (bundle : Bool) (pc detail : Nat) (m : Mach) : Mach :=
  ctxError code (coreAt m k).ctx (recordFault k code slot false bundle pc detail m)

/-! ### Ring descriptors (R383) and counts (R386) -/

def rdOct (r : Ring) (off n : Nat) : Nat := (r.desc.v >>> (8 * off)) % 2 ^ (8 * n)
def rdKind (r : Ring) : Nat := rdOct r 3 1
def rdSlots (r : Ring) : Nat := rdOct r 4 1
def rdWhere (r : Ring) : Nat := rdOct r 6 1
def rdProducer (r : Ring) : Nat := rdOct r 7 1
def rdBuffer (r : Ring) : Nat := rdOct r 8 4
def rdSlotBytes (r : Ring) : Nat := rdOct r 12 4
def rdPeriod (r : Ring) : Nat := rdOct r 16 2

def ringAt (c : Core) (r : Nat) : Ring := c.rings.get r {}
def setRing (r : Nat) (x : Ring) (c : Core) : Core := { c with rings := c.rings.put r x }

/-- Differences of u32 counts. -/
def diff32 (a b : Nat) : Nat := (a + 2 ^ 32 - b) % 2 ^ 32

/-- R386: the descriptor, Head and Tail agree with their complements. -/
def ringOk (r : Ring) : Bool := pairOk 256 r.desc.v r.desc.c && pairOk 32 r.head r.headC && pairOk 32 r.tail r.tailC

/-- R387: a slot can be acquired by the producer; by the consumer. -/
def ringRoom (r : Ring) : Bool := decide (diff32 r.wacq r.tail < rdSlots r)
def ringFilled (r : Ring) : Bool := diff32 r.head r.racq != 0

def wAcquire (r : Ring) : Ring := { r with wacq := (r.wacq + 1) % 2 ^ 32 }
def commitSlot (r : Ring) : Ring :=
  let h := (r.head + 1) % 2 ^ 32
  { r with head := h, headC := cpl 32 h }
def rAcquire (r : Ring) : Ring := { r with racq := (r.racq + 1) % 2 ^ 32 }
def releaseSlot (r : Ring) : Ring :=
  let t := (r.tail + 1) % 2 ^ 32
  { r with tail := t, tailC := cpl 32 t }

/-- R383: the offset of the buffer of slot count k. -/
def slotOffset (r : Ring) (k : Nat) : Nat := rdBuffer r + (if rdSlots r == 0 then 0 else k % rdSlots r) * rdSlotBytes r

/-- Fetches of the transfer engine that have been issued and have not landed. -/
def inFetch (r : Ring) : Nat := diff32 r.wacq r.head

/-- Slots that the filler of a ring has still to fetch: its stream's, or the instruction stream's (R292, R393). -/
def toFetch (c : Core) (r : Ring) : Nat :=
  if rdKind r == 2 then c.iringCount - r.wacq
  else match r.active with
    | some a => a.limit - a.next - inFetch r
    | none => 0

/-- R393: the transfer engine acquires every free slot for the next slots of the stream and issues their fetches: the ring, and the
fetches issued. -/
def fetchAhead (c : Core) (r : Ring) : Nat × Ring :=
  let n := min (toFetch c r) (rdSlots r - diff32 r.wacq r.tail)
  (n, { r with wacq := (r.wacq + n) % 2 ^ 32 })

/-- R385: the slot value of a DATA or SINTER ring. -/
def slotValue (r : Ring) (k : Nat) : Nat :=
  (if rdWhere r == 1 then 2 ^ 59 else 0) + (k % 65536) * 2 ^ 32 + slotOffset r k

/-- R389: the counts and entries of a ring return to zero; its descriptor is kept. -/
def emptyRing (r : Ring) : Ring := { desc := r.desc }

/-- Puts an entry into a completion ring that has room. -/
def takeEntry (e : Nat) (r : Ring) : Ring :=
  let x := commitSlot (wAcquire r)
  { x with entries := x.entries ++ [e] }

/-- R384: a completion ring receives entries from units of its SourceClass only. What another unit posts does not enter it (log
entry 81). -/
def ringClassOk (p : Poster) (r : Ring) : Bool := rdKind r == 1 && rdOct r 5 1 == p.class

/-- R403: a ring's counts or descriptor fail their complements where a unit posts or waits. The units of the core itself leave a fault
record (R309). -/
def ringBroken (p : Poster) (k ring pc : Nat) (m : Mach) : Mach :=
  let m1 := count 0x6800 0x09 m
  match p with
  | .drain _ _ | .te _ | .sinter _ => coreError k 0x0801 255 false pc ring m1
  | _ => ctxError 0x0801 (coreAt m k).ctx m1

/-- The bundle whose work the filler of a ring does: that of the stream's `te.stream`, or the one that the core is at. -/
def fillPc (c : Core) (r : Ring) : Nat := match r.active with | some a => a.pc | none => c.pc

/-- Fetches issued into a ring; those with F = 0 are counted (R404). The transfer engine's use of a ring that fails its complements
raises 0x0801 (R386, R403). -/
def issueFetches (k ring : Nat) (m : Mach) : Mach :=
  let c := coreAt m k
  if !c.rings.has ring then m
  else
    let r := ringAt c ring
    if !r.active.isSome && !(ring == c.iringRing && decide (r.wacq < c.iringCount)) then m
    else if !ringOk r then ringBroken (.te k) k ring (fillPc c r) m
    else
      let (n, r1) := fetchAhead c r
      if n == 0 then m else countN 0x6800 0x03 (if r.head == r.tail then n else 0) (setCore k (setRing ring r1 c) m)

/-- R387: a unit posts a completion entry; it waits when the ring is full or earlier posts wait. `pc` is the bundle whose work the
entry reports. -/
def postEntry (p : Poster) (pc k ring e : Nat) (m : Mach) : Mach :=
  let c := coreAt m k
  let r := ringAt c ring
  if !ringOk r then ringBroken p k ring pc m
  else if !ringClassOk p r then m
  else if r.waiting.isEmpty && ringRoom r then setCore k (setRing ring (takeEntry e r) c) m
  else count 0x6800 0x08 (setCore k (setRing ring { r with waiting := r.waiting ++ [⟨p, e, pc⟩] } c) m)

/-- A unit stands until the entry that it posts is in its ring (R113, R387). -/
def posting (m : Mach) (p : Poster) : Bool :=
  m.cores.any (fun c => c.2.rings.any (fun r => r.2.waiting.any (fun w => w.src == p)))

/-! ### Array reset, step start, discard -/

/-- R265: tiles, banks and held vectors. -/
def resetArrays (c : Core) : Core :=
  goodPar (fun w => match w with | .acc _ => true | .bank _ => true | .vectors => true | _ => false)
    { c with acc := [], banks := .fill 4 { ready := c.aclk }, heldShape := none, heldVec := [], heldScale := [] }

/-- R274, R338, R370: what holds at the start of a step and of a replay before the first bundle issues. -/
def startCore (c : Core) : Core :=
  goodPar (fun w => match w with | .sreg _ => true | .areg _ => true | .preg _ => true | .lane _ => true | _ => false)
  { c with
    s := .fill 32 0, a := .fill 16 0, p := ⟨[true, false, false, false, false, false, false, false], rfl⟩,
    loops := [], cfgs := .fill 4 none, epis := .fill 8 none,
    v := .fill 8 (List.replicate 64 0), vpend := [], pc := c.entry, inRing := false, retPc := 0,
    st := .running, held := 0, bubble := false, layer := 0, seqFree := 0, maskFree := 0, layersOff := [], audits := [], misses := [],
    products := [0, 0], writebacks := [] }

/-- R26, R343, R389, R310: a replay discard drops everything in flight on a core; quench Q2 and Q6 use its parts. -/
def dropWork (c : Core) : Core :=
  { c with ops := [], mvs := [], drains := [], dbgOps := [], queue := [], vpend := [], st := .stopped, held := 0, bubble := false,
           lastEntry := [c.aclk, c.aclk], mvLast := c.aclk }

/-- R389: every ring of a core. -/
def emptyRings (c : Core) : Core := { c with rings := c.rings.map (fun p => (p.1, emptyRing p.2)) }

/-- The replay discard on a core. -/
def discardCore (c : Core) : Core :=
  let c := emptyRings (resetArrays (dropWork c))
  goodPar (fun w => match w with | .imem b _ => c.imemBad || decide (c.resident.length ≤ b) | _ => false)
    { c with resident := if c.imemBad then c.pristine else c.resident, imemBad := false, window := [],
             layersOff := [], audits := [], misses := [] }

/-- Applies a change to every core of a context. -/
def eachCore (i : Nat) (f : Core → Core) (m : Mach) : Mach :=
  { m with cores := m.cores.map (fun p => if p.2.ctx == i then (p.1, f p.2) else p) }

/-- A core's context is in a pass in which its cores issue (R26, R307). -/
def issues (m : Mach) (c : Core) : Bool :=
  let x := ctxAt m c.ctx
  x.st == .run && x.pass.running && !x.pass.aborted

/-- An operation of the core is in flight on the tile (R264). A drain has retired for it when its last row is read (R343), a debug
instruction when its row is copied. -/
def tileBusy (c : Core) (key : Nat) : Bool :=
  c.ops.any (fun o => tileKey o.arr o.tile (cCompact o.cfg) == key) ||
  c.mvs.any (fun o => tileKey o.arr o.tile (cCompact o.cfg) == key) ||
  c.drains.any (fun d => d.left != 0 && tileKey d.arr d.tile d.compact == key) ||
  c.dbgOps.any (fun o => tileKey o.arr o.tile o.compact == key)

/-- Every operation that the core issued to its own engines has retired (R296). -/
def coreQuiet (c : Core) : Bool :=
  c.ops.isEmpty && c.mvs.isEmpty && c.drains.isEmpty && c.dbgOps.isEmpty && c.queue.isEmpty && c.vpend.isEmpty && c.banks.list.all (fun b => !b.loading) &&
  c.rings.all (fun p => p.2.active.isNone && p.2.waiting.isEmpty)

end Sys2Proof.Machine
end

