-- ==== Sys2Proof/Machine/CoreMatrix.lean ====
section
/-!
DEFINITION. Matrix arrays, the matrix-vector path and accumulators (07), their arithmetic (06 R225 to R233), and the
sparse and predicted forms that run through them (10 R347 to R360, R370 to R377). An operation's entry cycles are fixed
at its issue (R248), and move only where a scalar access delays its reads (R325); its rows are read when they enter, and each is
written to the tile in its own cycle (R250, R251).
-/

namespace Sys2Proof.Machine

/-- What a slot does at issue: a fault code with its detail, or an effect. -/
abbrev SlotEff := Except (Nat × Nat) (Mach → Mach)

/-! ### Element access and bank conflicts -/

/-- The code of element i of a packed row at an octet offset (R212). -/
def elemCode (c : Core) (fmt base i : Nat) : Nat :=
  match codeBits fmt with
  | 4 => let b := (cellGet c.opc (base + i / 2)).toNat; if i % 2 == 0 then b % 16 else b / 16
  | 8 => (cellGet c.opc (base + i)).toNat
  | 16 => opcNum c (base + 2 * i) 2
  | _ => opcNum c (base + 4 * i) 4

/-- Octets of n packed elements. -/
def rowBytes (fmt n : Nat) : Nat := ceilDiv (n * codeBits fmt) 8

/-- R323, R325: the distinct words that the busiest bank serves for a read of several spans. -/
def bankCycles (spans : List (Nat × Nat)) : Nat :=
  let words := dedupKeep (spans.flatMap (fun s => if s.2 == 0 then [] else rangeFrom (s.1 / 8) ((s.1 + s.2 - 1) / 8 + 1 - s.1 / 8)))
  ((List.range 32).map (fun b => (words.filter (fun w => w % 32 == b)).length)).foldl max 0

/-- R325: cycles that a feeder's read of several spans takes; a read needs a word of a bank; a read that ends in cycle `last` is
under way in cycle `now`. -/
def readCycles (spans : List (Nat × Nat)) : Nat := max 1 (bankCycles spans)
def needsBank (bk : Nat) (spans : List (Nat × Nat)) : Bool :=
  spans.any (fun s => s.2 != 0 && (rangeFrom (s.1 / 8) (min 32 ((s.1 + s.2 - 1) / 8 + 1 - s.1 / 8))).any (fun w => w % 32 == bk))
def readsIn (now last : Nat) (spans : List (Nat × Nat)) : Bool := decide (now ≤ last) && decide (last < now + readCycles spans)

/-- The span of `rows` rows of `n` octets leaves the operand cache (0x0205). -/
def spanBad (off stride rows n : Nat) : Bool := rows != 0 && n != 0 && !opcFits (off + (rows - 1) * stride) n

/-! ### Configuration checks (R225, R232, R245, R299) -/

/-- R225, R232: the mode accepts the pair of formats. -/
def modePair (mode a w : Nat) : Bool :=
  let fp8 (f : Nat) : Bool := f == 3 || f == 4
  let mx8 (f : Nat) : Bool := f == 8 || f == 9
  match mode with
  | 0 => (a == w && [1, 2, 5, 6, 7, 0xA, 0xB].contains a) || (fp8 a && fp8 w) || (mx8 a && mx8 w)
  | 1 | 2 => a == w && [2, 3, 4, 5, 6].contains a
  | 3 | 4 => a == w && [1, 2, 5].contains a
  | 5 | 6 => a == 0xE && w == 0xE
  | _ => false

/-- The accumulator holds INT32 (R225, R232). -/
def intAcc (mode a : Nat) : Bool := a == 5 || a == 6 || mode == 5 || mode == 6

/-- R299: the value written by `mm.cfg` breaks R245, R225 or R232. -/
def cfgBad (w : Nat) : Bool :=
  let g := fld w 20 19
  cMode w == 7 || g == 3 || cN w == 0 || decide (cN w > 32) || decide (cK w > 16) ||
  !modePair (cMode w) (cAFmt w) (cWFmt w) ||
  (cFold w && (cGroup w == 16 || decide (cK w > cGroup w) || isMx (cAFmt w) || isMx (cWFmt w))) ||
  (cCompact w && intAcc (cMode w) (cAFmt w)) || fld w 5 0 != 0

/-- R248: multiply stages, which are also the cycles of an entry slot. -/
def mulStages (afmt : Nat) : Nat := match codeBits afmt with | 16 => if afmt == 2 then 2 else 4 | _ => 1

/-- R248, R252: rows that one entry slot presents. -/
def slotRows (cfg : Nat) : Nat :=
  let four := codeBits (cAFmt cfg) == 4
  if cFold cfg then (if cGroup cfg == 4 then 4 else if four then 4 else 2)
  else if four then 2 else 1

/-- R250: cycles from a row's entry to its retirement. -/
def rowLatency (cfg : Nat) : Nat := mulStages (cAFmt cfg) + (if cFold cfg then 3 else 2 + 16 / cGroup cfg)

/-! ### The arithmetic of a column -/

/-- An exact integer value. -/
def vInt (v : FVal) : Int :=
  match v with
  | .fin n m e => let k : Nat := if e ≥ 0 then m <<< e.toNat else m >>> (-e).toNat; if n then -(k : Int) else k
  | _ => 0

/-- R329's `take_b` for MAX and MIN. -/
def takeB (isMin : Bool) (a b : Nat) : Bool :=
  let x := F32.decode a
  let y := F32.decode b
  if isMin then y.lt x || (y.isZero && y.sign && x.isZero && !x.sign) || (y.isNan && !x.isNan)
  else x.lt y || (y.isZero && !y.sign && x.isZero && x.sign) || (y.isNan && !x.isNan)

/-- Minimum or maximum of two binary32 codes, a NaN canonical (R210, R233). -/
def minMax32 (isMin : Bool) (a b : Nat) : Nat :=
  let r := if takeB isMin a b then b else a
  if F32.isNanC r then F32.nanCode else r

/-- The cell's result, exact but for ADD_MIN and ADD_MAX of floating operands (R232). -/
def cellVal (mode : Nat) (isInt : Bool) (a w : FVal) : FVal :=
  match mode with
  | 0 => a.mul w
  | 1 => (a.add false w.neg).abs
  | 2 => let d := a.add false w.neg; d.mul d
  | 3 | 4 => if isInt then a.add false w else F32.decode (F32.narrow .rne false (a.add false w))
  | 5 => ofInt (popcount 8 ((vInt a).toNat &&& (vInt w).toNat) : Nat)
  | _ => ofInt (popcount 8 ((vInt a).toNat ^^^ (vInt w).toNat) : Nat)

/-- Exact sum of a list. -/
def sumV (l : List FVal) : FVal :=
  match l with
  | [] => .fin false 0 0
  | x :: r => r.foldl (FVal.add false) x

/-- Consecutive groups of G. -/
def chunks {α : Type} (g : Nat) : Nat → List α → List (List α)
  | 0, _ => []
  | n + 1, l => if l.isEmpty then [] else l.take g :: chunks g n (l.drop g)

/-- R226, R229 to R233, R254: the column result of the cells' values (none: a padded cell), as a 32-bit code. -/
def columnResult (mode g : Nat) (isInt : Bool) (cells : List (Option FVal)) : Nat :=
  let gs := chunks g cells.length cells
  if mode == 3 || mode == 4 then
    let isMin := mode == 3
    if isInt then
      let l := (cells.filterMap id).map vInt
      match l with
      | [] => 0
      | x :: r => toU 32 (satI32 (r.foldl (fun a b => if isMin then min a b else max a b) x))
    else
      let l := (cells.filterMap id).map (F32.narrow .rne false)
      match l with
      | [] => 0
      | x :: r => minMax32 isMin x (r.foldl (minMax32 isMin) x)
  else
    let val (c : Option FVal) : FVal := c.getD (.fin false 0 0)
    if isInt then toU 32 (vInt (sumV (cells.map val)))
    else
      match gs.map (fun l => F32.narrow .rne false (sumV (l.map val))) with
      | [] => 0
      | x :: r => r.foldl (F32.addC .rne false) x

/-- R227, R230, R232: an accumulation into a 32-bit element: the new code and whether INT32 saturated. -/
def accumulate (mode : Nat) (isInt : Bool) (old p : Nat) : Nat × Bool :=
  if mode == 3 || mode == 4 then
    if isInt then
      let a := sxt 32 old
      let b := sxt 32 p
      (toU 32 (if mode == 3 then min a b else max a b), false)
    else (minMax32 (mode == 3) old p, false)
  else if isInt then
    let x := sxt 32 old + sxt 32 p
    (toU 32 (satI32 x), x != satI32 x)
  else (F32.addC .rne false old p, false)

/-- R228: the exact value that a compact write-back rounds. -/
def compactValue (mode : Nat) (above : Bool) (old p : Nat) : FVal :=
  if above then F32.decode p
  else if mode == 3 || mode == 4 then F32.decode (minMax32 (mode == 3) (BF16.cvt F32 .rne false old) p)
  else (BF16.decode old).add false (F32.decode p)

/-! ### Weight banks (R241 to R244, R353 to R356) -/

def bankIx (arr bank : Nat) : Nat := arr * 2 + bank
def bankAt (c : Core) (i : Nat) : Bank := c.banks.getD i {}
def setBank (i : Nat) (b : Bank) (c : Core) : Core := { c with banks := c.banks.set i b }
/-- A load takes a bank over. -/
def loadBank (i : Nat) (b : Bank) (c : Core) : Core := goodPar (· == .bank i) (setBank i b c)

/-- R243: stored rows of a layout and base cycles L. -/
def layoutRows (lay : Nat) : Nat := match lay with | 0 => 16 | 1 => 32 | 2 => 4 | _ => 8
def loadCycles (fmt lay : Nat) : Nat :=
  let base := match codeBits fmt with | 4 => 4 | 8 => 8 | _ => 16
  match lay with | 2 => base / 4 | 3 => base / 2 | _ => base

/-- R242: the cells that a stored row fills, as (cell key, element index). -/
def rowCells (lay k row : Nat) : List (Nat × Nat) :=
  match lay with
  | 1 => (List.range k).map (fun e => (32 * e + row, e))
  | 2 => (List.range 4).flatMap (fun j => (List.range 32).map (fun n => (32 * (4 * j + row) + n, n)))
  | 3 => (List.range 2).flatMap (fun j => (List.range 32).map (fun n => (32 * (8 * j + row) + n, n)))
  | _ => (List.range 32).map (fun n => (32 * row + n, n))

/-- The spans of one read of a load: stored rows, the scale octets, or a part of a compressed tile. -/
def bankSpans (b : Bank) (rows : List Nat) : List (Nat × Nat) :=
  rows.map (fun r =>
    if b.sparse then (b.src + 64 * r, 64)
    else if r == 32 then (b.scaleAt, 32)
    else (b.src + r * b.stride, rowBytes b.fmt (if b.layout == 1 then b.k else 32)))

/-- Reads one after another from a cycle, each at the cycle in which it ends; the cycle after the last; the conflict cycles (R325). -/
def feederPlan {α : Type} (start : Nat) (spans : α → List (Nat × Nat)) (items : List α) : List (Nat × α) × Nat × Nat :=
  items.foldl (fun (acc : List (Nat × α) × Nat × Nat) x =>
    let w := readCycles (spans x)
    (acc.1 ++ [(acc.2.1 + (w - 1), x)], acc.2.1 + w, acc.2.2 + (w - 1))) ([], start, 0)

/-- The reads of a load as (cycle, stored rows), the ready cycle, and the conflict cycles (R243, R325). -/
def loadPlan (b : Bank) (t : Nat) : List (Nat × List Nat) × Nat × Nat :=
  let n := loadCycles b.fmt b.layout
  let per := layoutRows b.layout / n
  let rows (i : Nat) : List Nat := (rangeFrom (i * per) per).filter (fun r => b.layout == 1 || decide (r < b.k))
  feederPlan (t + 1) (bankSpans b) ((List.range n).map rows ++ (if isMx b.fmt then [[32]] else []))

/-- The reads of a load that are due at a cycle. -/
def feedBank (c : Core) (now : Nat) (b : Bank) : Bank :=
  let due := b.plan.filter (fun p => decide (p.1 ≤ now))
  if due.isEmpty then b
  else if b.sparse then { b with plan := b.plan.filter (fun p => decide (now < p.1)) }
  else
    let cells := due.foldl (fun m p => p.2.foldl (fun m r => if r == 32 then m else
      (rowCells b.layout b.k r).foldl (fun m kc => m.put kc.1 (elemCode c b.fmt (b.src + r * b.stride) kc.2)) m) m) b.cells
    let scales := if due.any (fun p => p.2.contains 32) then (List.range 32).map (fun n => (cellGet c.opc (b.scaleAt + n)).toNat)
                  else b.scales
    { b with cells := cells, scales := scales, plan := b.plan.filter (fun p => decide (now < p.1)) }

/-- The latest row entry of any issued operation that names the bank. -/
def lastEntryOf (c : Core) (arr bank : Nat) : Nat :=
  (c.ops.filter (fun o => o.arr == arr && o.bank == bank)).foldl (fun acc o =>
    max acc (if o.plan.isEmpty then 0 else (o.plan.map Prod.fst).foldl max 0)) 0

/-- R244: a load would write its first cycle at or before a row entry against the bank. -/
def loadClash (c : Core) (arr bank : Nat) : Bool :=
  c.ops.any (fun o => o.arr == arr && o.bank == bank && !o.plan.isEmpty) && decide (c.aclk + 1 ≤ lastEntryOf c arr bank)

/-- `mm.wld` (R241, R243, R244). -/
def issueWld (k : Nat) (c : Core) (w : Nat) : SlotEff :=
  let arr := fld w 21 21
  let bank := fld w 20 20
  let fmt := fld w 19 16
  let kk := fld w 15 11
  let lay := fld w 10 9
  let b4 := 4 * fld w 2 0
  let src := sreg c b4
  let stride := sreg c (b4 + 1)
  let sc := sreg c (b4 + 2)
  let rows := if lay == 1 then 32 else kk
  let n := rowBytes fmt (if lay == 1 then kk else 32)
  if spanBad src stride rows n || (isMx fmt && !opcFits sc 32) then .error (0x0205, src)
  else if loadClash c arr bank then .error (0x0203, bankIx arr bank)
  else
    let b : Bank := { fmt := fmt, k := kk, layout := lay, loading := true, wld := true, src := src, stride := stride, scaleAt := sc,
                      pc := c.pc }
    let (plan, ready, extra) := loadPlan b c.aclk
    .ok (fun m => count 0x6200 0x03 ((if lay == 1 then count 0x6200 0x04 else id)
      (countN 0x6300 0x07 extra (modCore k (loadBank (bankIx arr bank) { b with ready := ready, plan := plan }) m))))

/-- Values kept per m positions, and m, of a structured pattern; index bits (R347). -/
def patKeep (p : Nat) : Nat × Nat := match p with | 0 => (1, 4) | 1 => (2, 4) | 2 => (2, 8) | _ => (4, 8)
def patBits (p : Nat) : Nat := if p ≤ 1 then 2 else 3

/-- Blocks within the pattern's range (R347). -/
def blocksOk (p b : Nat) : Bool := decide (1 ≤ b) && decide (b ≤ if p == 1 || p == 3 then 2 else 4)

/-- Stored values per column of a structured pattern (R347). -/
def patStored (p b : Nat) : Nat := if p == 1 || p == 3 then 8 * b else 4 * b

/-- R352: the slot of a compressed tile. -/
def tileSlot (p b w : Nat) : Nat :=
  if p == 4 then a64 (8 + 64 * b + 64 * w) else a64 (8 + 4 * patStored p b * (w + patBits p))

/-- R348: formats of a compressed tile. -/
def tileFmt (f : Nat) : Bool := decide (1 ≤ f) && decide (f ≤ 7)

/-- The code of packed element i of w bits from an octet list. -/
def packedAt (l : List Byte) (off w i : Nat) : Nat :=
  let bit := i * w
  (octs l (off + bit / 8) ((bit % 8 + w + 7) / 8) >>> (bit % 8)) % 2 ^ w

/-- A compressed tile as cells and logical positions (R350, R351). -/
structure SpTile where
  fmt : Nat
  pattern : Nat
  blocks : Nat
  dense : Bool
  cells : SMap Nat
  pos : SMap Nat
deriving DecidableEq, Repr

/-- Positions of the set bits of a column of a BM16 tile. -/
def bmPositions (maps : List Nat) : List Nat :=
  (maps.zip (List.range maps.length)).flatMap (fun p => ((List.range 16).filter (fun b => tbit p.1 b)).map (fun b => 16 * p.2 + b))

/-- R349 to R351, R356: reads a tile; none where a check of R356 fails. -/
def readTile (l : List Byte) : Option SpTile :=
  let h := octs l 0 8
  let fmt := fld h 15 12
  let blocks := fld h 11 9
  let dense := tbit h 8
  let pat := fld h 2 0
  let w := codeBits fmt
  if fld h 63 48 != cpl 16 (fld h 15 0) || fld h 31 16 != 0 || fld h 7 3 != 0 || !tileFmt fmt || decide (pat > 4) ||
      !blocksOk pat blocks || (dense && !(pat == 4 && blocks == 1)) || decide (fld h 47 32 > tileSlot pat blocks w - 8) then none
  else if dense then
    let cells := (List.range 512).map (fun i => (i, packedAt l 8 w i))
    some ⟨fmt, pat, blocks, true, cells, (List.range 512).map (fun i => (i, i / 32))⟩
  else if pat == 4 then
    let maps (c : Nat) : List Nat := (List.range blocks).map (fun b => octs l (8 + 2 * (c * blocks + b)) 2)
    if (List.range 32).any (fun c => (maps c).any (fun x => decide (popcount 16 x > 16 / blocks))) then none
    else
      let r := (List.range 32).foldl (fun (acc : SMap Nat × SMap Nat × Nat) c =>
        let ps := bmPositions (maps c)
        (ps.zip (List.range ps.length)).foldl (fun (acc : SMap Nat × SMap Nat × Nat) pj =>
          (acc.1.put (32 * pj.2 + c) (packedAt l (8 + 64 * blocks) w acc.2.2), acc.2.1.put (32 * pj.2 + c) pj.1, acc.2.2 + 1)) acc)
        ([], [], 0)
      some ⟨fmt, pat, blocks, false, r.1, r.2.1⟩
  else
    let s := patStored pat blocks
    let (n, mm) := patKeep pat
    let ib := patBits pat
    some ⟨fmt, pat, blocks, false, (List.range (s * 32)).map (fun i => (i, packedAt l 8 w i)),
      (List.range (s * 32)).map (fun i => (i, (i / 32) / n * mm + packedAt l (8 + s * 32 * w / 8) ib i))⟩

/-- `mm.swld` (R353 to R356). -/
def issueSwld (k : Nat) (c : Core) (w : Nat) : SlotEff :=
  let arr := fld w 21 21
  let bank := fld w 20 20
  let off := sreg c (4 * fld w 2 0)
  if !opcFits off 8 || off % 64 != 0 then .error (0x0205, off)
  else
    let hd := opcGet c off 8
    let fmt := fld (octs hd 0 8) 15 12
    let n := 8 + fld (octs hd 0 8) 47 32
    if !opcFits off n then .error (0x0205, off)
    else match readTile (opcGet c off (max n (min (262144 - off) 4096))) with
      | none => .error (0x0207, off)
      | some t =>
        if loadClash c arr bank then .error (0x0203, bankIx arr bank)
        else
          .ok (fun m => count 0x6200 0x21 (modCore k (loadBank (bankIx arr bank)
            { fmt := t.fmt, k := 16, ready := c.aclk + loadCycles fmt 0 + 5 + 1, loading := true, sparse := true,
              pattern := t.pattern, blocks := t.blocks, dense := t.dense, cells := t.cells, pos := t.pos, src := off, pc := c.pc,
              plan := (List.range (ceilDiv n 64)).map (fun i => (c.aclk + 1 + i, [i])) }) m))

/-! ### Array operations -/

/-- R376, R375: the activity of output (r, col) of an `mm.pacc`: 0 inactive, 1 active, 2 audited. -/
def paccState (m : Mach) (k : Nat) (o : MxOp) (r col : Nat) : Nat :=
  let x := ctxAt m (coreAt m k).ctx
  if tbit (o.masks.getD r 0) col then 1
  else if auditDraw x.seed x.step o.layer k o.arr o.product (r * 32 + col) then 2 else 0

/-- The logical rows of a bank for a sparse operation (R358, R360). -/
def bankKL (b : Bank) : Nat := if b.dense then 16 else 16 * b.blocks

/-- Octets of a sparse activation row at an offset (R358). -/
def sparseRowBytes (c : Core) (b : Bank) (fmt off : Nat) (bitmap : Bool) : Nat :=
  if bitmap then
    let n := ((List.range (bankKL b / 16)).map (fun j => popcount 16 (opcNum c (off + 2 * j) 2))).foldl (· + ·) 0
    a8 (2 * (bankKL b / 16)) + a8 (rowBytes fmt n)
  else rowBytes fmt (bankKL b)

/-- What the entry of row i of an operation reads of the operand cache (R247, R358). -/
def rowSpans (c : Core) (o : MxOp) (i : Nat) : List (Nat × Nat) :=
  let off := o.src + i * o.stride
  let fmt := cAFmt o.cfg
  if o.op == 0x11 || o.op == 0x12 then [(off, sparseRowBytes c (bankAt c (bankIx o.arr o.bank)) fmt off o.bitmap)]
  else if cK o.cfg == 0 then []
  else (off, rowBytes fmt (cK o.cfg)) :: (if isMx fmt then [(o.scale + i * o.stride, 1)] else [])

/-- Entry slots of groups of rows: (cycle, rows), the cycle after the last slot, conflict cycles (R248, R252, R325). -/
def slotPlan (start per : Nat) (groups : List (List Nat)) (spans : Nat → List (Nat × Nat)) : List (Nat × List Nat) × Nat × Nat :=
  groups.foldl (fun (acc : List (Nat × List Nat) × Nat × Nat) rs =>
    let x := readCycles (rs.flatMap spans) - 1
    (acc.1 ++ [(acc.2.1 + x, rs)], acc.2.1 + x + per, acc.2.2 + x)) ([], start, 0)

/-- The entry slots of the rows of an operation of `m` rows that enter. They share slots without gaps, unless a bank conflict would then
take more cycles than all the rows do: there every row keeps the slot that it would have among all, so that skipped rows only bring
events earlier (R376). -/
def entryPlan (start per slots m : Nat) (rows : List Nat) (spans : Nat → List (Nat × Nat)) : List (Nat × List Nat) × Nat × Nat :=
  let all := chunks slots m (List.range m)
  let packed := slotPlan start per (chunks slots rows.length rows) spans
  if packed.2.1 ≤ (slotPlan start per all spans).2.1 then packed
  else slotPlan start per ((all.map (fun g => g.filter rows.contains)).filter (fun g => !g.isEmpty)) spans

/-- The next write-back index of a tile (R224) and its key. -/
def wbKey (arr tile : Nat) : Nat := arr * 32 + tile

/-- Issues an array operation whose checks passed. -/
def enterOp (k : Nat) (c : Core) (o : MxOp) (rows : List Nat) : SlotEff :=
  let t := c.aclk
  let first := max (t + 2) (c.lastEntry.getD o.arr 0 + 1) + (if o.bitmap then 1 else 0)
  let b := bankAt c (bankIx o.arr o.bank)
  if c.ops.any (fun x => x.arr == o.arr && decide (x.start > t)) then .error (0x0206, o.arr)
  else
    let (plan, _, extra) := entryPlan first (mulStages (cAFmt o.cfg)) (slotRows o.cfg) o.m rows (rowSpans c o)
    let last := (plan.map Prod.fst).foldl max 0
    if !rows.isEmpty && decide ((plan.head?.map Prod.fst).getD 0 < b.ready) then .error (0x0203, bankIx o.arr o.bank)
    else
      let o1 := { o with
        start := (plan.head?.map Prod.fst).getD t, plan := plan,
        retire := if rows.isEmpty then t + 2 else last + rowLatency o.cfg,
        wb := c.writebacks.get (wbKey o.arr o.tile) 0 }
      .ok (fun m =>
        let m1 := modCore k (fun c => { c with
          ops := c.ops ++ [o1],
          lastEntry := if rows.isEmpty then c.lastEntry else c.lastEntry.set o.arr last,
          writebacks := if cCompact o.cfg then c.writebacks.put (wbKey o.arr o.tile) (o1.wb + 1) else c.writebacks }) m
        let m2 := if o.m ≤ 2 || cN o.cfg == 1 then count 0x6200 0x07 m1 else m1
        countN 0x6300 0x07 extra (if cMode o.cfg != 0 then count 0x6200 0x0A m2 else m2))

/-- The operation that an `mm.set`, `mm.acc`, `mm.sset`, `mm.sacc` or `mm.pacc` word describes. -/
def mxOf (c : Core) (w cfg : Nat) : MxOp :=
  let b4 := 4 * fld w 2 0
  { op := swOp w, arr := fld w 21 21, bank := fld w 20 20, tile := fld w 19 15, row0 := fld w 7 3, m := fld w 13 8,
    cfg := cfg, src := sreg c b4, stride := sreg c (b4 + 1), scale := sreg c (b4 + 2), start := 0, plan := [],
    retire := 0, pc := c.pc }

/-- The configuration word that a matrix word selects, if written. -/
def cfgOf (c : Core) (arr sel : Nat) : Option Nat := (c.cfgs.getD (arr * 2 + sel) none)

/-- R355, R244: the bank's kind, format and layout fit the operation. -/
def bankFits (b : Bank) (op cfg : Nat) : Bool :=
  if op == 0x11 || op == 0x12 then b.sparse
  else !b.sparse && b.fmt == cWFmt cfg &&
    (if cFold cfg then (if cGroup cfg == 4 then b.layout == 2 else b.layout == 3) else decide (b.layout ≤ 1))

/-- `mm.set`, `mm.acc`, their sparse forms and `mm.pacc` at issue. -/
def issueMx (m : Mach) (k : Nat) (c : Core) (w : Nat) : SlotEff :=
  let op := swOp w
  let arr := fld w 21 21
  if fld w 13 8 == 0 then .ok id
  else match cfgOf c arr (fld w 14 14) with
  | none => .error (0x0207, 0)
  | some cfg =>
    let o := mxOf c w cfg
    let b := bankAt c (bankIx o.arr o.bank)
    let acc := op == 0x03
    if acc && cK cfg == 0 then .ok id
    else if o.tile > 15 && !cCompact cfg then .error (0x0207, o.tile)
    else if op == 0x11 || op == 0x12 then
      let bm := o.scale
      if !b.sparse then .error (0x0203, bankIx o.arr o.bank)
      else if cMode cfg != 0 || cK cfg != 16 || cFold cfg || cWFmt cfg != b.fmt || isMx (cAFmt cfg) || decide (bm > 1) then
        .error (0x0207, cfg)
      else
        let len (i : Nat) : Nat := sparseRowBytes c b (cAFmt cfg) (o.src + i * o.stride) (bm == 1)
        if (List.range o.m).any (fun i => !opcFits (o.src + i * o.stride) (len i)) then .error (0x0205, o.src)
        else enterOp k c { o with bitmap := bm == 1 } (List.range o.m)
    else if op == 0x14 then
      let fin := sreg c (4 * fld w 2 0 + 3)
      if cMode cfg != 0 || cCompact cfg || cFold cfg || isMx (cAFmt cfg) || isMx (cWFmt cfg) || decide (fin > 1) ||
          (!b.wld && !b.sparse) then .error (0x0207, cfg)
      else if !bankFits b op cfg then .error (0x0203, bankIx o.arr o.bank)
      else if spanBad o.src o.stride o.m (rowBytes (cAFmt cfg) (cK cfg)) then .error (0x0205, o.src)
      else if !opcFits o.scale 136 then .error (0x0205, o.scale)
      else
        let o1 := { o with
          final := fin == 1, thr := opcNum c o.scale 4, layer := opcNum c (o.scale + 4) 1 % 64,
          masks := (List.range 32).map (fun r => opcNum c (o.scale + 8 + 4 * r) 4), product := c.products.getD o.arr 0 }
        let st (i n : Nat) : Nat := paccState m k o1 (o.row0 + i) n
        let cols := List.range (cN cfg)
        let rows := (List.range o.m).filter (fun i => cols.any (fun n => st i n != 0))
        let skipped := ((List.range o.m).flatMap (fun i => cols.filter (fun n => st i n == 0))).length
        match enterOp k c o1 rows with
        | .error e => .error e
        | .ok f => .ok (fun m => countN 0x6200 0x26 skipped (countN 0x6200 0x27 (o.m - rows.length) (modCore k (fun c =>
            { c with products := if fin == 1 then c.products.set o.arr (c.products.getD o.arr 0 + 1) else c.products }) (f m))))
    else if !bankFits b op cfg then .error (0x0203, bankIx o.arr o.bank)
    else if spanBad o.src o.stride o.m (rowBytes (cAFmt cfg) (cK cfg)) ||
        (isMx (cAFmt cfg) && cK cfg != 0 && spanBad o.scale o.stride o.m 1) then .error (0x0205, o.src)
    else enterOp k c o (List.range o.m)

/-- The weight value of a cell (R214, R241). -/
def weightVal (b : Bank) (krow n : Nat) : FVal :=
  let row := match b.layout with | 2 => krow % 4 | 3 => krow % 8 | _ => krow
  if b.k ≤ row then .fin false 0 0
  else
    let v := elemVal b.fmt (b.cells.get (32 * krow + n) 0)
    if isMx b.fmt then scaled (b.scales.getD n 127) v else v

/-- The activation element of a sparse row at a logical position; none where absent (R358). -/
def sparseAct (c : Core) (b : Bank) (fmt off : Nat) (bitmap : Bool) (pos : Nat) : Option FVal :=
  if !bitmap then some (elemVal fmt (elemCode c fmt off pos))
  else
    let ps := bmPositions ((List.range (bankKL b / 16)).map (fun j => opcNum c (off + 2 * j) 2))
    if ps.contains pos then
      some (elemVal fmt (elemCode c fmt (off + a8 (2 * (bankKL b / 16))) (ps.filter (fun x => decide (x < pos))).length))
    else none

/-- The 32 column results of a row that enters (R226, R252, R254, R359). -/
def rowResult (c : Core) (o : MxOp) (i : Nat) : List Nat :=
  let b := bankAt c (bankIx o.arr o.bank)
  let afmt := cAFmt o.cfg
  let mode := cMode o.cfg
  let g := cGroup o.cfg
  let isInt := intAcc mode afmt
  let off := o.src + i * o.stride
  let kk := cK o.cfg
  if o.op == 0x11 || o.op == 0x12 then
    (List.range (cN o.cfg)).map (fun n => columnResult mode g isInt ((List.range 16).map (fun j =>
      match b.pos.find (32 * j + n) with
      | none => some (.fin false 0 0)
      | some pos =>
        match sparseAct c b afmt off o.bitmap pos with
        | none => some (.fin false 0 0)
        | some a => some (a.mul (elemVal b.fmt (b.cells.get (32 * j + n) 0))))))
  else
    let sc := if isMx afmt then (cellGet c.opc (o.scale + i * o.stride)).toNat else 127
    let act := (List.range kk).map (fun j =>
      let v := elemVal afmt (elemCode c afmt off j)
      if isMx afmt then scaled sc v else v)
    let q := if cFold o.cfg then
        (if g == 4 then i % 4 else if codeBits afmt == 4 then (i % 4) / 2 else i % 2)
      else 0
    let size := if cFold o.cfg then g else 16
    (List.range (cN o.cfg)).map (fun n => columnResult mode g isInt ((List.range size).map (fun j =>
      match act[j]? with
      | none => none
      | some a => some (cellVal mode isInt a (weightVal b (q * g + j) n)))))

/-- The rows of an operation that are due to enter at a cycle. -/
def feedOp (c : Core) (now : Nat) (o : MxOp) : MxOp × Nat :=
  let due := (o.plan.filter (fun p => decide (p.1 ≤ now))).flatMap Prod.snd
  if due.isEmpty then (o, 0)
  else ({ o with res := o.res ++ due.map (fun i => (now + rowLatency o.cfg, i, rowResult c o i)),
                 plan := o.plan.filter (fun p => decide (now < p.1)) }, due.length)

/-- R250, R228, R377: rows of an operation, as (cycle, row, results), are written to its tile. A compact write-back has no SAT bit: DESIGN
CHOICE, it rounds with SAT = 0 (log entry 96); its draws use the step number (R503). -/
def writeRows (k : Nat) (o : MxOp) (rows : List (Nat × Nat × List Nat)) (m : Mach) : Mach :=
  let c := coreAt m k
  let x := ctxAt m c.ctx
  if cCompact o.cfg && !stepPairOk x then stepFault c.ctx m else
  let mode := cMode o.cfg
  let isInt := intAcc mode (cAFmt o.cfg)
  let above := o.op == 0x02 || o.op == 0x11
  let compact := cCompact o.cfg
  let cells := rows.flatMap (fun ir => (ir.2.2.zip (List.range ir.2.2.length)).map (fun pn => (o.row0 + ir.2.1, pn.2, pn.1)))
  let r := cells.foldl (fun (acc : Core × Nat × Nat × Nat) cell =>
    let (cc, sats, aud, miss) := acc
    let (row, col, p) := cell
    let old := accGet cc o.arr o.tile compact row col
    if compact then
      let draw := srKeyCompact x.seed x.step k o.arr o.tile o.wb (row * 32 + col)
      (accPut o.arr o.tile true row col (BF16.narrow (.sr draw) false (compactValue mode above old p)) cc, sats, aud, miss)
    else
      let (v, sat) := if above then (p, false) else accumulate mode isInt old p
      let sats1 := if sat then sats + 1 else sats
      if o.op == 0x14 then
        match paccState m k o row col with
        | 0 => (cc, sats, aud, miss)
        | 1 => (accPut o.arr o.tile false row col v cc, sats1, aud, miss)
        | _ =>
          if o.final then
            let hit := if isInt then decide (sxt 32 o.thr < sxt 32 v)
              else F32.isNanC v || (F32.decode o.thr).lt (F32.decode v)
            (accPut o.arr o.tile false row col 0 cc, sats1, aud + 1, if hit then miss + 1 else miss)
          else (accPut o.arr o.tile false row col v cc, sats1, aud, miss)
      else (accPut o.arr o.tile false row col v cc, sats1, aud, miss)) (c, 0, 0, 0)
  let (c1, sats, aud, miss) := r
  let c2 := if aud == 0 then c1 else
    { c1 with audits := c1.audits.put o.layer (c1.audits.get o.layer 0 + aud),
              misses := c1.misses.put o.layer (c1.misses.get o.layer 0 + miss) }
  countN 0x6200 0x0B sats (countN 0x6200 0x28 aud (countN 0x6200 0x29 miss (setCore k c2 m)))

/-- R250: an operation retires: whatever is left of it is written, and it is no longer in flight. -/
def retireOp (k : Nat) (o : MxOp) (m : Mach) : Mach :=
  modCore k (fun c => { c with ops := c.ops.erase o }) (writeRows k o o.res m)

/-! ### Configurations, debug access, prediction masks -/

/-- `mm.cfg` (R298, R299). -/
def issueCfg (k : Nat) (c : Core) (w : Nat) : SlotEff :=
  let v := sreg c (fld w 19 15)
  if cfgBad v then .error (0x0207, v)
  else .ok (modCore k (fun c => { c with cfgs := c.cfgs.set (fld w 21 20) (some v) }))

/-- `mm.dbgrd` and `mm.dbgwr` (R266): the row is copied in a cycle in which the side port is free (R263). -/
def issueDbg (m : Mach) (k : Nat) (c : Core) (w : Nat) : SlotEff :=
  let arr := fld w 21 21
  let tile := fld w 20 16
  let compact := tbit w 15
  let row := fld w 14 10
  let off := sreg c (fld w 9 5)
  let n := if compact then 64 else 128
  if dnum m 0xA000 0x01 == 0 then .error (0x0204, 0)
  else if !opcFits off n then .error (0x0205, off)
  else .ok (fun m => count 0x6200 0x0D (modCore k (fun c =>
    { c with dbgOps := c.dbgOps ++ [⟨swOp w != 0x0C, arr, tile, compact, row, off, c.pc⟩] }) m))

/-- `mm.pmask` (R371 to R373): its area is written at the end of pipeline cycle n + 35. -/
def issuePmask (m : Mach) (k : Nat) (c : Core) (w : Nat) : SlotEff :=
  let b4 := 4 * fld w 2 0
  let src := sreg c b4
  let dst := sreg c (b4 + 1)
  let thr := sreg c (b4 + 2)
  let lay := sreg c (b4 + 3)
  if lay ≥ 64 then .error (0x0207, lay)
  else if c.pipe < c.maskFree then .error (0x0206, 0)
  else if !opcFits src 4096 then .error (0x0205, src)
  else if !opcFits dst 136 || dst % 8 != 0 then .error (0x0205, dst)
  else
    let off := c.layersOff.contains lay
    let margin := (ctxAt m c.ctx).margins.getD lay 0
    let row (r : Nat) : Nat := (List.range 32).foldl (fun acc n =>
      let sc := opcNum c (src + 128 * r + 4 * n) 4
      let hit := off || F32.isNanC sc ||
        (F32.decode thr).lt (F32.decode (F32.addC .rne false sc margin))
      acc + (if hit then 2 ^ n else 0)) 0
    let bytes := leBytes 4 thr ++ leBytes 1 lay ++ leBytes 1 (if off then 1 else 0) ++ leBytes 2 0 ++
      (List.range 32).flatMap (fun r => leBytes 4 (row r))
    .ok (modCore k (fun c => { c with
      maskFree := c.pipe + 32,
      vpend := c.vpend ++ [.opc (c.pipe + 35) ((rangeFrom dst 136).zip bytes)] }))

/-! ### The matrix-vector path (R256 to R260) -/

/-- R259: columns per matrix cycle. -/
def mvCols (afmt m : Nat) : Nat :=
  let c := match codeBits afmt with | 4 => 32 | 8 => 16 | _ => if afmt == 2 then 8 else 4
  if m == 2 then c / 2 else c

/-- R259: octets that vector-load cycle i reads, 256 of the vectors laid end to end; the scale octets come with the first (log entry
86). -/
def mvLoadSpans (o : MvOp) (i : Nat) : List (Nat × Nat) :=
  let n := rowBytes (cAFmt o.cfg) o.k
  let part := (List.range o.m).flatMap (fun v =>
    let lo := max (256 * i) (v * n)
    let hi := min (256 * i + 256) (v * n + n)
    if lo < hi then [(o.vsrc + v * o.vstride + (lo - v * n), hi - lo)] else [])
  if i == 0 && isMx (cAFmt o.cfg) then
    part ++ (List.range o.m).map (fun v => (o.vscale + v * o.vstride, ceilDiv o.k 32))
  else part

/-- R259: the pass and the columns of a matrix cycle. -/
def mvStepOf (o : MvOp) (s : Nat) : Nat × List Nat :=
  let c := mvCols (cAFmt o.cfg) o.m
  let per := ceilDiv (cN o.cfg) c
  (s / per, (rangeFrom (s % per * c) c).filter (fun n => decide (n < cN o.cfg)))

/-- The part of a packed row that holds elements lo to hi − 1. -/
def packedSpan (fmt base lo hi : Nat) : Nat × Nat :=
  let b := codeBits fmt
  (base + lo * b / 8, ceilDiv (hi * b) 8 - lo * b / 8)

/-- What a matrix cycle reads of the operand cache. -/
def mvStepSpans (o : MvOp) (s : Nat) : List (Nat × Nat) :=
  let (j, cols) := mvStepOf o s
  let wfmt := cWFmt o.cfg
  let n0 := cols.headD 0
  let n1 := n0 + cols.length
  let e1 := min (16 * j + 16) o.k
  let body := if o.tr then cols.map (fun n => packedSpan wfmt (o.msrc + n * o.mstride) (16 * j) e1)
    else (rangeFrom (16 * j) (e1 - 16 * j)).map (fun e => packedSpan wfmt (o.msrc + e * o.mstride) n0 n1)
  if isMx wfmt then
    body ++ (if o.tr then cols.map (fun n => (o.mscale + n * o.mstride + j / 2, 1)) else [(o.mscale + j / 2 * cN o.cfg + n0, cols.length)])
  else body

/-- `mv.run` and `mv.run.acc` at issue. -/
def issueMv (k : Nat) (c : Core) (w : Nat) : SlotEff :=
  let arr := fld w 21 21
  let tile := fld w 20 16
  let mm := fld w 9 8
  let acc := swOp w == 0x09
  let vb := 4 * fld w 5 3
  let mb := 4 * fld w 2 0
  let kk := sreg c (vb + 3)
  if mm == 0 then .ok id
  else match cfgOf c arr (fld w 15 15) with
  | none => .error (0x0207, 0)
  | some cfg =>
    if acc && kk == 0 then .ok id
    else if cFold cfg || decide (kk > 4096) || (decide (tile > 15) && !cCompact cfg) then .error (0x0207, cfg)
    else
      let afmt := cAFmt cfg
      let wfmt := cWFmt cfg
      let hold := tbit w 6
      let tr := tbit w 7
      let vsrc := sreg c vb
      let vstr := sreg c (vb + 1)
      let vsc := sreg c (vb + 2)
      let msrc := sreg c mb
      let mstr := sreg c (mb + 1)
      let msc := sreg c (mb + 2)
      let kb := ceilDiv kk 32
      let mrows := if tr then cN cfg else kk
      let mlen := rowBytes wfmt (if tr then kk else cN cfg)
      if hold && c.heldShape != some (mm, kk, afmt) then .error (0x0203, 2)
      else if (!hold && (spanBad vsrc vstr mm (rowBytes afmt kk) || (isMx afmt && spanBad vsc vstr mm kb))) ||
          spanBad msrc mstr mrows mlen ||
          (isMx wfmt && (if tr then spanBad msc mstr (cN cfg) kb else !opcFits msc (kb * cN cfg))) then .error (0x0205, msrc)
      else if c.mvs.any (fun x => decide (x.start > c.aclk)) then .error (0x0206, 2)
      else
        let first := max (c.aclk + 2) (c.mvLast + 1)
        let load := if hold then 0 else ceilDiv (ceilDiv (mm * kk * codeBits afmt) 8) 256
        let per := ceilDiv (cN cfg) (mvCols afmt mm)
        let passes := ceilDiv kk 16
        let o : MvOp := {
          arr := arr, tile := tile, row0 := fld w 14 10, m := mm, k := kk, cfg := cfg, acc := acc, tr := tr, vsrc := vsrc,
          vstride := vstr, vscale := vsc, msrc := msrc, mstride := mstr, mscale := msc, start := first, plan := [],
          retire := 0, wb := c.writebacks.get (wbKey arr tile) 0, pc := c.pc }
        let (loads, begin, x1) := feederPlan first (mvLoadSpans o) (List.range load)
        let (plan, stop, x2) := feederPlan begin (mvStepSpans o) (List.range (passes * per))
        let lastM := stop - 1
        let o1 := { o with loads := loads, plan := plan, retire := lastM + mulStages afmt + 2 + 16 / cGroup cfg }
        .ok (fun m =>
          let m1 := countN 0x6300 0x07 (x1 + x2) (modCore k (fun c => { c with
            mvs := c.mvs ++ [o1], mvLast := lastM, heldShape := some (mm, kk, afmt),
            writebacks := if cCompact cfg then c.writebacks.put (wbKey arr tile) (o.wb + 1) else c.writebacks }) m)
          if cMode cfg != 0 then count 0x6200 0x0A m1 else m1)

/-- The result of column n in pass j of the matrix-vector path for vector v (R257, R254). The scale octets of a matrix lie at MScale, those
of a column MStride apart where it is transposed and else N apart in K: DESIGN CHOICE, R215 gives their order only (log entry 97). -/
def mvCol (c : Core) (o : MvOp) (v j n : Nat) : Nat :=
  let afmt := cAFmt o.cfg
  let wfmt := cWFmt o.cfg
  let mode := cMode o.cfg
  let isInt := intAcc mode afmt
  let vec := c.heldVec.getD v []
  let act (e : Nat) : FVal :=
    let x := elemVal afmt (vec.getD e 0)
    if isMx afmt then scaled ((c.heldScale.getD v []).getD (e / 32) 127) x else x
  let wt (e : Nat) : FVal :=
    let x := if o.tr then elemVal wfmt (elemCode c wfmt (o.msrc + n * o.mstride) e)
      else elemVal wfmt (elemCode c wfmt (o.msrc + e * o.mstride) n)
    if isMx wfmt then
      scaled (cellGet c.opc (if o.tr then o.mscale + n * o.mstride + e / 32 else o.mscale + (e / 32) * cN o.cfg + n)).toNat x
    else x
  columnResult mode (cGroup o.cfg) isInt ((List.range 16).map (fun i =>
    let e := 16 * j + i
    if e < o.k then some (cellVal mode isInt (act e) (wt e)) else none))

/-- A vector-load cycle: the elements of its octets become held; the first clears what was held and takes the scale octets. -/
def loadVectors (o : MvOp) (c : Core) (i : Nat) : Core :=
  let afmt := cAFmt o.cfg
  let n := rowBytes afmt o.k
  let old := if i == 0 then List.replicate o.m (List.replicate o.k 0) else c.heldVec
  goodPar (· == .vectors) { c with
    heldVec := (List.range o.m).map (fun v => (List.range o.k).map (fun e =>
      if (v * n + e * codeBits afmt / 8) / 256 == i then elemCode c afmt (o.vsrc + v * o.vstride) e else (old.getD v []).getD e 0)),
    heldScale := if i != 0 then c.heldScale
      else if isMx afmt then (List.range o.m).map (fun v => (List.range (ceilDiv o.k 32)).map (fun b =>
        (cellGet c.opc (o.vscale + v * o.vstride + b)).toNat)) else [] }

/-- R257 to R259: the running values after a matrix cycle; the first reads the tile rows where the operation accumulates. -/
def mvStep (c : Core) (o : MvOp) (s : Nat) : MvOp × Nat :=
  let mode := cMode o.cfg
  let isInt := intAcc mode (cAFmt o.cfg)
  let compact := cCompact o.cfg
  let (j, cols) := mvStepOf o s
  let run0 := if !o.first then o.run else (List.range o.m).map (fun v => (List.range (cN o.cfg)).map (fun n =>
    if o.acc then
      let old := accGet c o.arr o.tile compact (o.row0 + v) n
      if compact then BF16.cvt F32 .rne false old else old
    else 0))
  let part := (List.range o.m).map (fun v => cols.map (fun n =>
    let p := mvCol c o v j n
    if j == 0 && !o.acc then (p, false) else accumulate mode isInt ((run0.getD v []).getD n 0) p))
  let run := (run0.zip part).map (fun rp => (rp.1.zip (List.range rp.1.length)).map (fun xn =>
    if cols.contains xn.2 then ((rp.2.getD (xn.2 - cols.headD 0) (0, false)).1) else xn.1))
  ({ o with run := run, first := false }, ((part.flatMap id).filter Prod.snd).length)

/-- The reads of a matrix-vector operation due at a cycle. -/
def feedMv (now : Nat) (c : Core) (o : MvOp) : Core × MvOp × Nat :=
  let c1 := (o.loads.filter (fun p => decide (p.1 ≤ now))).foldl (fun c p => loadVectors o c p.2) c
  let r := (o.plan.filter (fun p => decide (p.1 ≤ now))).foldl (fun (acc : MvOp × Nat) p =>
    let (o2, n) := mvStep c1 acc.1 p.2
    (o2, acc.2 + n)) (o, 0)
  (c1, { r.1 with loads := o.loads.filter (fun p => decide (now < p.1)), plan := o.plan.filter (fun p => decide (now < p.1)) }, r.2)

/-- R259, R258, R255: a matrix-vector operation writes its rows; the draws of a compact one use the step number (R503). -/
def writeMv (k : Nat) (o : MvOp) (m : Mach) : Mach :=
  let c := coreAt m k
  let x := ctxAt m c.ctx
  let compact := cCompact o.cfg
  if compact && !stepPairOk x then stepFault c.ctx m else
  let run := if o.k == 0 then List.replicate o.m (List.replicate (cN o.cfg) 0) else o.run
  let cells := (run.zip (List.range run.length)).flatMap (fun lv =>
    (lv.1.zip (List.range lv.1.length)).map (fun pn => (o.row0 + lv.2, pn.2, pn.1)))
  setCore k (cells.foldl (fun cc (cell : Nat × Nat × Nat) =>
    let v := if compact then
        BF16.narrow (.sr (srKeyCompact x.seed x.step k o.arr o.tile o.wb (cell.1 * 32 + cell.2.1))) false (F32.decode cell.2.2)
      else cell.2.2
    accPut o.arr o.tile compact cell.1 cell.2.1 v cc) c) m

/-- A matrix-vector operation retires; it has written its rows unless that is still to do. -/
def retireMv (k : Nat) (o : MvOp) (m : Mach) : Mach :=
  count 0x6200 0x08 (modCore k (fun c => { c with mvs := c.mvs.erase o }) (if o.done then m else writeMv k o m))

/-! ### Delays by scalar accesses (R325) -/

/-- Every item of a plan one cycle later. -/
def later {α : Type} (l : List (Nat × α)) : List (Nat × α) := l.map (fun p => (p.1 + 1, p.2))

/-- The last cycle of a plan. -/
def lastOf {α : Type} (l : List (Nat × α)) : Nat := (l.map Prod.fst).foldl max 0

/-- A scalar access to a bank in a cycle meets the read that a weight load makes. -/
def delayBank (now bk : Nat) (b : Bank) : Bank × Nat :=
  match b.plan with
  | [] => (b, 0)
  | p :: _ =>
    if readsIn now p.1 (bankSpans b p.2) && needsBank bk (bankSpans b p.2) then ({ b with plan := later b.plan, ready := b.ready + 1 }, 1)
    else (b, 0)

/-- The same for array operations, in the order of their issue: one whose entry would no longer come after the last entry of the
operation before it on its array moves with it (R248). -/
def delayOps (c : Core) (now bk : Nat) : List MxOp → List Nat → List MxOp × Nat
  | [], _ => ([], 0)
  | o :: r, last =>
    match o.plan with
    | [] => let (l, n) := delayOps c now bk r last; (o :: l, n)
    | p :: _ =>
      let spans := p.2.flatMap (rowSpans c o)
      let hit := readsIn now p.1 spans && needsBank bk spans
      let push := decide (p.1 + 1 < last.getD o.arr 0 + 1 + (if o.bitmap then 1 else 0) + readCycles spans)
      let o1 := if hit || push then
          { o with plan := later o.plan, retire := o.retire + 1, start := if now ≤ o.start then o.start + 1 else o.start } else o
      let (l, n) := delayOps c now bk r (last.set o.arr (lastOf o1.plan))
      (o1 :: l, n + (if hit then 1 else 0))

/-- The same for the matrix-vector path. -/
def delayMvs (now bk : Nat) : List MvOp → Nat → List MvOp × Nat
  | [], _ => ([], 0)
  | o :: r, last =>
    let next : Option (Nat × List (Nat × Nat)) := match o.loads with
      | p :: _ => some (p.1, mvLoadSpans o p.2)
      | [] => o.plan.head?.map (fun p => (p.1, mvStepSpans o p.2))
    match next with
    | none => let (l, n) := delayMvs now bk r last; (o :: l, n)
    | some p =>
      let hit := readsIn now p.1 p.2 && needsBank bk p.2
      let push := decide (p.1 + 1 < last + 1 + readCycles p.2)
      let o1 := if hit || push then
          { o with loads := later o.loads, plan := later o.plan, retire := o.retire + 1,
                   start := if now ≤ o.start then o.start + 1 else o.start } else o
      let (l, n) := delayMvs now bk r (lastOf o1.plan)
      (o1 :: l, n + (if hit then 1 else 0))

/-- R325: a scalar access to a bank delays every feeder's read that needs the bank in the same cycle. -/
def delayFeeds (k bk : Nat) (m : Mach) : Mach :=
  let c := coreAt m k
  let now := c.aclk
  let banks := c.banks.map (delayBank now bk)
  let (ops, n) := delayOps c now bk c.ops [0, 0]
  let (mvs, q) := delayMvs now bk c.mvs 0
  let last (a : Nat) : Nat := max (c.lastEntry.getD a 0) (lastOf ((ops.filter (fun o => o.arr == a)).flatMap (·.plan)))
  countN 0x6300 0x07 ((banks.list.map Prod.snd).foldl (· + ·) 0 + n + q) (setCore k
    { c with banks := banks.map Prod.fst, ops := ops, mvs := mvs, lastEntry := [last 0, last 1],
             mvLast := max c.mvLast (lastOf (mvs.flatMap (·.plan))) } m)

/-! ### The M slot -/

/-- R264, R255: the tile that an M-slot word names, if any. -/
def mTile (c : Core) (w : Nat) : Option Nat :=
  let op := swOp w
  if op == 0x02 || op == 0x03 || op == 0x11 || op == 0x12 || op == 0x14 then
    if fld w 13 8 == 0 then none
    else match cfgOf c (fld w 21 21) (fld w 14 14) with
      | none => none
      | some cfg => if op == 0x03 && cK cfg == 0 then none else some (tileKey (fld w 21 21) (fld w 19 15) (cCompact cfg))
  else if op == 0x08 || op == 0x09 then
    if fld w 9 8 == 0 then none
    else match cfgOf c (fld w 21 21) (fld w 15 15) with
      | none => none
      | some cfg =>
        if op == 0x09 && sreg c (4 * fld w 5 3 + 3) == 0 then none
        else some (tileKey (fld w 21 21) (fld w 20 16) (cCompact cfg))
  else if op == 0x0C || op == 0x0D then some (tileKey (fld w 21 21) (fld w 20 16) (tbit w 15))
  else none

/-- An M-slot word at issue. -/
def issueM (m : Mach) (k : Nat) (c : Core) (w : Nat) : SlotEff :=
  match swOp w with
  | 0x01 => issueWld k c w
  | 0x02 | 0x03 | 0x11 | 0x12 | 0x14 => issueMx m k c w
  | 0x04 => issueCfg k c w
  | 0x08 | 0x09 => issueMv k c w
  | 0x0C | 0x0D => issueDbg m k c w
  | 0x10 => issueSwld k c w
  | 0x13 => issuePmask m k c w
  | _ => .ok id

/-- R267: a parity error that the matrix unit finds, after issue. -/
def mxError (k code pc detail : Nat) (m : Mach) : Mach := coreError k code 255 false pc detail (count 0x6200 0x0C m)

/-- R244, R267: what the feeders find in a cycle: a bank that is not ready when a row enters against it; parity errors in what they
read. -/
def feedFaults (k : Nat) (c : Core) (m : Mach) : Mach :=
  let now := c.aclk
  let due {α : Type} (l : List (Nat × α)) : List α := (l.filter (fun p => decide (p.1 ≤ now))).map Prod.snd
  let m1 := c.ops.foldl (fun m o =>
    let rows := (due o.plan).flatMap id
    let ix := bankIx o.arr o.bank
    if rows.isEmpty then m
    else if now < (bankAt c ix).ready then coreFault k 0x0203 255 false o.pc ix m
    else if opcParBad c (rows.flatMap (rowSpans c o)) || c.par.contains (.bank ix) then mxError k 0x0201 o.pc o.src m
    else m) m
  let m2 := c.banks.list.foldl (fun m b =>
    if opcParBad c ((due b.plan).flatMap (bankSpans b)) then mxError k 0x0201 b.pc b.src m else m) m1
  c.mvs.foldl (fun m o =>
    let steps := due o.plan
    let rows := (List.range o.m).map (fun v => (accAddr o.arr o.tile (cCompact o.cfg) (o.row0 + v) 0, if cCompact o.cfg then 64 else 128))
    if opcParBad c ((due o.loads).flatMap (mvLoadSpans o) ++ steps.flatMap (mvStepSpans o)) ||
        (!steps.isEmpty && c.par.contains .vectors) then mxError k 0x0201 o.pc o.msrc m
    else if o.acc && o.first && !steps.isEmpty && accParBad c rows then mxError k 0x0202 o.pc o.tile m
    else m) m2

/-- R250, R251, R259: what is written to the tiles in a cycle; a row that accumulates reads its tile row (0x0202). -/
def settleCycle (k : Nat) (m : Mach) : Mach :=
  let c := coreAt m k
  let now := c.aclk
  let m1 := c.ops.foldl (fun m o =>
    let rows := o.res.filter (fun r => decide (r.1 ≤ now))
    let spans := rows.map (fun r => (accAddr o.arr o.tile (cCompact o.cfg) (o.row0 + r.2.1) 0, if cCompact o.cfg then 64 else 128))
    let m := if o.op != 0x02 && o.op != 0x11 && accParBad c spans then mxError k 0x0202 o.pc o.tile m else m
    if rows.isEmpty then m else writeRows k o rows m) m
  let spent (o : MvOp) : Bool := o.loads.isEmpty && o.plan.isEmpty && decide (o.retire ≤ now)
  let m2 := c.mvs.foldl (fun m o => if spent o && !o.done then writeMv k o m else m) m1
  modCore k (fun c => { c with
    ops := c.ops.map (fun o => { o with res := o.res.filter (fun r => decide (now < r.1)) }),
    mvs := c.mvs.map (fun o => { o with done := o.done || spent o }) }) m2

/-- Everything that the arrays, the weight feeders and the matrix-vector path do in the core's present cycle. -/
def feedCycle (k : Nat) (m : Mach) : Mach :=
  let c := coreAt m k
  let now := c.aclk
  let fed := c.ops.map (feedOp c now)
  let fold := ((c.ops.zip fed).map (fun p => if cFold p.1.cfg then p.2.2 else 0)).foldl (· + ·) 0
  let sparse := ((c.ops.zip fed).map (fun p => if p.1.op == 0x11 || p.1.op == 0x12 then p.2.2 else 0)).foldl (· + ·) 0
  let rows := (fed.map Prod.snd).foldl (· + ·) 0
  let banks := c.banks.map (feedBank c now)
  let mv := c.mvs.foldl (fun (acc : Core × List MvOp × Nat) o =>
    let (c1, o1, n) := feedMv now acc.1 o
    (c1, acc.2.1 ++ [o1], acc.2.2 + n)) (c, [], 0)
  let c1 := { mv.1 with ops := fed.map Prod.fst, banks := banks, mvs := mv.2.1 }
  let steps := (c.mvs.map (fun o => (o.plan.filter (fun p => decide (p.1 ≤ now))).length)).sum
  feedFaults k c (settleCycle k (countN 0x6200 0x09 steps (countN 0x6200 0x01 rows (countN 0x6200 0x02 fold (countN 0x6200 0x20 sparse
    (countN 0x6200 0x0B mv.2.2 (setCore k c1 m)))))))

end Sys2Proof.Machine
end

