-- ==== Sys2Proof/Machine/NumTab.lean ====
section
/-!
DEFINITION. The tables and constants of `ve.fn` (09 R336): each entry is the binary32 code nearest to the stated real,
computed outside Lean in exact decimal arithmetic, and the evaluation that defines every result bit for bit.
-/

namespace Sys2Proof.Machine

/-- T[j] = RN(2^(j/64)). -/
def tabT : List Nat := [
  0x3F800000, 0x3F8164D2, 0x3F82CD87, 0x3F843A29, 0x3F85AAC3, 0x3F871F62, 0x3F88980F, 0x3F8A14D5,
  0x3F8B95C2, 0x3F8D1ADF, 0x3F8EA43A, 0x3F9031DC, 0x3F91C3D3, 0x3F935A2B, 0x3F94F4F0, 0x3F96942D,
  0x3F9837F0, 0x3F99E046, 0x3F9B8D3A, 0x3F9D3EDA, 0x3F9EF532, 0x3FA0B051, 0x3FA27043, 0x3FA43516,
  0x3FA5FED7, 0x3FA7CD94, 0x3FA9A15B, 0x3FAB7A3A, 0x3FAD583F, 0x3FAF3B79, 0x3FB123F6, 0x3FB311C4,
  0x3FB504F3, 0x3FB6FD92, 0x3FB8FBAF, 0x3FBAFF5B, 0x3FBD08A4, 0x3FBF179A, 0x3FC12C4D, 0x3FC346CD,
  0x3FC5672A, 0x3FC78D75, 0x3FC9B9BE, 0x3FCBEC15, 0x3FCE248C, 0x3FD06334, 0x3FD2A81E, 0x3FD4F35B,
  0x3FD744FD, 0x3FD99D16, 0x3FDBFBB8, 0x3FDE60F5, 0x3FE0CCDF, 0x3FE33F89, 0x3FE5B907, 0x3FE8396A,
  0x3FEAC0C7, 0x3FED4F30, 0x3FEFE4BA, 0x3FF28177, 0x3FF5257D, 0x3FF7D0DF, 0x3FFA83B3, 0x3FFD3E0C]

/-- RC[j] = RN(1 / (1 + (j + 0.5)/64)). -/
def tabRC : List Nat := [
  0x3F7E03F8, 0x3F7A232D, 0x3F76603E, 0x3F72B9D6, 0x3F6F2EB7, 0x3F6BBDB3, 0x3F6865AC, 0x3F652598,
  0x3F61FC78, 0x3F5EE95C, 0x3F5BEB62, 0x3F5901B2, 0x3F562B81, 0x3F53680D, 0x3F50B6A0, 0x3F4E168A,
  0x3F4B8728, 0x3F4907DA, 0x3F46980C, 0x3F443730, 0x3F41E4BC, 0x3F3FA030, 0x3F3D6910, 0x3F3B3EE7,
  0x3F392144, 0x3F370FBB, 0x3F3509E7, 0x3F330F63, 0x3F311FD4, 0x3F2F3ADE, 0x3F2D602B, 0x3F2B8F6A,
  0x3F29C84A, 0x3F280A81, 0x3F2655C4, 0x3F24A9CF, 0x3F23065E, 0x3F216B31, 0x3F1FD80A, 0x3F1E4CAD,
  0x3F1CC8E1, 0x3F1B4C70, 0x3F19D723, 0x3F1868C8, 0x3F17012E, 0x3F15A025, 0x3F144581, 0x3F12F114,
  0x3F11A2B4, 0x3F105A38, 0x3F0F177A, 0x3F0DDA52, 0x3F0CA29C, 0x3F0B7034, 0x3F0A42F8, 0x3F091AC7,
  0x3F07F781, 0x3F06D905, 0x3F05BF37, 0x3F04A9FA, 0x3F039930, 0x3F028CC0, 0x3F01848E, 0x3F008081]

/-- G[j] = RN(log2(1 + (j + 0.5)/64)). -/
def tabG : List Nat := [
  0x3C37F286, 0x3D08E68F, 0x3D626FD6, 0x3D9D517F, 0x3DC8C50B, 0x3DF39761, 0x3E0EE68D, 0x3E23B550,
  0x3E383A17, 0x3E4C76E8, 0x3E606DB6, 0x3E74205F, 0x3E83C857, 0x3E8D602E, 0x3E96D888, 0x3EA03232,
  0x3EA96DF0, 0x3EB28C7F, 0x3EBB8E96, 0x3EC474E4, 0x3ECD4012, 0x3ED5F0C4, 0x3EDE8797, 0x3EE70525,
  0x3EEF69FF, 0x3EF7B6B4, 0x3EFFEBCD, 0x3F0404E8, 0x3F08089E, 0x3F0C0146, 0x3F0FEF1F, 0x3F13D260,
  0x3F17AB44, 0x3F1B7A00, 0x3F1F3ECA, 0x3F22F9D5, 0x3F26AB53, 0x3F2A5374, 0x3F2DF268, 0x3F31885C,
  0x3F35157D, 0x3F3899F5, 0x3F3C15EE, 0x3F3F8991, 0x3F42F506, 0x3F465872, 0x3F49B3FB, 0x3F4D07C7,
  0x3F5053F7, 0x3F5398AF, 0x3F56D60F, 0x3F5A0C3A, 0x3F5D3B4E, 0x3F60636A, 0x3F6384AD, 0x3F669F35,
  0x3F69B31E, 0x3F6CC083, 0x3F6FC781, 0x3F72C832, 0x3F75C2B0, 0x3F78B714, 0x3F7BA578, 0x3F7E8DF2]

/-- RS[j] = RN(1 / sqrt(1 + (j + 0.5)/32)), j from 0 to 47. -/
def tabRSlo : List Nat := [
  0x3F7E05EC, 0x3F7A33F9, 0x3F768CDC, 0x3F730D8A, 0x3F6FB345, 0x3F6C7B90, 0x3F69642A, 0x3F666B02,
  0x3F638E39, 0x3F60CC16, 0x3F5E2305, 0x3F5B9193, 0x3F59166B, 0x3F56B051, 0x3F545E22, 0x3F521ED0,
  0x3F4FF162, 0x3F4DD4ED, 0x3F4BC89B, 0x3F49CBA2, 0x3F47DD45, 0x3F45FCD6, 0x3F4429AF, 0x3F426337,
  0x3F40A8DE, 0x3F3EFA1C, 0x3F3D5671, 0x3F3BBD67, 0x3F3A2E8C, 0x3F38A975, 0x3F372DBF, 0x3F35BB09,
  0x3F3450FC, 0x3F32EF41, 0x3F319589, 0x3F304387, 0x3F2EF8F2, 0x3F2DB587, 0x3F2C7904, 0x3F2B432A,
  0x3F2A13C0, 0x3F28EA8C, 0x3F27C759, 0x3F26A9F4, 0x3F25922C, 0x3F247FD3, 0x3F2372BD, 0x3F226ABE]

/-- RS[j], j from 48 to 95. -/
def tabRShi : List Nat := [
  0x3F2167AF, 0x3F206968, 0x3F1F6FC4, 0x3F1E7AA0, 0x3F1D89D9, 0x3F1C9D4E, 0x3F1BB4E1, 0x3F1AD073,
  0x3F19EFE6, 0x3F191320, 0x3F183A05, 0x3F17647C, 0x3F16926C, 0x3F15C3BC, 0x3F14F857, 0x3F143026,
  0x3F136B13, 0x3F12A90B, 0x3F11E9F9, 0x3F112DCA, 0x3F10746D, 0x3F0FBDCE, 0x3F0F09DD, 0x3F0E5889,
  0x3F0DA9C2, 0x3F0CFD79, 0x3F0C539F, 0x3F0BAC25, 0x3F0B06FD, 0x3F0A641A, 0x3F09C36D, 0x3F0924EC,
  0x3F088889, 0x3F07EE37, 0x3F0755ED, 0x3F06BF9E, 0x3F062B40, 0x3F0598C7, 0x3F05082A, 0x3F04795F,
  0x3F03EC5C, 0x3F036117, 0x3F02D788, 0x3F024FA6, 0x3F01C967, 0x3F0144C4, 0x3F00C1B4, 0x3F004030]

def fnC1 : Nat := 0x3F317218
def fnC2 : Nat := 0x3E75FDF0
def fnC3 : Nat := 0x3D635847
def fnL2E : Nat := 0x3FB8AA3B
def fnL2L : Nat := 0x32A57060
def fnD1 : Nat := 0x3FB8AA3B
def fnD2 : Nat := 0xBF38AA3B
def fnD3 : Nat := 0x3EF6384F
def fnD4 : Nat := 0xBEB8AA3B
def fnThird : Nat := 0xBEAAAAAB
def fnGeluA : Nat := 0x3FCC4229
def fnGeluB : Nat := 0x3D372713

/-- RNE arithmetic on binary32 codes. -/
def fA (a b : Nat) : Nat := F32.addC .rne false a b
def fS (a b : Nat) : Nat := F32.subC .rne false a b
def fM (a b : Nat) : Nat := F32.mulC .rne false a b
def fMA (a b c : Nat) : Nat := F32.fmaC .rne false a b c
/-- Changes the sign bit. -/
def fN (a : Nat) : Nat := if a ≥ 0x80000000 then a - 0x80000000 else a + 0x80000000
def f32One : Nat := 0x3F800000
def f32Inf : Nat := 0x7F800000
def f32NaN : Nat := 0x7FC00000

/-- `scale2(y, k)` of R336. -/
def scale2 (y : Nat) (k : Int) : Nat := F32.narrow .rne false (scaleV (F32.decode y) k)

/-- ⌊v⌋ of a finite value. -/
def floorV (v : FVal) : Int :=
  match v with
  | .fin n m e =>
    let (k, r, _) := scaleAt m 1 e 0
    if n then -(k : Int) - (if r == 0 then 0 else 1) else k
  | _ => 0

/-- `exp2k` of R336. -/
def exp2k (hi lo : Nat) : Nat :=
  let v := F32.decode hi
  if !(v.lt (ofInt 128)) then f32Inf
  else if v.lt (ofInt (-151)) then 0
  else
    let n := floorV (scaleV v 6)
    let r := fA (fS hi (F32.narrow .rne false (scaleV (ofInt n) (-6)))) lo
    let p := fM (fMA (fMA fnC3 r fnC2) r fnC1) r
    let t := tabT.getD (n % 64).toNat 0
    scale2 (fMA t p t) (n / 64)

/-- The mantissa in [1, 2) as a binary32 code, and the exponent, of a finite non-zero value. -/
def normParts (x : Nat) : Nat × Int :=
  match F32.decode x with
  | .fin _ m e =>
    let l := Nat.log2 m
    (0x3F800000 + ((m <<< (23 - l)) - 2 ^ 23), e + l)
  | _ => (f32One, 0)

/-- exp. -/
def fnExp (x : Nat) : Nat :=
  match F32.decode x with
  | .nan => f32NaN
  | .inf n => if n then 0 else f32Inf
  | _ =>
    let hi := fM x fnL2E
    exp2k hi (fA (fMA x fnL2E (fN hi)) (fM x fnL2L))

/-- log. -/
def fnLog (x : Nat) : Nat :=
  match F32.decode x with
  | .nan => f32NaN
  | .inf n => if n then f32NaN else f32Inf
  | .fin n m _ =>
    if m == 0 then 0xFF800000
    else if n then f32NaN
    else
      let (mc, e) := normParts x
      let j := fld mc 22 17
      let f := fMA mc (tabRC.getD j 0) 0xBF800000
      let q := fM f (fMA (fMA (fMA fnD4 f fnD3) f fnD2) f fnD1)
      fM (fA (fA (i32ToF32 e) (tabG.getD j 0)) q) fnC1

/-- recip. -/
def fnRecip (x : Nat) : Nat :=
  let sg := if x ≥ 0x80000000 then 0x80000000 else 0
  match F32.decode x with
  | .nan => f32NaN
  | .inf _ => sg
  | .fin _ m _ =>
    if m == 0 then sg + f32Inf
    else
      let (mc, e) := normParts x
      let it (y : Nat) : Nat := fMA y (fMA (fN mc) y f32One) y
      let y := it (it (tabRC.getD (fld mc 22 17) 0))
      sg + scale2 y (-e)

/-- rsqrt. -/
def fnRsqrt (x : Nat) : Nat :=
  match F32.decode x with
  | .nan => f32NaN
  | .inf n => if n then f32NaN else 0
  | .fin n m _ =>
    if m == 0 then (if n then 0xFF800000 else f32Inf)
    else if n then f32NaN
    else
      let (mc, e) := normParts x
      let odd := e % 2 == 1
      let m1 := if odd then mc + 0x00800000 else mc
      let e1 := if odd then e - 1 else e
      let j := (floorV (scaleV ((F32.decode m1).add false (ofInt (-1))) 5)).toNat
      let h := fM 0x3F000000 m1
      let it (y : Nat) : Nat := fM y (fMA (fN (fM h y)) y 0x3FC00000)
      let y := it (it ((tabRSlo ++ tabRShi).getD j 0))
      scale2 y (-(e1 / 2))

/-- sigmoid. -/
def fnSigmoid (x : Nat) : Nat := if F32.isNanC x then f32NaN else fnRecip (fA f32One (fnExp (fN x)))

/-- tanh. -/
def fnTanh (x : Nat) : Nat :=
  if F32.isNanC x then f32NaN
  else if (F32.decode x).abs.lt (.fin false 1 (-6)) then fMA (fM fnThird (fM x x)) x x
  else fMA 0x40000000 (fnSigmoid (fM 0x40000000 x)) 0xBF800000

/-- gelu. -/
def fnGelu (x : Nat) : Nat := fM x (fnSigmoid (fM fnGeluA (fMA (fM fnGeluB (fM x x)) x x)))

/-- silu. -/
def fnSilu (x : Nat) : Nat := fM x (fnSigmoid x)

/-- `ve.fn` by its function code. -/
def veFn (code x : Nat) : Nat :=
  match code with
  | 0 => fnExp x
  | 1 => fnLog x
  | 2 => fnRecip x
  | 3 => fnRsqrt x
  | 4 => fnSigmoid x
  | 5 => fnTanh x
  | 6 => fnGelu x
  | _ => fnSilu x

end Sys2Proof.Machine
end

