-- ==== Sys2Proof/Machine/CoreVector.lean ====
section
/-!
DEFINITION. The vector engine (09): lane operations, loads and stores, reductions, the sequence unit, conversions,
transcendental functions and drains. Operands are read at issue; a result with latency L is written at the end of
pipeline cycle n + L − 1 (R320).
-/

namespace Sys2Proof.Machine

def vreg (c : Core) (r : Nat) : List Nat := c.v.getD r []

/-- R319: the 128 elements of a bfloat16 register, and their packing into lanes. -/
def elems16 (l : List Nat) : List Nat := l.flatMap (fun x => [x % 65536, x / 65536 % 65536])
def pack16 : List Nat → List Nat
  | a :: b :: r => (a + b * 65536) :: pack16 r
  | _ => []

/-- Adds a pending write. -/
def pendV (k : Nat) (x : VWrite) (m : Mach) : Mach := modCore k (fun c => { c with vpend := c.vpend ++ [x] }) m

/-- A lane result of latency `lat` for an instruction issued in the core's present pipeline cycle. -/
def lanesAt (k : Nat) (c : Core) (lat vd : Nat) (vals : List Nat) : Mach → Mach := pendV k (.lanes (c.pipe + lat - 1) vd vals)

/-- A NaN as the canonical one (R210). -/
def canon32 (x : Nat) : Nat := if F32.isNanC x then F32.nanCode else x
def canonIn (f : FFmt) (x : Nat) : Nat := if f.isNanC x then f.nanCode else x

/-- Maximum or minimum in binary32 or bfloat16. -/
def minMaxIn (f : FFmt) (isMin : Bool) (a b : Nat) : Nat :=
  let up (x : Nat) : Nat := if f == BF16 then x * 65536 else x
  canonIn f (if takeB isMin (up a) (up b) then b else a)

/-- One element of `ve.add` to `ve.min` in binary32 (R234). -/
def laneOp32 (op : Nat) (md : Rnd) (sat : Bool) (a b c : Nat) : Nat :=
  match op with
  | 0x01 => F32.addC md sat a b
  | 0x02 => F32.subC md sat a b
  | 0x03 => F32.mulC md sat a b
  | 0x04 => F32.fmaC md sat a b c
  | 0x05 => minMaxIn F32 false a b
  | _ => minMaxIn F32 true a b

/-- R234: a bfloat16 element is computed in binary32, and that result is rounded to bfloat16, both by the rounding field. -/
def laneOp (f : FFmt) (op : Nat) (md : Rnd) (sat : Bool) (a b c : Nat) : Nat :=
  if f == BF16 then
    let w (x : Nat) : Nat := BF16.cvt F32 .rne false x
    F32.cvt BF16 md sat (laneOp32 op md sat (w a) (w b) (w c))
  else laneOp32 op md sat a b c

/-- Zips three lists. -/
def zip3With (g : Nat → Nat → Nat → Nat) : List Nat → List Nat → List Nat → List Nat
  | a :: as, b :: bs, c :: cs => g a b c :: zip3With g as bs cs
  | _, _, _ => []

/-- Applies an element function by Type (0x0 or 0x2) to three registers. -/
def byType (ty : Nat) (g : FFmt → Nat → Nat → Nat → Nat) (a b c : List Nat) : List Nat :=
  if ty == 2 then pack16 (zip3With (g BF16) (elems16 a) (elems16 b) (elems16 c)) else zip3With (g F32) a b c

/-- R328: the comparison of `ve.cmp`. -/
def cmpHolds (f : FFmt) (func a b : Nat) : Bool :=
  let x := f.decode a
  let y := f.decode b
  match func with
  | 0 => x.eqv y
  | 1 => x.lt y
  | 2 => x.lt y || x.eqv y
  | _ => x.isNan || y.isNan

/-- R328: `ve.mov`: move, absolute value, negate. -/
def movOp (f : FFmt) (func a : Nat) : Nat :=
  let sb := 2 ^ (f.eb + f.mb)
  canonIn f (match func with
    | 1 => if a ≥ sb then a - sb else a
    | 2 => if a ≥ sb then a - sb else a + sb
    | _ => a)

/-- R327: octets moved, and their placement. -/
def elemBytes (e : Nat) : Nat := match e with | 0 => 256 | 1 => 128 | 2 => 64 | _ => 32
def loadLanes (e : Nat) (bs : List Byte) : List Nat :=
  (List.range 64).map (fun i =>
    match e with
    | 0 => octs bs (4 * i) 4
    | 1 => octs bs (2 * i) 2
    | 2 => octs bs i 1
    | _ => let b := octs bs (i / 2) 1; if i % 2 == 0 then b % 16 else b / 16)
def storeBytes (e : Nat) (l : List Nat) : List Byte :=
  match e with
  | 0 => l.flatMap (leBytes 4)
  | 1 => l.flatMap (leBytes 2)
  | 2 => l.flatMap (leBytes 1)
  | _ => (pairNib l).flatMap (leBytes 1)
where
  /-- Two 4-bit elements an octet. -/
  pairNib : List Nat → List Nat
    | a :: b :: r => (a % 16 + b % 16 * 16) :: pairNib r
    | _ => []

/-- R331: octets of an indexed element. -/
def idxSize (ty : Nat) : Nat := match codeBits ty with | 32 => 4 | 16 => 2 | _ => 1

/-- R329: comparison of reductions on the element kind: binary32 or INT32. -/
def redTake (isInt isMin : Bool) (a b : Nat) : Bool :=
  if isInt then (if isMin then decide (sxt 32 b < sxt 32 a) else decide (sxt 32 a < sxt 32 b)) else takeB isMin a b

/-- One level of the tree. -/
def redLevel (isInt : Bool) (func : Nat) : List (Nat × Nat) → List (Nat × Nat)
  | a :: b :: r =>
    (if func == 0 then
        ((if isInt then toU 32 (satI32 (sxt 32 a.1 + sxt 32 b.1)) else F32.addC .rne false a.1 b.1), a.2)
      else if redTake isInt (func == 2) a.1 b.1 then b else a) :: redLevel isInt func r
  | l => l

/-- R329: the value of `ve.red`. -/
def veRed (isInt : Bool) (func : Nat) (xs : List Nat) : Nat :=
  match iter 7 (redLevel isInt func) (xs.zip (List.range xs.length)) with
  | x :: _ => if func == 3 then x.2 else if isInt then x.1 else canon32 x.1
  | [] => 0

/-- The carry record of R332. -/
structure Carry where
  label : Nat
  value : Nat
  position : Nat
  arg : Nat
deriving DecidableEq, Repr

/-- R333: the scan; `prev` is the previous lane's label. -/
def segScan (func : Nat) : List (Nat × Nat) → Option Nat → Carry → List Nat × Carry
  | [], _, c => ([], c)
  | (v, lab) :: r, prev, c =>
    if lab == 0xFFFFFFFF then (List.replicate (r.length + 1) 0, c)
    else
      let cont := match prev with | none => decide (c.position > 0) && lab == c.label | some p => lab == p
      let c1 : Carry :=
        if !cont then ⟨lab, canon32 v, 0, 0⟩
        else if func == 0 then { c with value := F32.addC .rne false c.value v }
        else if takeB (func == 2) c.value v then { c with value := canon32 v, arg := c.position }
        else { c with value := canon32 c.value }
      let c2 := { c1 with position := (c1.position + 1) % 2 ^ 32 }
      let (l, c3) := segScan func r (some lab) c2
      ((if func == 3 then c2.arg else c2.value) :: l, c3)

/-- R220, R221, R334: narrows a binary32 code to a format; BITS8 takes the low bits as a bit move (R213). -/
def narrowLane (fmt : Nat) (md : Rnd) (sat : Bool) (x : Nat) : Nat :=
  if fmt == 0xE then x % 256
  else if fmt == 0 then canon32 x
  else narrowTo fmt md sat (F32.decode x)

/-- The rounding of a conversion field: SR takes its draw (R219, R222). -/
def rndDraw (field draw : Nat) : Rnd := if field == 4 then .sr draw else rndOf field

/-- The lanes of a register as octets that a V-slot store writes. -/
def storeAt (k : Nat) (atEnd off : Nat) (bs : List Byte) : Mach → Mach :=
  pendV k (.opc atEnd ((rangeFrom off bs.length).zip bs))

/-! ### Drains (R338 to R344) -/

/-- R341: octets of a drained row by format. -/
def drainRow (fmt : Nat) : Nat :=
  if isMx fmt then 64 else match codeBits fmt with | 32 => 128 | 16 => 64 | 8 => 32 | _ => 16

def eAct (e : Nat) : Nat := fld e 31 29
def eScale (e : Nat) : Bool := tbit e 28
def eBias (e : Nat) : Bool := tbit e 27
def eInt (e : Nat) : Bool := tbit e 26
def eFirst (e : Nat) : Nat := fld e 25 21
def eRows (e : Nat) : Nat := fld e 20 15
def eRing (e : Nat) : Nat := fld e 14 12
def eRingEn (e : Nat) : Bool := tbit e 11

/-- `ve.drain` at issue. -/
def issueDrain (m : Mach) (k : Nat) (c : Core) (w : Nat) : SlotEff :=
  let dest := fld w 14 13
  let fmt := fld w 12 9
  let rnd := fld w 8 6
  let compact := tbit w 15
  let tile := fld w 20 16
  let regs := (List.range 4).map (fun i => sreg c (4 * fld w 2 0 + i))
  match c.epis.getD (fld w 5 3) none with
  | none => .error (0x0305, 0)
  | some e =>
    let bad := decide (eAct e > 5) || eRows e == 0 || decide (eFirst e + eRows e > 32) || fld e 10 0 != 0 ||
      (eInt e && compact) || (decide (tile > 15) && !compact) ||
      (if dest == 1 then fmt != 0xC || rnd != 4 || eFirst e != 0 || eRows e != 32
       else fmt == 0xC || decide (regs.getD 1 0 < drainRow fmt))
    let ends := regs.getD 0 0 + (eRows e - 1) * regs.getD 1 0 + drainRow fmt
    let operands := (if eScale e || eBias e then !opcFits (regs.getD 2 0) (if eBias e then 256 else 128) else false)
    if bad then .error (0x0305, regs.getD 0 0)
    else if operands || (dest == 0 && decide (ends > 262144)) || (dest == 2 && decide (ends > stagingOf m c.ctx)) then
      .error (0x0303, regs.getD 0 0)
    else .ok (modCore k (fun c => { c with drains := c.drains ++ [newDrain e regs c.pc] }))
where
  /-- The drain that the word, its epilogue configuration and its register group describe. -/
  newDrain (e : Nat) (regs : List Nat) (pc : Nat) : Drain :=
    { arr := fld w 21 21, tile := fld w 20 16, compact := tbit w 15, dest := fld w 14 13, fmt := fld w 12 9,
      rnd := fld w 8 6, epi := e, regs := regs, left := eRows e, pc := pc }

/-- R340: the binary32 value of a drained element before conversion. -/
def drainValue (c : Core) (d : Drain) (row col : Nat) : Nat :=
  let raw := accGet c d.arr d.tile d.compact row col
  let x := if eInt d.epi then i32ToF32 (sxt 32 raw) else if d.compact then BF16.cvt F32 .rne false raw else raw
  let base := d.regs.getD 2 0
  let sc := opcNum c (base + 4 * col) 4
  let bi := opcNum c (base + 128 + 4 * col) 4
  let y := if eScale d.epi && eBias d.epi then F32.fmaC .rne false x sc bi
    else if eScale d.epi then F32.mulC .rne false x sc
    else if eBias d.epi then F32.addC .rne false x bi
    else x
  match eAct d.epi with
  | 1 => if F32.isNanC y then F32.nanCode else if (ofInt 0).lt (F32.decode y) then y else 0
  | 2 => fnGelu y
  | 3 => fnSilu y
  | 4 => fnSigmoid y
  | 5 => fnTanh y
  | _ => y

/-- The octets of row i of a drain, whose values it has read (R340, R341, R215). -/
def drainBytes (m : Mach) (k : Nat) (d : Drain) (i : Nat) : List Byte :=
  let x := ctxAt m (coreAt m k).ctx
  let row := eFirst d.epi + i
  let vals := d.vals.getD i (List.replicate 32 0)
  let draw (col : Nat) : Nat := srKeyVec x.seed x.step k (d.regs.getD 3 0) (row * 32 + col)
  if isMx d.fmt then
    let (s, codes) := mxBlock vals d.fmt d.rnd draw
    padTo 64 ((if codeBits d.fmt == 4 then (storeBytes.pairNib codes).flatMap (leBytes 1) else codes.flatMap (leBytes 1)) ++ leBytes 1 s)
  else
    let codes := (vals.zip (List.range 32)).map (fun p => narrowLane d.fmt (rndDraw d.rnd (draw p.2)) true p.1)
    match codeBits d.fmt with
    | 32 => codes.flatMap (leBytes 4)
    | 16 => codes.flatMap (leBytes 2)
    | 8 => codes.flatMap (leBytes 1)
    | _ => (storeBytes.pairNib codes).flatMap (leBytes 1)

/-- R341: writes the rows of a drain to the operand cache or to staging. -/
def drainRows (k : Nat) (d : Drain) (m : Mach) : Mach :=
  (rangeFrom 0 (eRows d.epi)).foldl (fun m i =>
    let bs := drainBytes m k d i
    let off := d.regs.getD 0 0 + i * d.regs.getD 1 0
    if d.dest == 2 then { m with mem := stagPut (clusterOf k) off bs m.mem }
    else modCore k (opcPut off bs) m) m

/-- R341: the completion entry of a drain. -/
def drainEntry (d : Drain) : Nat := 3 * 2 ^ 60 + d.arr * 2 ^ 59 + d.tile * 2 ^ 54 + d.regs.getD 0 0

/-- R263: the matrix-vector path uses the side port of an array in the core's coming cycle: it reads tile rows in its first matrix cycle
and writes them in its retirement cycle (R259). -/
def sidePort (c : Core) (arr : Nat) : Bool :=
  c.mvs.any (fun o => o.arr == arr &&
    ((o.acc && o.first && (match o.plan with | p :: _ => decide (p.1 ≤ c.aclk) | [] => false)) ||
      (!o.done && o.loads.isEmpty && o.plan.isEmpty && decide (o.retire ≤ c.aclk))))

/-- R345: a parity error that the vector engine finds, after issue. -/
def veError (k code pc detail : Nat) (m : Mach) : Mach := coreError k code 255 false pc detail (count 0x6300 0x09 m)

/-- A drain reads its next tile row with the epilogue's operands, and passes it through the lanes (R340). -/
def readRow (k : Nat) (d : Drain) (m : Mach) : Mach :=
  let c := coreAt m k
  let row := eFirst d.epi + (eRows d.epi - d.left)
  let m1 := if accParBad c [(accAddr d.arr d.tile d.compact row 0, if d.compact then 64 else 128)] then mxError k 0x0202 d.pc d.tile m
    else if (eScale d.epi || eBias d.epi) && opcParBad c [(d.regs.getD 2 0, if eBias d.epi then 256 else 128)] then
      veError k 0x0301 d.pc (d.regs.getD 2 0) m
    else m
  let d1 := { d with left := d.left - 1, vals := d.vals ++ [(List.range 32).map (drainValue c d row)],
                     endAt := if d.left == 1 then c.aclk else d.endAt }
  modCore k (fun c => { c with drains := c.drains.map (fun x => if x == d then d1 else x) }) m1

/-- A drain row is read in a cycle in which the lanes and the side port are free; `lanesUsed` tells of the issuing bundle, `busy` of the
matrix-vector path's use of the port of each array (R263, R341). -/
def drainCycle (lanesUsed : Bool) (busy : List Bool) (k : Nat) (m : Mach) : Mach :=
  [0, 1].foldl (fun m arr =>
    match (coreAt m k).drains.find? (fun d => d.arr == arr && d.left != 0) with
    | none => m
    | some d => if lanesUsed || busy.getD arr false then m else count 0x6300 0x04 (readRow k d m)) m

/-- A drain row of an array is still to be read. -/
def drainRowLeft (c : Core) (arr : Nat) : Bool := c.drains.any (fun d => d.arr == arr && d.left != 0)

/-- R346: a drain row waits in this cycle for lanes or the side port. -/
def rowWaits (lanesUsed : Bool) (busy : List Bool) (c : Core) : Bool :=
  [0, 1].any (fun arr => (lanesUsed || busy.getD arr false) && drainRowLeft c arr)

/-- R266: a row is copied. -/
def dbgCopy (k : Nat) (o : DbgOp) (m : Mach) : Mach :=
  let c := coreAt m k
  let n := if o.compact then 64 else 128
  let a := accAddr o.arr o.tile o.compact o.row 0
  let m1 := modCore k (fun c =>
    let c1 := { c with dbgOps := c.dbgOps.erase o }
    if o.write then goodPar (accWord a n) { c1 with acc := cellsPut c.acc a (opcGet c o.off n) }
    else opcPut o.off (cellsGet c.acc a n) c1) m
  if o.write then (if opcParBad c [(o.off, n)] then mxError k 0x0201 o.pc o.off m1 else m1)
  else if accParBad c [(a, n)] then mxError k 0x0202 o.pc o.tile m1 else m1

/-- The debug instructions use the side port of an array after the matrix-vector path and the drains (R263). -/
def dbgCycle (busy : List Bool) (k : Nat) (m : Mach) : Mach :=
  [0, 1].foldl (fun m arr =>
    match (coreAt m k).dbgOps.find? (fun o => o.arr == arr) with
    | none => m
    | some o => if busy.getD arr false then m else dbgCopy k o m) m

/-! ### The V slot -/

/-- A V-slot instruction that uses the lanes (R341). -/
def usesLanes (w : Nat) : Bool := !(swOp w == 0 || swOp w == 0x30 || swOp w == 0x31)

/-- Lane operations 0x01 to 0x0A. -/
def issueLane (k : Nat) (c : Core) (w : Nat) : SlotEff :=
  let op := swOp w
  let vd := fld w 21 19
  let a := vreg c (fld w 18 16)
  let b := vreg c (fld w 15 13)
  let d := vreg c (fld w 12 10)
  let ty := fld w 9 6
  let md := rndOf (fld w 5 3)
  let sat := tbit w 2
  if op ≤ 0x06 then .ok (lanesAt k c 4 vd (byType ty (fun f x y z => laneOp f op md sat x y z) a b d))
  else if op == 0x07 then
    .ok (lanesAt k c 4 vd (byType ty (fun f x y _ => if cmpHolds f (fld w 1 0) x y then 2 ^ f.width - 1 else 0) a b a))
  else if op == 0x08 then .ok (lanesAt k c 4 vd (byType ty (fun f x y z => canonIn f (if z != 0 then x else y)) a b d))
  else if op == 0x09 then .ok (lanesAt k c 4 vd (byType ty (fun f x _ _ => movOp f (fld w 1 0) x) a a a))
  else
    let fn := fld w 15 13
    .ok (fun m => count 0x6300 0x02 (lanesAt k c 12 vd (byType ty (fun f x _ _ =>
      if f == BF16 then F32.cvt BF16 .rne false (veFn fn (BF16.cvt F32 .rne false x)) else veFn fn x) a a a) m))

/-- `ve.ldx`, `ve.stx` (R330, R331). -/
def issueIndexed (k : Nat) (c : Core) (w : Nat) : SlotEff :=
  let n := idxSize (fld w 10 7)
  let ix := vreg c (fld w 18 16)
  let base := sreg c (fld w 15 11)
  let addrs := ix.map (fun i => base + i * n)
  match addrs.find? (fun a => a % n != 0 || !opcFits a n) with
  | some a => if c.pipe < c.seqFree then .error (0x0304, 0) else .error (0x0303, a)
  | none =>
    if c.pipe < c.seqFree then .error (0x0304, 0)
    else
      let seq := modCore k (fun c => { c with seqFree := c.pipe + 16 })
      if swOp w == 0x12 then
        .ok (fun m => count 0x6300 0x03 (lanesAt k c 18 (fld w 21 19) (addrs.map (fun a => opcNum c a n)) (seq m)))
      else
        let bytes := (addrs.zip (vreg c (fld w 21 19))).flatMap (fun p => (rangeFrom p.1 n).zip (leBytes n p.2))
        .ok (fun m => count 0x6300 0x03 (pendV k (.opc (c.pipe + 17) bytes) (seq m)))

/-- `ve.seg` (R330, R332, R333). Its carry record is written when the unit is free again. -/
def issueSeg (k : Nat) (c : Core) (w : Nat) : SlotEff :=
  let base := sreg c (fld w 15 11)
  if c.pipe < c.seqFree then .error (0x0304, 0)
  else if base % 16 != 0 || !opcFits base 16 then .error (0x0303, base)
  else
    let vd := fld w 21 19
    let cr : Carry := ⟨opcNum c base 4, opcNum c (base + 4) 4, opcNum c (base + 8) 4, opcNum c (base + 12) 4⟩
    let (vals, cr1) := segScan (fld w 6 4) ((vreg c vd).zip (vreg c (fld w 18 16))) none cr
    let rb := leBytes 4 cr1.label ++ leBytes 4 cr1.value ++ leBytes 4 cr1.position ++ leBytes 4 cr1.arg
    .ok (fun m => count 0x6300 0x03 (storeAt k (c.pipe + 15) base rb (lanesAt k c 18 vd vals
      (modCore k (fun c => { c with seqFree := c.pipe + 16 }) m))))

/-- `ve.cvt` (R334). -/
def issueCvt (m : Mach) (k : Nat) (c : Core) (w : Nat) : SlotEff :=
  let dst := fld w 15 12
  let rnd := fld w 11 9
  let key := sreg c (fld w 7 3)
  let x := ctxAt m c.ctx
  let a := vreg c (fld w 18 16)
  let draw (i : Nat) : Nat := srKeyVec x.seed x.step k key i
  if dst == 0 then
    let src := key % 16
    if !(decide (src ≤ 7) || src == 0xD || src == 0xE) then .error (0x0306, src)
    else .ok (lanesAt k c 4 (fld w 21 19) ((a.zip (List.range 64)).map (fun p =>
      if src == 0xE then p.1 % 256
      else F32.narrow (if (floatOf src).isSome then .rne else rndDraw rnd (draw p.2)) false (elemVal src (p.1 % 2 ^ codeBits src)))))
  else .ok (lanesAt k c 4 (fld w 21 19) ((a.zip (List.range 64)).map (fun p =>
    narrowLane dst (rndDraw rnd (draw p.2)) (tbit w 8) p.1)))

/-- `ve.mxq` (R335). -/
def issueMxq (m : Mach) (k : Nat) (c : Core) (w : Nat) : SlotEff :=
  let dst := fld w 15 12
  let rnd := fld w 11 9
  let kr := fld w 7 3
  let key := sreg c kr
  let r1 := (kr + 1) % 32
  let x := ctxAt m c.ctx
  let a := vreg c (fld w 18 16)
  let vd := fld w 21 19
  if dst == 0xC then
    let e := sxt 8 (sreg c r1)
    let bucket := fld (sreg c r1) 31 8
    if e == -128 || e == -127 || e > 120 then .error (0x0306, sreg c r1)
    else
      let cs := (a.zip (List.range 64)).map (fun p =>
        g8Code p.1 e (srKeyG8 x.seed x.step bucket (ownCoord m) ((key + p.2) % 2 ^ 32)))
      let fl := (if cs.any (fun q => q.2.1) then 1 else 0) + (if cs.any (fun q => q.2.2) then 2 else 0)
      .ok (fun m => count 0x6300 0x06 (pendV k (.scalar (c.pipe + 5) r1 fl)
        (lanesAt k c 6 vd (cs.map (fun q => toU 8 q.1)) m)))
  else
    let draw (o i : Nat) : Nat := srKeyVec x.seed x.step k key (o + i)
    let (s0, c0) := mxBlock (a.take 32) dst rnd (draw 0)
    let (s1, c1) := mxBlock (a.drop 32) dst rnd (draw 32)
    .ok (fun m => pendV k (.scalar (c.pipe + 5) r1 (s0 + s1 * 256)) (lanesAt k c 6 vd (c0 ++ c1) m))
/-- A V-slot word at issue. -/
def issueV (m : Mach) (k : Nat) (c : Core) (w : Nat) : SlotEff :=
  let op := swOp w
  if op == 0 then .ok id
  else if op ≤ 0x0A then issueLane k c w
  else if op == 0x10 || op == 0x11 then
    let addr := sreg c (fld w 18 14) + fld w 13 2 * 64
    let n := elemBytes (fld w 1 0)
    if addr % 8 != 0 || !opcFits addr n then .error (0x0303, addr)
    else if op == 0x10 then .ok (lanesAt k c 4 (fld w 21 19) (loadLanes (fld w 1 0) (opcGet c addr n)))
    else .ok (storeAt k (c.pipe + 3) addr (storeBytes (fld w 1 0) (vreg c (fld w 21 19))))
  else if op == 0x12 || op == 0x13 then issueIndexed k c w
  else if op == 0x18 then
    let x := sreg c (fld w 18 14)
    let v := if fld w 13 10 == 2 then x % 65536 * 65537 else x
    .ok (lanesAt k c 4 (fld w 21 19) (List.replicate 64 v))
  else if op == 0x19 then
    let ty := fld w 13 10
    let x := vreg c (fld w 21 19)
    let xs := if ty == 2 then (elems16 x).map (BF16.cvt F32 .rne false) else x
    .ok (pendV k (.scalar (c.pipe + 5) (fld w 18 14) (veRed (ty == 0xD) (fld w 9 7) xs)))
  else if op == 0x1A then issueSeg k c w
  else if op == 0x20 then issueCvt m k c w
  else if op == 0x21 then issueMxq m k c w
  else if op == 0x30 then issueDrain m k c w
  else if op == 0x31 then .ok (modCore k (fun cc => { cc with epis := cc.epis.set (fld w 21 19) (some (sreg c (fld w 18 14))) }))
  else .ok id

/-- R320, R321: the pending writes of the pipeline cycle that ends; `sWrote` is the scalar register that the S slot
wrote in it, which stands. -/
def applyPending (sWrote : Option Nat) (k : Nat) (m : Mach) : Mach :=
  let c := coreAt m k
  let isDue (x : VWrite) : Bool := match x with
    | .lanes t _ _ => decide (t ≤ c.pipe)
    | .scalar t _ _ => decide (t ≤ c.pipe)
    | .opc t _ => decide (t ≤ c.pipe)
  let due := c.vpend.filter isDue
  let above := (due.filter (fun x => match x with | .scalar _ r _ => sWrote == some r | _ => false)).length
  let c1 := due.foldl (fun (c : Core) x => match x with
    | .lanes _ vd vals => goodPar (· == .lane vd) { c with v := c.v.set vd vals }
    | .scalar _ r v => if sWrote == some r then c else setS r v c
    | .opc _ bs => goodPar (fun w => bs.any (fun p => opcWord p.1 1 w))
        { c with opc := bs.foldl (fun l p => cellPut l p.1 p.2) c.opc }) c
  countN 0x6300 0x08 above (setCore k { c1 with vpend := c.vpend.filter (fun x => !isDue x), pipe := c.pipe + 1 } m)

end Sys2Proof.Machine
end

