-- ==== Sys2Proof/Machine/Access.lean ====
section
/-!
DEFINITION. Accesses of the device's units to virtual addresses (02): the translation caches of compute-die ports and
memory-side dies (R54), the access flags (R65), and the grant points that an access passes (11 R398).
-/

namespace Sys2Proof.Machine

/-- The translation cache of a core's die. -/
def coreXl (core : Nat) : Nat := core / 288

/-- The translation cache of the memory-side die of a sampler or a gather/scatter engine. -/
def unitXl (unit : Nat) : Nat := 16 + unit / 16

/-- One translation: a page that the cache does not hold is a miss and enters it. In a full cache it takes the place of an
entry that the manual does not name: a free value. -/
def xlateOne (x vpn : Nat) (m : Mach) : Mach :=
  let l := m.mem.xlate.get x []
  if l.contains vpn then m
  else if l.length < 4096 then
    count 0x6700 0x0B (onMem (fun y => { y with xlate := y.xlate.put x (l ++ [vpn]) }) m)
  else
    let (r, m1) := freshFree m
    count 0x6700 0x0B (onMem (fun y => { y with xlate := y.xlate.put x (setAt l (r % 4096) vpn) }) m1)

/-- R398: an access of die `x` to a page in HBM is granted at the scheduler of its stack and at the ports between. -/
def grantPage (x vpn : Nat) (m : Mem) : Mem :=
  match walkVpn m vpn with
  | .entry v => if pTier v == 0 then grantStack x (pFrame v / 32768) m else m
  | .bad _ => m

/-- The memory-side die, 0 to 7, of a page's HBM home: that of the stack which its object's interleave set gives it (R6, R50). -/
def homeDie (m : Mem) (vpn : Nat) : Nat :=
  match objAt m (vpn * 2 ^ 21) with
  | some v => (oFirst v + (vpn - oBase v) % oWays v) / 4
  | none => 0

/-- The writes of a quench and of units that have no port of their own are translated in the memory-side die of the page's HBM home
(log entry 95). -/
def homeXlate (va n : Nat) (m : Mach) : Mach :=
  (spanVpns (va % 2 ^ 56) n).foldl (fun m p => xlateOne (16 + homeDie m.mem p) p m) m

/-- Accesses to pages through a translation cache. -/
def accessPages (x : Nat) (ps : List Nat) (m : Mach) : Mach :=
  ps.foldl (fun m p => onMem (fun y => touchPage p (grantPage x p y)) (xlateOne x p m)) m

/-- An access to a span through a translation cache. -/
def access (x va n : Nat) (m : Mach) : Mach := accessPages x (spanVpns (va % 2 ^ 56) n) m

/-- Accesses to several spans. -/
def accessAll (x : Nat) (spans : List (Nat × Nat)) (m : Mach) : Mach := spans.foldl (fun m s => access x s.1 s.2 m) m

/-- Translation caches hold no entry after Q3 (R54, Q3.8 of R68). -/
def xlateClear (m : Mach) : Mach := onMem (fun y => { y with xlate := [] }) m

/-- R398, R419: the pointers of the grant points and of the ports' channels return to zero. How many grants the pointers had decided, and
how many background requests came after their D, follows from latencies that the manual does not give: free values (log entry 11). -/
def resetPointers (m : Mach) : Mach :=
  let (a, m1) := freshFree m
  let (b, m2) := freshFree m1
  countN 0x6800 0x06 a (countN 0x6800 0x07 b
    { m2 with mem := { m2.mem with grants := [] }, tor := { m2.tor with ports := m2.tor.ports.map (fun p => { p with vcPtr := 0 }) } })

end Sys2Proof.Machine
end

