-- ==== Sys2Proof/Machine/Rows.lean ====
section
/-!
DEFINITION. Row formats (05 R172 to R174), dequantization (04 R139), and the accounting shared by the units that
fetch rows. Width classes are coded as in the object table (R50): 1 W16, 2 W8, 3 W4, 4 W2.
-/

namespace Sys2Proof.Machine

/-- R172: RowBytes of a class. -/
def rowBytesOf (cls w : Nat) : Nat :=
  match cls with
  | 1 => 2 * w
  | 2 => a8 (2 + w)
  | 3 => a8 (2 + w / 2)
  | _ => a8 (2 + w / 4)

/-- The stored code of element i. -/
def rowCode (cls : Nat) (bs : List Byte) (i : Nat) : Nat :=
  match cls with
  | 1 => octs bs (2 * i) 2
  | 2 => octs bs (2 + i) 1
  | 3 => let b := octs bs (2 + i / 2) 1; if i % 2 == 0 then b % 16 else b / 16
  | _ => (octs bs (2 + i / 4) 1 >>> (2 * (i % 4))) % 4

/-- R173: a W2 level. -/
def levelV (c : Nat) : FVal := .fin (decide (c < 2)) (match c with | 0 => 3 | 1 => 1 | 2 => 1 | _ => 3) (-1)

/-- R139: the binary32 codes of a row; `kind` is the W8 element kind, 1 for INT8. -/
def decodeRow (cls w kind : Nat) (bs : List Byte) : List Nat :=
  let s := BF16.decode (octs bs 0 2)
  (List.range w).map (fun i =>
    let c := rowCode cls bs i
    match cls with
    | 1 => BF16.cvt F32 .rne false c
    | 2 => F32.narrow .rne false ((elemVal (if kind == 1 then 5 else 3) c).mul s)
    | 3 => F32.narrow .rne false ((elemVal 6 c).mul s)
    | _ => F32.narrow .rne false ((levelV c).mul s))

/-- R174: the W2 code of a clamped quotient with its draw (R222). -/
def srLevel (q : FVal) (u : Nat) : Nat :=
  match q.add false (.fin false 3 (-1)) with
  | .fin n m e =>
    if n then 0
    else
      let (k, r, d) := scaleAt m 1 e 0
      if k ≥ 3 then 3 else if roundUp (.sr u) false false r d then k + 1 else k
  | _ => 2

/-- Packs the codes of a row behind its scale. -/
def packRow' (cls w scale : Nat) (codes : List Nat) : List Byte :=
  let bits := match cls with | 2 => 8 | 3 => 4 | _ => 2
  let n := codes.foldr (fun x acc => x % 2 ^ bits + acc * 2 ^ bits) 0
  let body := leBytes 2 scale ++ leBytes ((w * bits + 7) / 8) n
  body ++ List.replicate (rowBytesOf cls w - body.length) 0

/-- R174: encodes a binary32 row; `draw i` is the stochastic draw of element i. A table row has no SAT bit: DESIGN CHOICE, a W16 element
rounds with SAT = 0 (log entry 96). -/
def encodeRow (cls kind : Nat) (draw : Nat → Nat) (xs : List Nat) : List Byte :=
  let ix := xs.zip (List.range xs.length)
  if cls == 1 then ix.flatMap (fun p => leBytes 2 (BF16.narrow (.sr (draw p.2)) false (F32.decode p.1)))
  else
    let q : FVal := match cls with | 2 => if kind == 1 then ofInt 127 else ofInt 448 | 3 => ofInt 7 | _ => .fin false 3 (-1)
    let m := maxMag (xs.map F32.decode)
    let s := BF16.narrow .rup false (F32.decode (F32.divV .rup m q))
    let sc := BF16.cvt F32 .rne false s
    let zc := if cls == 4 then 2 else 0
    let code (p : Nat × Nat) : Nat :=
      if s == 0 then zc
      else
        let v := F32.decode (F32.divC .rne p.1 sc)
        let c := if v.isNan || v.lt q.neg then q.neg else if q.lt v then q else v
        match cls with
        | 2 => if kind == 1 then toU 8 (narrowInt 8 (.sr (draw p.2)) c) else E4M3.narrow (.sr (draw p.2)) true c
        | 3 => toU 4 (narrowInt 4 (.sr (draw p.2)) c)
        | _ => srLevel c (draw p.2)
    packRow' cls xs.length s (ix.map code)

/-- A fault that an access to memory raises: R55's are program faults; a page entry's mismatch takes the failure path, an object-table
entry's is rewritten from the loader's copy (R512). -/
def memFault (code i : Nat) (m : Mach) : Mach :=
  if code == 0x0701 then failCtx i code 0x03 255 0 (if afterCommit (ctxAt m i) then 2 else 0) (count 0x6700 0x0C m)
  else if code == objCheck then ctxError 0x0701 i (count 0x6700 0x0C m)
  else progFault code i m

/-- The context of the object whose pages a page number lies among. -/
def vpnOwner (m : Mem) (vpn : Nat) : Option Nat :=
  (m.objects.find? (fun o => pairOk 256 o.2.v o.2.c && oValid o.2.v && decide (oBase o.2.v ≤ vpn) &&
    decide (vpn < oBase o.2.v + oSize o.2.v))).map (fun o => oCtx o.2.v)

/-- The check that a page's entry, or its object's, fails, with the context that it belongs to (R49, R53). A page that lies in no object
belongs to context `i`. -/
def pageCheck (m : Mem) (i vpn : Nat) : Option (Nat × Nat) :=
  match m.pages.find vpn with
  | none => none
  | some p =>
    if !pairOk 64 p.v p.c then some (0x0701, (vpnOwner m vpn).getD i)
    else match m.objects.find (pObj p.v) with
      | some o => if pairOk 256 o.v o.c then none else some (objCheck, oCtx o.v)
      | none => none

/-- Raises the first check that the pages of a span fail. -/
def spanCheck (i va n : Nat) (m : Mach) : Mach :=
  match (spanVpns (va % 2 ^ 56) n).findSome? (pageCheck m.mem i) with
  | some (code, j) => if j < 16 then memFault code j m else count 0x6700 0x0C (raiseDev 0x0701 m)
  | none => m

/-- A unit's write of a context's own areas outside quench: unmapped pages, pairs that fail their check, objects of others and
Shared ones stop it (R53, R55). -/
def ownPut (i va : Nat) (bs : List Byte) (m : Mach) : Mach :=
  let f := rightCheck m.mem i va bs.length
  if f != 0 then memFault f i m else onMem (vput va bs) (homeXlate va bs.length m)

/-- The key of a descriptor: context × 65,536 + number. -/
def dkeyOf (i n : Nat) : Nat := i * 65536 + n

end Sys2Proof.Machine
end

