-- ==== Sys2Proof/Machine/SamplerOps.lean ====
section
/-!
DEFINITION. The stored graph and the draws of a sampler (03 R77 to R104): every function here is a function of memory
and keys. A failure names its fault code.
-/

namespace Sys2Proof.Machine

/-- A draw's outcome: a fault code, or a value. -/
abbrev Sr := Except Nat

/-! ### Descriptor fields (R96) -/

def sdMethod (d : Nat) : Nat := fld d 491 488
def sdHops (d : Nat) : Nat := fld d 487 485
def sdTimeMode (d : Nat) : Bool := tbit d 484
def sdSampler (d : Nat) : Nat := fld d 483 477
def sdRestart (d : Nat) : Nat := fld d 476 469
def sdWalk (d : Nat) : Nat := fld d 468 461
def sdStream (d : Nat) : Nat := fld d 460 445
def sdTime (d : Nat) : Nat := fld d 444 413
def sdFanout (d h : Nat) : Nat := fld d (412 - 8 * (h - 1)) (405 - 8 * (h - 1))
def sdLayer (d h : Nat) : Nat := fld d (380 - 16 * (h - 1)) (365 - 16 * (h - 1))
def sdGraph (d : Nat) : Nat := fld d 316 301
def sdSeeds (d : Nat) : Nat := fld d 300 285 + 1
def sdSeedVa (d : Nat) : Nat := fld d 284 229
def sdOut (d : Nat) : Nat := fld d 228 173
def sdOutBytes (d : Nat) : Nat := fld d 172 141
def sdFilter (d : Nat) : Nat := fld d 140 85
def sdCore (d : Nat) : Nat := fld d 84 72
def sdRing (d : Nat) : Nat := fld d 71 69

/-- Walk methods (R100). -/
def isWalk (method : Nat) : Bool := method == 5 || method == 6

/-! ### The stored graph (R77 to R92) -/

def nodePart (n : Nat) : Nat := n / 2 ^ 36 % 4096
def nodeLocal (n : Nat) : Nat := n % 2 ^ 36

/-- The VA of an object's first octet (R49): TIER_DESC_CHECK where its entry fails the complement, 0x0702 where no valid object has the
number. -/
def objBase (m : Mach) (obj : Nat) : Sr Nat :=
  if objBad m.mem obj then .error objCheck
  else match objById m.mem obj with
    | some v => .ok (oBase v * 2 ^ 21)
    | none => .error 0x0702

/-- Reads octets, or the fault code of R55. -/
def vread (m : Mach) (va n : Nat) : Sr (List Byte) :=
  let r := readCheck m.mem va n
  if r != 0 then .error r else .ok (vget m.mem va n)

/-- R81, R84: the header's flags. A breach of R84 that is no complement failure carries 0x10401, so that `0x6400.0C` does
not count it. -/
def graphFlags (m : Mach) (root : Nat) : Sr Nat := do
  let b ← vread m root 64
  if cplBytes (b.take 32) != b.drop 32 then .error 0x0401
  else if octs b 0 2 != 1 || decide (octs b 4 2 < 1) || decide (octs b 4 2 > 4096) ||
      !zeroOcts b 6 2 || !zeroOcts b 24 8 || decide (octs b 2 2 ≥ 32) then .error 0x10401
  else .ok (octs b 2 2)

/-- R82, R84: a partition map entry's owner, none where absent. R80's table lets the complement of the map (12,288 to 20,479) run
over the descriptors of partitions 0 to 31 (from 16,384); both are read at the offsets stated: DESIGN CHOICE (log entry 83). -/
def partOwner (m : Mach) (root p : Nat) : Sr (Option Nat) := do
  let a ← vread m (root + 4096 + 2 * p) 2
  let c ← vread m (root + 12288 + 2 * p) 2
  let v := leVal a
  if leVal c != cpl 16 v then .error 0x0401
  else if fld v 14 5 != 0 then .error 0x10401
  else .ok (if tbit v 15 then some (v % 32) else none)

/-- The spans of a partition map's entry and of its complement. -/
def mapSpans (root p : Nat) : List (Nat × Nat) := [(root + 4096 + 2 * p, 2), (root + 12288 + 2 * p, 2)]

/-- A partition's descriptor (R83). -/
structure Part where
  valid : Bool
  packing : Bool
  nodes : Nat
  edges : Nat
  offs : Nat
  nbr : Nat
  wgt : Nat
  typ : Nat
  time : Nat
  aliasVa : Nat
deriving DecidableEq, Repr

/-- R83, R84: reads a partition descriptor. -/
def partDesc (m : Mach) (root p : Nat) : Sr Part := do
  let b ← vread m (root + 16384 + 128 * p) 128
  let v := leVal (b.take 64)
  if leVal (b.drop 64) != cpl 512 v then .error 0x0401
  else if fld v 497 488 != 0 || fld v 411 400 != 0 || fld v 189 0 != 0 ||
      fld v 511 500 != p then .error 0x10401
  else
    .ok ⟨tbit v 499, tbit v 498, fld v 487 452, fld v 451 412, fld v 399 365 * 2 ^ 21, fld v 364 330 * 2 ^ 21,
      fld v 329 295 * 2 ^ 21, fld v 294 260 * 2 ^ 21, fld v 259 225 * 2 ^ 21, fld v 224 190 * 2 ^ 21⟩

/-- A context's rank and size on the graph-partition axis (R82, R487). -/
def graphRank (m : Mach) (c : Ctx) : Nat := cutRank m c 3
def graphSize (m : Mach) (c : Ctx) : Nat := cutSize m c 3

/-- R118: checks a node that is written into a unique list; answers whether it is local, and its owner. -/
def checkNode (m : Mach) (c : Ctx) (root n : Nat) : Sr (Bool × Nat) := do
  match ← partOwner m root (nodePart n) with
  | none => .error 0x0403
  | some o =>
    if decide (graphSize m c ≤ o) then .error 0x0403
    else if o != graphRank m c then .ok (false, o)
    else
      let p ← partDesc m root (nodePart n)
      if !p.valid || decide (p.nodes ≤ nodeLocal n) then .error 0x0403 else .ok (true, o)

/-- R86: first edge and degree of a local node. -/
def nodeEdges (m : Mach) (p : Part) (v : Nat) : Sr (Nat × Nat) := do
  let b ← vread m (p.offs + 8 * v) 16
  let a := octs b 0 8
  let z := octs b 8 8
  if decide (z < a) || decide (a > p.edges) || decide (z > p.edges) || (v + 1 == p.nodes && z != p.edges) then .error 0x0402
  else .ok (a, z - a)

/-- R88, R89: the identifiers that the deltas of a block give behind one. An ID above the largest stops the block's use; so does a
negative one, which R89 does not name: DESIGN CHOICE (log entry 83). -/
def deltaIds (b : List Byte) (width : Nat) : Nat → Int → Nat → Sr (List Nat)
  | 0, _, _ => .ok []
  | n + 1, cur, i =>
    let bit := i * width
    let z := (octs b (16 + bit / 8) ((bit % 8 + width + 7) / 8) >>> (bit % 8)) % 2 ^ width
    let d : Int := if z % 2 == 0 then (z / 2 : Nat) else -((z / 2 : Nat) : Int) - 1
    let nx := cur + d
    if nx < 0 || nx > 0xFFFFFFFFFFFE then .error 0x0402
    else (deltaIds b width n nx (i + 1)).map (fun l => nx.toNat :: l)

/-- R87 to R89: the neighbour of an edge; the whole of a delta block is checked. -/
def edgeNode (m : Mach) (p : Part) (e : Nat) : Sr Nat := do
  if !p.packing then
    let b ← vread m (p.nbr + 6 * e) 6
    .ok (leVal b)
  else
    let d ← vread m (p.nbr + 8 * (e / 256)) 8
    let blk := p.nbr + leVal d
    let h ← vread m blk 16
    let width := octs h 6 1
    let cnt := octs h 8 2
    let want := min 256 (p.edges - 256 * (e / 256))
    if cnt != want || decide (width > 49) || !zeroOcts h 7 1 || !zeroOcts h 10 6 || decide (octs h 0 6 > 0xFFFFFFFFFFFE) then
      .error 0x0402
    else
      let b ← vread m blk (16 + ((cnt - 1) * width + 63) / 64 * 8)
      let ids ← deltaIds b width (cnt - 1) (octs h 0 6) 0
      .ok ((octs h 0 6 :: ids).getD (e % 256) 0)

/-- R90: attributes of an edge. -/
def edgeWeight (m : Mach) (p : Part) (e : Nat) : Sr Nat := do return leVal (← vread m (p.wgt + 2 * e) 2)
def edgeType (m : Mach) (flags : Nat) (p : Part) (e : Nat) : Sr Nat := do
  if tbit flags 1 then return leVal (← vread m (p.typ + e) 1) else return 0
def edgeTime (m : Mach) (p : Part) (e : Nat) : Sr Nat := do return leVal (← vread m (p.time + 4 * e) 4)

/-! ### What a sampler's work reads and draws -/

/-- Work that may stop with a code, and its log. -/
abbrev Sm := ExceptT Nat (StateM SmpLog)

/-- The code of work that stands because a page that it reads is not in HBM (R59; log entry 82). -/
def pageWaits : Nat := 1

def SmpLog.page (l : SmpLog) (p : Nat) : SmpLog := if l.pages.contains p then l else { l with pages := l.pages ++ [p] }

/-- A page lies in a lower tier. -/
def pageLower (m : Mem) (vpn : Nat) : Bool := match walkVpn m vpn with | .entry v => pTier v != 0 | .bad _ => false

/-- Reads a span, whose octets `x` uses. Samplers read HBM only (R59). -/
def look {α : Type} (m : Mach) (va n : Nat) (x : Sr α) : Sm α := do
  let ps := spanVpns (va % 2 ^ 56) n
  modify (fun l => ps.foldl SmpLog.page l)
  if ps.any (pageLower m.mem) then throw pageWaits else ExceptT.mk (pure x)

/-- A frontier read, which takes an entry (R116). -/
def entryRead {α : Type} (m : Mach) (va n : Nat) (x : Sr α) : Sm α := do
  modify (fun l => { l with reads := l.reads + 1 })
  look m va n x

def addDraws (n : Nat) : Sm Unit := modify (fun l => { l with draws := l.draws + n })
def addTypes (n : Nat) : Sm Unit := modify (fun l => { l with types := l.types + n })
/-- The ranks turned into positions under a type filter. -/
def addRanks (flags : Nat) (mask : Option Nat) (n : Nat) : Sm Unit :=
  if mask.isSome && tbit flags 1 then modify (fun l => { l with ranks := l.ranks + n }) else pure ()

/-- Reads a structure that a sampler caches: in its cache it takes no access (R85); its check is made at every use (R84). -/
def lookKept {α : Type} (m : Mach) (va n : Nat) (x : Sr α) : Sm α := do
  if (← get).cached.contains va then ExceptT.mk (pure x)
  else
    let a ← look m va n x
    modify (fun l => { l with cached := l.cached ++ [va] })
    return a

def readFlags (m : Mach) (root : Nat) : Sm Nat := lookKept m root 64 (graphFlags m root)
def readPart (m : Mach) (root p : Nat) : Sm Part := lookKept m (root + 16384 + 128 * p) 128 (partDesc m root p)

/-- R118, with the reads that it takes. -/
def readNode (m : Mach) (c : Ctx) (root n : Nat) : Sm (Bool × Nat) := do
  let _ ← lookKept m (root + 4096 + 2 * nodePart n) 2 (.ok ())
  let _ ← lookKept m (root + 12288 + 2 * nodePart n) 2 (.ok ())
  let (lc, o) ← ExceptT.mk (pure (checkNode m c root n))
  if lc then lookKept m (root + 16384 + 128 * nodePart n) 128 (.ok (lc, o)) else return (lc, o)

def readEdges (m : Mach) (p : Part) (v : Nat) : Sm (Nat × Nat) := entryRead m (p.offs + 8 * v) 16 (nodeEdges m p v)

/-- R87, R88: the neighbour of an edge, with the reads that it takes. -/
def readEdge (m : Mach) (p : Part) (e : Nat) : Sm Nat := do
  if !p.packing then entryRead m (p.nbr + 6 * e) 6 (edgeNode m p e)
  else
    let b ← look m (p.nbr + 8 * (e / 256)) 8 (vread m (p.nbr + 8 * (e / 256)) 8)
    entryRead m (p.nbr + leVal b) 16 (edgeNode m p e)

/-! ### Eligible edges and ranks (R99 to R102) -/

/-- R91: how many edges of a run have timestamps below a bound, by binary search of the run (log entry 70). -/
def timeSearch (m : Mach) (p : Part) (a bound : Nat) : Nat → Nat → Nat → Sm Nat
  | 0, lo, _ => pure lo
  | fuel + 1, lo, hi =>
    if lo < hi then do
      let mid := (lo + hi) / 2
      let t ← entryRead m (p.time + 4 * (a + mid)) 4 (edgeTime m p (a + mid))
      if t < bound then timeSearch m p a bound fuel (mid + 1) hi else timeSearch m p a bound fuel lo mid
    else pure lo

/-- R99: the eligible edges of a local node as positions in edge order. `mask` is none without a type filter. -/
def eligible (m : Mach) (flags : Nat) (p : Part) (v bound : Nat) (mask : Option Nat) : Sm (List Nat) := do
  let (a, d) ← readEdges m p v
  let timed ← if tbit flags 2 && bound != 0xFFFFFFFF then
      if tbit flags 4 then (do return rangeFrom a (← timeSearch m p a bound 64 0 d))
      else (rangeFrom a d).filterM (fun e => do return decide ((← entryRead m (p.time + 4 * e) 4 (edgeTime m p e)) < bound))
    else pure (rangeFrom a d)
  match mask with
  | none => return timed
  | some mk => do
    if tbit flags 1 then addTypes d
    timed.filterM (fun e => do
      return tbit mk (← if tbit flags 1 then entryRead m (p.typ + e) 1 (edgeType m flags p e) else pure 0))

/-- R101: Floyd selection with draw r j. -/
def floydRanks (d k : Nat) (r : Nat → Nat) : List Nat :=
  if d ≤ k then List.range d
  else (List.range k).foldl (fun out j =>
    let mm := d - k + j
    let t := belowN (r j) (mm + 1)
    out ++ [if out.contains t then mm else t]) []

/-- R102, R92: rank of a weighted draw. -/
def aliasRank (m : Mach) (p : Part) (a d r : Nat) : Sm Nat := do
  let pr := r * d
  let c := pr / 2 ^ 64
  let f := fld pr 63 48
  let e := leVal (← entryRead m (p.aliasVa + 8 * (a + c)) 8 (vread m (p.aliasVa + 8 * (a + c)) 8))
  if decide (fld e 63 47 > 65536) || fld e 46 40 != 0 || decide (fld e 39 0 ≥ d) then throw 0x0402
  else return (if f < fld e 63 47 then c else fld e 39 0)

/-- R100: TOPK order: larger weight first, NaN after every number. Several NaN weights keep the order of their ranks, as equal
weights do: DESIGN CHOICE (log entry 83). -/
def heavier (x y : Nat) : Bool :=
  let a := BF16.decode x
  let b := BF16.decode y
  (!a.isNan && b.isNan) || b.lt a

/-- What an expansion needs besides memory: seed, step, SampleStream. -/
structure DrawKey where
  seed : Nat
  step : Nat
  stream : Nat
deriving DecidableEq, Repr

/-- A local expansion of a node by a fanout method: (neighbour, edge ID) in output order. -/
def expandLocal (m : Mach) (flags root : Nat) (k : DrawKey) (method node bound hop fan : Nat) (mask : Option Nat) :
    Sm (List (Nat × Nat)) := do
  let p ← readPart m root (nodePart node)
  let el ← eligible m flags p (nodeLocal node) bound mask
  let d := el.length
  let dr (j : Nat) : Nat := sampleDraw k.seed k.step node k.stream hop 0 j
  let ranks ← match method with
    | 1 => if d == 0 then pure [] else do
      addDraws fan
      (List.range fan).mapM (fun j => aliasRank m p (el.getD 0 0) d (dr j))
    | 2 => do
      let ws ← el.mapM (fun e => entryRead m (p.wgt + 2 * e) 2 (edgeWeight m p e))
      pure (((sortBy (fun x y => !(heavier y.1 x.1)) (ws.zip (List.range d))).map Prod.snd).take fan)
    | 3 => pure ((rangeFrom (d - min d fan) (min d fan)).reverse)
    | _ => do
      addDraws (if d ≤ fan then 0 else fan)
      pure (floydRanks d fan dr)
  let es ← ranks.mapM (fun r => do
    let e := el.getD r 0
    return (← readEdge m p e, nodePart node * 2 ^ 48 + e))
  addRanks flags mask es.length
  return es

/-- The eligible count of a local node. -/
def degreeLocal (m : Mach) (flags root node bound : Nat) (mask : Option Nat) : Sm Nat := do
  let p ← readPart m root (nodePart node)
  return (← eligible m flags p (nodeLocal node) bound mask).length

/-- The eligible edge of a rank of a local node, whose eligible edges have been counted before (R99). -/
def pickLocal (m : Mach) (flags root node bound : Nat) (mask : Option Nat) (rank : Nat) : Sm (Option (Nat × Nat)) := do
  let p ← readPart m root (nodePart node)
  let types := (← get).types
  let el ← eligible m flags p (nodeLocal node) bound mask
  modify (fun l => { l with types := types })
  addRanks flags mask 1
  match el[rank]? with
  | none => return none
  | some e => return some (← readEdge m p e, nodePart node * 2 ^ 48 + e)

/-- R103: the move draw of a walk step. -/
def moveDraw (k : DrawKey) (s w i d : Nat) : Nat := belowN (sampleDraw k.seed k.step s k.stream 1 w (2 * i + 1)) d

/-- One move of a walk at a local node (R103): its eligible edge, none where there is none. -/
def moveLocal (m : Mach) (flags root : Nat) (k : DrawKey) (s w i cur bound : Nat) (mask : Option Nat) : Sm (Option (Nat × Nat)) := do
  let n ← degreeLocal m flags root cur bound mask
  if n == 0 then return none
  else
    addDraws 1
    pickLocal m flags root cur bound mask (moveDraw k s w i n)

/-- R98: the mask of a hop or walk step; none without a filter. -/
def maskAt (m : Mach) (d i : Nat) : Sm (Option Nat) := do
  if sdFilter d == 0 then return none
  else return some (leVal (← look m (sdFilter d + 32 * i) 32 (vread m (sdFilter d + 32 * i) 32)))

/-! ### The dedup table (R108, R110) -/

/-- R108: the dedup key. -/
def dedupKey (timeMode : Bool) (x : Nat × Nat) : Nat := if timeMode then x.1 * 2 ^ 32 + x.2 else x.1

/-- The index of a node in a unique list, appended if new. -/
def lookupInsert (tm : Bool) (u : List (Nat × Nat)) (x : Nat × Nat) : Nat × List (Nat × Nat) :=
  match (List.range u.length).find? (fun i => dedupKey tm (u.getD i (0, 0)) == dedupKey tm x) with
  | some i => (i, u)
  | none => (u.length, u ++ [x])

/-- R110: the slot of a key or the empty slot behind the slots that linear probing passes. -/
def probeSlot (size key : Nat) (t : SMap (Nat × Nat)) : Nat → Nat → Nat
  | 0, q => q
  | fuel + 1, q => match t.find q with
    | none => q
    | some e => if e.1 == key then q else probeSlot size key t fuel ((q + 1) % size)

/-- R110: the table of a unique list: slot, key and index, each key from its start slot fold(key) mod the size on. -/
def dedupTable (tm : Bool) (size : Nat) (u : List (Nat × Nat)) : SMap (Nat × Nat) :=
  (u.zip (List.range u.length)).foldl (fun t x =>
    let key := dedupKey tm x.1
    t.put (probeSlot size key t size (foldKey key % size)) (key, x.2)) []

/-! ### One hop (R107 to R109) -/

/-- A needed forward and the work item that it serves. -/
structure Need where
  item : Nat
  owner : Nat
  f : Fwd
deriving DecidableEq, Repr

/-- What a hop's computation has come to. -/
inductive HopOut where
  /-- Forwards whose responses are missing. -/
  | needs (l : List Need)
  /-- Edges as (neighbour, frontier index of the destination or its own key, edge ID); unique list as (node, bound);
  counts; whether a forward was used. -/
  | done (edges : List (Nat × Nat × Nat)) (uniq : List (Nat × Nat)) (counts : List Nat) (fwd : Bool)
deriving DecidableEq, Repr

/-- A forward of a request. -/
def mkFwd (d : Nat) (kind node bound hop : Nat) (mask : Option Nat) : Fwd :=
  { kind := kind, node := node, bound := bound, hop := hop, method := sdMethod d, stream := sdStream d,
    typeStep := if mask.isSome then 1 else 0, typeMask := mask.getD 0 }

/-- The whole of a fanout hop other than LAYERWISE. -/
def fanoutHop (m : Mach) (c : Ctx) (d root flags : Nat) (r : SmpRun) : Sm HopOut := do
  let k : DrawKey := ⟨c.seed, c.step, sdStream d⟩
  let mask ← maskAt m d (r.hop - 1)
  let fan := sdFanout d r.hop
  let per ← (r.frontier.zip (List.range r.frontier.length)).mapM (fun (nf : (Nat × Nat) × Nat) => do
    let (lc, o) ← readNode m c root nf.1.1
    if lc then return (← expandLocal m flags root k (sdMethod d) nf.1.1 nf.1.2 r.hop fan mask, (none : Option Need))
    else match r.resp.find nf.2 with
      | some (_, es) => return (es, none)
      | none => return ([], some ⟨nf.2, o, { mkFwd d 0 nf.1.1 nf.1.2 r.hop mask with fanout := fan }⟩))
  let needs := per.filterMap Prod.snd
  if !needs.isEmpty then return .needs needs
  let tm := sdTimeMode d
  let res := (per.zip r.frontier).foldl (fun (acc : List (Nat × Nat) × List (Nat × Nat × Nat) × Nat) pf =>
    pf.1.1.foldl (fun (acc : List (Nat × Nat) × List (Nat × Nat × Nat) × Nat) e =>
      let (i, u) := lookupInsert tm acc.1 (e.1, pf.2.2)
      (u, acc.2.1 ++ [(i, acc.2.2, e.2)], acc.2.2)) acc |> fun a => (a.1, a.2.1, a.2.2 + 1)) (r.frontier, [], 0)
  return .done res.2.1 res.1 (per.map (fun x => x.1.length)) (!r.resp.isEmpty)

/-- The whole of a LAYERWISE hop (R104): DEGREE items are frontier indices, PICK items follow them. -/
def layerHop (m : Mach) (c : Ctx) (d root flags : Nat) (r : SmpRun) : Sm HopOut := do
  let k : DrawKey := ⟨c.seed, c.step, sdStream d⟩
  let mask ← maskAt m d (r.hop - 1)
  let nf := r.frontier.length
  let degs ← (r.frontier.zip (List.range nf)).mapM (fun (x : (Nat × Nat) × Nat) => do
    let (lc, o) ← readNode m c root x.1.1
    if lc then return (← degreeLocal m flags root x.1.1 x.1.2 mask, (none : Option Need))
    else match r.resp.find x.2 with
      | some (n, _) => return (n, none)
      | none => return (0, some ⟨x.2, o, mkFwd d 1 x.1.1 x.1.2 r.hop mask⟩))
  let needs := degs.filterMap Prod.snd
  if !needs.isEmpty then return .needs needs
  let ds := degs.map Prod.fst
  let total := ds.foldl (· + ·) 0
  let n := if total == 0 then 0 else sdLayer d r.hop
  addDraws n
  let picks ← (List.range n).mapM (fun j => do
    let t := belowN (sampleDraw k.seed k.step noNode k.stream r.hop 0 j) total
    let pos := ds.foldl (fun (acc : Nat × Nat × Bool) x =>
      if acc.2.2 then acc else if acc.2.1 < x then (acc.1, acc.2.1, true) else (acc.1 + 1, acc.2.1 - x, false)) (0, t, false)
    let f := pos.1
    let x := r.frontier.getD f (0, 0)
    let (lc, o) ← readNode m c root x.1
    if lc then
      return ((← pickLocal m flags root x.1 x.2 mask pos.2.1).map (fun e => (f, e)), (none : Option Need))
    else match r.resp.find (nf + j) with
      | some (_, e :: _) => return (some (f, e), none)
      | some (_, []) => return (none, none)
      | none => return (none, some ⟨nf + j, o, { mkFwd d 2 x.1 x.2 r.hop mask with rank := pos.2.1 }⟩))
  let needs2 := picks.filterMap Prod.snd
  if !needs2.isEmpty then return .needs needs2
  let tm := sdTimeMode d
  let res := (picks.filterMap Prod.fst).foldl (fun (acc : List (Nat × Nat) × List (Nat × Nat × Nat)) fe =>
    let (i, u) := lookupInsert tm acc.1 (fe.2.1, (r.frontier.getD fe.1 (0, 0)).2)
    (u, acc.2 ++ [(i, fe.1, fe.2.2)])) (r.frontier, [])
  let counts := (List.range nf).map (fun f => (res.2.filter (fun e => e.2.1 == f)).length)
  return .done res.2 res.1 counts (!r.resp.isEmpty)

/-- One walk (R103): edges as (next, current, edge ID), and the forward that it waits for. -/
def walkFrom (m : Mach) (c : Ctx) (d root flags : Nat) (r : SmpRun) (si w s bound : Nat) :
    Nat → Nat → Nat → List (Nat × Nat × Nat) → Sm (Option Need × List (Nat × Nat × Nat))
  | 0, _, _, es => pure (none, es)
  | fuel + 1, i, cur, es => do
    let k : DrawKey := ⟨c.seed, c.step, sdStream d⟩
    let rwr := sdMethod d == 5
    let draws := rwr && decide (i > 0)
    if draws then addDraws 1
    if draws && decide (sampleDraw k.seed k.step s k.stream 1 w (2 * i) / 2 ^ 56 < sdRestart d) then
      walkFrom m c d root flags r si w s bound fuel (i + 1) s es
    else
      let mask ← maskAt m d (if rwr then 0 else i)
      let (lc, o) ← readNode m c root cur
      let item := si * 2 ^ 16 + w * 2 ^ 8 + i
      let got ← if lc then do pure (some (← moveLocal m flags root k s w i cur bound mask))
        else pure ((r.resp.find item).map (fun x => x.2.head?))
      match got with
      | none => return (some ⟨item, o, { mkFwd d 3 cur bound 1 mask with seed := s, walk := w, stepIx := i }⟩, es)
      | some (some e) => walkFrom m c d root flags r si w s bound fuel (i + 1) e.1 (es ++ [(e.1, cur, e.2)])
      | some none =>
        if rwr then walkFrom m c d root flags r si w s bound fuel (i + 1) s es else return (none, es)

/-- The whole of a walk request (R103, R109): walk 0 of seed 0, then walk 1 of seed 0, and onward. -/
def walkHop (m : Mach) (c : Ctx) (d root flags : Nat) (r : SmpRun) : Sm HopOut := do
  let ns := r.frontier.length
  let runs := (List.range ns).flatMap (fun si => (List.range (sdFanout d 1)).map (fun w => (si, w)))
  let outs ← runs.mapM (fun (sw : Nat × Nat) => do
    let x := r.frontier.getD sw.1 (0, 0)
    let o ← walkFrom m c d root flags r sw.1 sw.2 x.1 x.2 (sdWalk d) 0 x.1 []
    return (sw.1, x.2, o))
  let needs := outs.filterMap (fun x => x.2.2.1)
  if !needs.isEmpty then return .needs needs
  let tm := sdTimeMode d
  let res := outs.foldl (fun (acc : List (Nat × Nat) × List (Nat × Nat × Nat)) x =>
    x.2.2.2.foldl (fun (acc : List (Nat × Nat) × List (Nat × Nat × Nat)) e =>
      let (j, u1) := lookupInsert tm acc.1 (e.2.1, x.2.1)
      let (i, u2) := lookupInsert tm u1 (e.1, x.2.1)
      (u2, acc.2 ++ [(i, j, e.2.2)])) acc) (r.frontier, [])
  let counts := (List.range ns).map (fun s => ((outs.filter (fun x => x.1 == s)).map (fun x => x.2.2.2.length)).foldl (· + ·) 0)
  return .done res.2 res.1 counts (!r.resp.isEmpty)

/-- A hop by the request's method; a finished hop has checked every node of its unique list (R118). A graph number that names no
object has no address: 0x0702 (log entry 83). -/
def hopWork (m : Mach) (c : Ctx) (d : Nat) (r : SmpRun) : Sm HopOut := do
  match objBase m (sdGraph d) with
  | .error e => throw e
  | .ok root =>
    let flags ← readFlags m root
    let o ← if isWalk (sdMethod d) then walkHop m c d root flags r
      else if sdMethod d == 7 then layerHop m c d root flags r else fanoutHop m c d root flags r
    match o with
    | .needs _ => return o
    | .done _ u _ _ => do
      let _ ← u.mapM (fun x => readNode m c root x.1)
      return o

/-- A hop's outcome and the log of its work. -/
def runHop (m : Mach) (c : Ctx) (d : Nat) (r : SmpRun) : Except Nat HopOut × SmpLog :=
  (hopWork m c d r).run { cached := (m.samplers.get (sdSampler d) {}).cache }

/-- R114's bounds of hop h: frontier, edges, unique. -/
def hopBounds (d : Nat) : Nat → Nat × Nat × Nat
  | 0 => (sdSeeds d, 0, sdSeeds d)
  | h + 1 =>
    let f := if h == 0 then sdSeeds d else (hopBounds d h).2.2
    let e := if isWalk (sdMethod d) then sdSeeds d * sdFanout d 1 * sdWalk d
      else if sdMethod d == 7 then sdLayer d (h + 1) else f * sdFanout d (h + 1)
    (f, e, f + e)

/-- R110, R114: octets of the dedup table in HBM. -/
def dedupBytes (u : Nat) : Nat := if u > 65536 then pow2ceil (2 * u) * 16 else 0

/-- R114: the bound B of a request. -/
def sampleBound (d : Nat) : Nat :=
  let hops := if isWalk (sdMethod d) then 1 else sdHops d
  ((List.range hops).map (fun h =>
    let (f, e, u) := hopBounds d (h + 1)
    64 + a64 (16 * u) + a64 (16 * e) + a64 (4 * f) + (if h == 0 then a64 (4 * sdSeeds d) else 0) + dedupBytes u)).foldl (· + ·) 0

/-- R97, R99: the seed list as (node, bound). -/
def seedList (m : Mach) (d : Nat) : Sr (List (Nat × Nat)) :=
  (List.range (sdSeeds d)).mapM (fun i => do
    let b ← vread m (sdSeedVa d + 16 * i) 16
    if !zeroOcts b 6 2 || !zeroOcts b 12 4 then .error 0x0402
    else return (octs b 0 6, if sdTimeMode d then octs b 8 4 else sdTime d))

/-- R111, R112: the octets of a block, and where the next one starts. -/
def blockBytes (m : Mach) (c : Ctx) (d : Nat) (r : SmpRun) (seeds : List (Nat × Nat))
    (edges : List (Nat × Nat × Nat)) (uniq : List (Nat × Nat)) (counts : List Nat) (fwd last : Bool) : List (Nat × List Byte) × Nat :=
  let tm := sdTimeMode d
  let dd := dedupBytes (hopBounds d r.hop).2.2
  let nodesOff := a64 (64 + dd)
  let edgesOff := a64 (nodesOff + 16 * uniq.length)
  let countsOff := a64 (edgesOff + 16 * edges.length)
  let endCounts := countsOff + 4 * counts.length
  let mapOff := if r.hop == 1 then a64 endCounts else 0
  let next := a64 (if r.hop == 1 then mapOff + 4 * seeds.length else endCounts)
  let seedKeys := seeds.map (dedupKey tm)
  let remote (n : Nat) : Bool := match (objBase m (sdGraph d)).bind (fun root => checkNode m c root n) with | .ok (lc, _) => !lc | .error _ => false
  let hdr := leBytes 2 1 ++ leBytes 1 r.hop ++
    leBytes 1 (sdMethod d + (if tm then 16 else 0) + (if fwd then 32 else 0) + (if dd > 0 then 64 else 0)) ++
    leBytes 4 r.frontier.length ++ leBytes 4 uniq.length ++ leBytes 4 edges.length ++ leBytes 8 nodesOff ++
    leBytes 8 edgesOff ++ leBytes 8 countsOff ++ leBytes 8 mapOff ++ leBytes 8 (if last then 0 else next) ++ leBytes 8 c.step
  let nodes := uniq.flatMap (fun x => leBytes 6 x.1 ++
    leBytes 2 ((if remote x.1 then 1 else 0) + (if seedKeys.contains (dedupKey tm x) then 2 else 0)) ++ leBytes 4 x.2 ++ leBytes 4 0)
  let es := edges.flatMap (fun e => leBytes 4 e.1 ++ leBytes 4 e.2.1 ++ leBytes 8 e.2.2)
  let cs := counts.flatMap (leBytes 4)
  let sm := seeds.flatMap (fun s => leBytes 4 (lookupInsert tm uniq s).1)
  ([(0, hdr), (nodesOff, nodes), (edgesOff, es), (countsOff, cs)] ++ (if r.hop == 1 then [(mapOff, sm)] else []), next)

/-- The faults of a sampler: SMP_BAD_NODE, SMP_NO_SERVER and R55's are program faults, the others are classed by R23. -/
def smpFault (code i : Nat) (m : Mach) : Mach :=
  if code == 0x0403 || code == 0x0406 then progFault code i m
  else if code == 0x0401 then ctxError code i (count 0x6400 0x0C m)
  else if code == 0x10401 then ctxError 0x0401 i m
  else if code == 0x0402 then ctxError code i m
  else memFault code i m

end Sys2Proof.Machine
end

