-- ==== Sys2Proof/Machine/Ed448.lean ====
section
/-!
DEFINITION. Ed448 of RFC 8032, pure, with an empty context, as 19 R630, R637, R640 and R643 name it. The curve and the
algorithm come from the standard that the manual names (PRESUMED, log 5).
-/

namespace Sys2Proof.Machine.Ed

/-- The field prime 2^448 − 2^224 − 1. -/
def p : Nat := 2 ^ 448 - 2 ^ 224 - 1
/-- The group order. -/
def order : Nat := 2 ^ 446 - 13818066809895115352007386748515426880336692474882178609894547503885
/-- The curve constant d = −39081. -/
def dC : Nat := p - 39081

/-- Modular power by squaring over a bit count. -/
def powMod : Nat → Nat → Nat → Nat → Nat
  | 0, _, _, acc => acc
  | n + 1, b, e, acc => powMod n (b * b % p) (e / 2) (if e % 2 == 1 then acc * b % p else acc)

/-- Field inverse. -/
def inv (x : Nat) : Nat := powMod 448 (x % p) (p - 2) 1

/-- A point in projective coordinates. -/
structure Pt where
  x : Nat
  y : Nat
  z : Nat
  deriving DecidableEq, Repr

/-- The neutral element. -/
def zero : Pt := ⟨0, 1, 1⟩

/-- The base point. -/
def base : Pt :=
  ⟨224580040295924300187604334099896036246789641632564134246125461686950415467406032909029192869357953282578032075146446173674602635247710,
   298819210078481492676017930443930673437544040154080242095928241372331506189835876003536878655418784733982303233503462500531545062832660,
   1⟩

/-- Addition on the untwisted Edwards curve x² + y² = 1 + d x² y². -/
def add (a b : Pt) : Pt :=
  let aa := a.z * b.z % p
  let bb := aa * aa % p
  let c := a.x * b.x % p
  let d := a.y * b.y % p
  let e := dC * c % p * d % p
  let f := (bb + p - e) % p
  let g := (bb + e) % p
  let h := (a.x + a.y) * (b.x + b.y) % p
  ⟨aa * f % p * ((h + 2 * p - c - d) % p) % p, aa * g % p * ((d + p - c) % p) % p, f * g % p⟩

/-- Scalar multiplication over `n` bits. -/
def mulBits : Nat → Nat → Pt → Pt → Pt
  | 0, _, _, acc => acc
  | n + 1, k, q, acc => mulBits n (k / 2) (add q q) (if k % 2 == 1 then add acc q else acc)

/-- k · P. -/
def mul (k : Nat) (q : Pt) : Pt := mulBits 456 k q zero

/-- The 57-octet encoding of a point. -/
def enc (q : Pt) : List Byte :=
  let zi := inv q.z
  let x := q.x * zi % p
  let y := q.y * zi % p
  leBytes 57 (y + (x % 2) * 2 ^ 455)

/-- Decodes a 57-octet point. -/
def dec (l : List Byte) : Option Pt :=
  let v := leVal l
  let s := v / 2 ^ 455 % 2
  let y := v % 2 ^ 455
  if l.length != 57 || y ≥ p then none
  else
    let y2 := y * y % p
    let u := (y2 + p - 1) % p
    let w := (dC * y2 % p + p - 1) % p
    -- x = u³ w (u⁵ w³)^((p − 3) / 4)
    let u3 := u * u % p * u % p
    let w3 := w * w % p * w % p
    let t := u3 * u % p * u % p * w3 % p
    let x := u3 * w % p * powMod 448 t ((p - 3) / 4) 1 % p
    if w * (x * x % p) % p != u then none
    else if x == 0 && s == 1 then none
    else some ⟨if x % 2 == s then x else p - x, y, 1⟩

/-- The same point. -/
def same (a b : Pt) : Bool := a.x * b.z % p == b.x * a.z % p && a.y * b.z % p == b.y * a.z % p

/-- dom4 with flag 0 and an empty context: the eight ASCII octets of SigEd448, then two zero octets. -/
def dom4 : List Byte := [0x53#8, 0x69#8, 0x67#8, 0x45#8, 0x64#8, 0x34#8, 0x34#8, 0x38#8, 0#8, 0#8]

/-- The clamped secret scalar and the prefix of a 57-octet private key. -/
def expand (sk : List Byte) : Nat × List Byte :=
  let h := shake256 sk 114
  let a := leVal (h.take 57)
  let a := a % 2 ^ 447 / 4 * 4 + 2 ^ 447
  (a, h.drop 57)

/-- The public key of a private key. -/
def publicKey (sk : List Byte) : List Byte := enc (mul (expand sk).1 base)

/-- Signs a message. -/
def sign (sk msg : List Byte) : List Byte :=
  let (a, pre) := expand sk
  let pk := enc (mul a base)
  let r := leVal (shake256 (dom4 ++ pre ++ msg) 114) % order
  let rr := enc (mul r base)
  let k := leVal (shake256 (dom4 ++ rr ++ pk ++ msg) 114) % order
  rr ++ leBytes 57 ((r + k * a) % order)

/-- Verifies a signature (cofactored equation of RFC 8032). -/
def verify (pk msg sig : List Byte) : Bool :=
  if sig.length != 114 then false
  else
    match dec pk, dec (sig.take 57) with
    | some a, some r =>
      let s := leVal (sig.drop 57)
      if s ≥ order then false
      else
        let k := leVal (shake256 (dom4 ++ sig.take 57 ++ pk ++ msg) 114) % order
        let l := mul (4 * s) base
        let q := add (mul 4 r) (mul (4 * k) a)
        same l q
    | _, _ => false

end Sys2Proof.Machine.Ed
end

