-- ==== Sys2Proof/Machine/Startup.lean ====
section
/-!
DEFINITION. Start-up, firmware, identity, attestation and debug authorisation (19 R617 to R644), and the power and
reset events (R44, R618, R619).
-/

namespace Sys2Proof.Machine

/-- The effect of a write: the next state, or an abort code. -/
abbrev WR := Except Nat State

/-- Lifts an operation on the machine. -/
def onM (f : Mach → Mach) (s : State) : State := { s with m := f s.m }

/-- Lifts an operation on the start-up and security state. -/
def onB (f : Boot → Boot) (s : State) : State := { s with boot := f s.boot }

/-- A write is answered as done, and counted among the requests served (R593, R616). -/
def doneWrite (m : Mach) : Mach := emit .wrote (count 0x6E00 0x04 m)

/-- A request is answered with an abort: a served request and an abort are counted, and a value that disagrees with its complement
too (R597, R616). -/
def doneAbort (c : Nat) (m : Mach) : Mach :=
  let m1 := count 0x6E00 0x04 m
  count 0x6E00 0x05 (emit (.refusedWith c) (if c == 0x0E200006 then count 0x6E00 0x06 m1 else m1))

/-- Answers a dictionary row: done, or the abort (R593, R597). A refused request changes nothing else. -/
def answer (s : State) : WR → State
  | .ok s' => onM doneWrite s'
  | .error c => onM (doneAbort c) s

/-- The abort that R588 gives a write outside the firmware entries in a device state, or 0. -/
def writeState (st : DevState) : Nat :=
  match st with
  | .config | .ready | .run | .quench | .halt => 0
  | .fault => 0x0E200004
  | _ => 0x0E200010

/-- The dictionary server runs (R588). -/
def serverRuns (st : DevState) : Bool := st != .off && st != .reset

/-- Answers a dictionary row where the device state allows writes (R588, R592). -/
def answerIn (s : State) (r : WR) : State :=
  if !serverRuns s.m.dev.st then s
  else if writeState s.m.dev.st != 0 then answer s (.error (writeState s.m.dev.st))
  else answer s r

/-! ### Power and reset -/

/-- R618, R578: every entry at its default, all work discarded. What left the device before has left it. -/
def enterReset (s : State) : State :=
  { s with
    boot := { entropy := s.boot.entropy }
    m := { dev := { st := .reset }, out := s.m.out, freeCtr := s.m.freeCtr } }

/-- POWER_UP (R43, R44). -/
def execPowerUp (s : State) : Host.Outcome State Fault Refusal :=
  .next (if s.m.dev.st == .off then enterReset s else s)

/-- POWER_REMOVED (R44). -/
def execPowerRemoved (s : State) : Host.Outcome State Fault Refusal :=
  .next { s with
    boot := { entropy := s.boot.entropy }
    m := { dev := { st := .off }, out := s.m.out, freeCtr := s.m.freeCtr } }

/-- RESET_N_ASSERT (R618). -/
def execResetNAssert (s : State) : Host.Outcome State Fault Refusal :=
  .next (if s.m.dev.st == .off then s else enterReset s)

/-- The strap bits: NODE_ID, BOARD_SLOT and MGMT_EN in their places of StrapStatus. -/
def strapMask : Nat := 0x1F3F

/-- Majority of three samples, bit by bit. -/
def majority3 (a b c : Nat) : Nat := (a &&& b) ||| (a &&& c) ||| (b &&& c)

/-- The bits on which three samples disagree. -/
def disagree3 (a b c : Nat) : Nat := (a ^^^ b) ||| (a ^^^ c)

/-- RESET_N_RELEASE (R619): the samples carry the straps as StrapStatus places them. -/
def execResetNRelease (s1 s2 s3 : Nat) (s : State) : Host.Outcome State Fault Refusal :=
  .next (if s.m.dev.st == .reset && !s.m.dev.released then
    let d := disagree3 s1 s2 s3 &&& strapMask
    let v := (majority3 s1 s2 s3 &&& strapMask) + (if d == 0 then 0 else 0x8000)
    let m1 := { s.m with dev := { s.m.dev with strap := v, released := true, time10 := 30000 } }
    { s with m := if d == 0 then m1 else raiseDev 0x0F08 (countN 0x6F00 0x05 (popcount 13 d) m1) }
  else s)

/-- Microseconds since reset release. -/
def usNow (s : State) : Nat := s.m.dev.time10 / 10000

/-- Records a start-up time (R645). -/
def stampStartup (k : Nat) (s : State) : State :=
  onB (fun b => { b with startupTimes := b.startupTimes.set k (usNow s) }) s

/-- SELFTEST_ENTRY (R620): the PUF response is read, then the PUF SRAM is cleared. -/
def execSelftestEntry (puf : List Byte) (s : State) : Host.Outcome State Fault Refusal :=
  .next (if s.m.dev.st == .reset && s.m.dev.released then
    let s1 := onM (fun m => setDevState .selftest (timeTo 50000 m)) s
    stampStartup 0 (onB (fun b => { b with puf := slice puf 0 4064 }) s1)
  else s)

/-- PLL_LOCK (R620, R621 step 1). -/
def execPllLock (s : State) : Host.Outcome State Fault Refusal :=
  .next (if s.m.dev.st == .selftest then onM (fun m => { m with dev := { m.dev with oclk := true } }) s else s)

/-- PLL_LOCK_TIMEOUT (R621 step 1, R553). -/
def execPllLockTimeout (die : Nat) (s : State) : Host.Outcome State Fault Refusal :=
  .next (if s.m.dev.st == .selftest && !s.m.dev.oclk then
    onM (fun m => devFault 0x0C07 die (timeTo 50050000 m)) s else s)

/-- R10: the cluster left disabled. -/
def disabledCluster (mask : Nat) : Nat := ((List.range 19).find? (tbit mask)).getD 18

/-- R11: the physical clusters of logical clusters 0 to 17 of a die, in ascending order. -/
def enabledClusters (mask : Nat) : List Nat := (List.range 19).filter (· != disabledCluster mask)

/-- BIST_COMPLETE (R10 to R12, R622): `fails` is a 19-bit mask per compute die, `sideFails` the dies 16 to 31. -/
def execBistComplete (fails sideFails : List Nat) (s : State) : Host.Outcome State Fault Refusal :=
  .next (if s.m.dev.st == .selftest && s.m.dev.oclk then
    let masks := (List.range 16).map (fun d => fails.getD d 0 % 2 ^ 19)
    let s1 := onB (fun b => { b with failMap := masks, repairMap := masks.map disabledCluster, clusterMap := masks.map enabledClusters }) s
    match (List.range 16).find? (fun d => decide (2 ≤ popcount 19 (masks.getD d 0))) with
    | some d => onM (devFault 0x0F01 d) s1
    | none =>
      match sideFails.find? (fun d => decide (16 ≤ d) && decide (d < 32)) with
      | some d => onM (devFault 0x0F02 d) s1
      | none => stampStartup 1 (onM (setDevState .train) s1)
  else s)

/-- HBM_TRAINING_COMPLETE (R623): `failed` are stack numbers. -/
def execHbmTrainingComplete (failed : List Nat) (s : State) : Host.Outcome State Fault Refusal :=
  .next (if s.m.dev.st == .train && !s.m.dev.hbmOk then
    let st := (List.range 32).map (fun k => if failed.contains k then 1 else 0)
    let s1 := onB (fun b => { b with hbmStatus := st }) s
    match (List.range 32).find? failed.contains with
    | some k => onM (devFault 0x0F03 (16 + k / 4)) s1
    | none => onM (fun m => { m with dev := { m.dev with hbmOk := true } }) s1
  else s)

/-- Port p may train (R428, R624). -/
def mayTrain (m : Mach) (p : Nat) : Bool :=
  tbit (dnum m 0x5000 0x04) p && !(m.tor.everRing && ringSize m (p / 2) == 1) && tbit m.pwr.refs 1

/-- Ports in DARK that may train enter DETECT (R428, R624). -/
def lightPorts (m : Mach) : Mach :=
  (List.range 8).foldl (fun m p =>
    let x := portAt m p
    if x.st == 0 && mayTrain m p then setPort p { x with st := 1, at10 := m.dev.time10, alt := tbit (dnum m 0x5000 0x05) p } m
    else m) m

/-- HBM_ZEROING_COMPLETE (R625, R621 step 5). The device's own frames of the object table are taken. -/
def execHbmZeroingComplete (s : State) : Host.Outcome State Fault Refusal :=
  .next (if s.m.dev.st == .train && s.m.dev.hbmOk && !s.m.dev.zeroed then
    let m0 := { s.m with
      dev := { s.m.dev with zeroed := true, opticalStep := true }
      mem := { s.m.mem with phys := [], staging := [], stagingBad := [], failing := [] } }
    let m1 := onMem (fun x => { x with devFrames := x.devFrames ++ freeFrames 2 m0 }) m0
    stampStartup 2 { s with m := lightPorts m1 }
  else s)

/-- OPTICAL_WAIT_EXPIRY (R624, R621 step 6): CXL training begins. -/
def execOpticalWaitExpiry (s : State) : Host.Outcome State Fault Refusal :=
  .next (if s.m.dev.st == .train && s.m.dev.opticalStep then
    let all := (List.range 8).all (fun p => !mayTrain s.m p || (portAt s.m p).st == 5)
    let t := (s.boot.startupTimes.getD 2 0) * 10000 + 500 * 10000000
    let m1 := if all then s.m else timeTo t s.m
    let m2 := { m1 with
      dev := { m1.dev with opticalStep := false, stepSix := true }
      cxl := { m1.cxl with ports := m1.cxl.ports.map (fun p => { p with training := (!p.perst && tbit m1.pwr.refs 2) }) } }
    stampStartup 3 { s with m := m2 }
  else s)

/-- Marks the image at the head of the queue as under verification (R631, R645). -/
def startVerify (b : Boot) : Boot :=
  match b.waiting with
  | [] => b
  | w :: _ => { b with bootStatus := leBytes 1 1 ++ leBytes 1 w.path ++ leBytes 2 0 ++ slice b.bootStatus 4 12 }

/-- TRAIN ends in PREBOOT once both CXL ports are in L0, or 1 s after step 6 began (R570, R621). -/
def endTrain (s : State) : State :=
  let t := (s.boot.startupTimes.getD 3 0) * 10000 + 1000 * 10000000
  let m1 := if s.m.cxl.ports.list.all CxlPort.l0 then s.m else timeTo t s.m
  let s1 := { s with m := setDevState .preboot { m1 with dev := { m1.dev with stepSix := false } } }
  onB startVerify (stampStartup 4 s1)

/-- CXL_TRAINING_TIMEOUT (R570, R621). -/
def execCxlTrainingTimeout (s : State) : Host.Outcome State Fault Refusal :=
  .next (if s.m.dev.st == .train && s.m.dev.stepSix then endTrain s else s)

/-! ### Firmware (R629 to R632) -/

/-- R630: the abort of the first check that fails, or 0; and D. -/
def verifyImage (img : List Byte) : Nat × List Byte :=
  let body := octs img 12 4
  let len := 128 + body + 128
  let fmtOk := slice img 0 4 == [0x50#8, 0x59#8, 0x46#8, 0x57#8] && octs img 4 2 == 1 && decide (4096 ≤ body) &&
    decide (body ≤ 8388608) && body % 64 == 0 && img.length == len && zeroOcts img 16 8 && zeroOcts img 81 47 &&
    zeroOcts img (128 + body + 114) 14
  if !fmtOk then (0x0F200001, [])
  else
    let key := slice img 24 57
    let d := shake256 (img.take (128 + body)) 64
    if shake256 key 32 != Config.rootKeyHash then (0x0F200002, d)
    else if decide (1 < octs img 6 2) then (0x0F200004, d)
    else if !Ed.verify key d (slice img (128 + body) 114) then (0x0F200003, d)
    else (0, d)

/-- A ring with the count of its cancellations, as an image that came through it keeps them. -/
def ringRef (ring : Nat) (m : Mach) : Nat := ring % 4 + 4 * (m.cxl.rings.getD (ring % 4) {}).epoch

/-- Marks the command of a ring done with a status (R563), unless the ring was cancelled since. -/
def ringDone (ref status : Nat) (m : Mach) : Mach :=
  let r := m.cxl.rings.getD (ref % 4) {}
  match r.current with
  | some c =>
    if r.epoch == ref / 4 then
      { m with cxl := { m.cxl with rings := m.cxl.rings.set (ref % 4) { r with current := some { c with status := status, ready := true } } } }
    else m
  | none => m

/-- The path's state abort for an image discarded unverified (R632). -/
def refuseImage (w : FwImage) (code : Nat) (m : Mach) : Mach :=
  match w.ring with
  | some r => ringDone r code m
  | none => emit (.refusedWith code) m

/-- BootStatus after `n` images more are refused, the last with an abort (R645). -/
def bootRefused (state path n code : Nat) (b : Boot) : List Byte :=
  leBytes 1 state ++ leBytes 1 path ++ leBytes 2 0 ++ (if n == 0 then slice b.bootStatus 4 4 else leBytes 4 code) ++
    leBytes 4 (octs b.bootStatus 8 4 + n) ++ leBytes 4 0

/-- The state abort of an image's path (R632). -/
def stateAbort (w : FwImage) : Nat := if w.ring.isSome then 0x0D200002 else 0x0E200004

/-- FIRMWARE_VERIFY_COMPLETE (R630, R632). -/
def execFirmwareVerifyComplete (s : State) : Host.Outcome State Fault Refusal :=
  .next (match s.boot.waiting with
  | [] => s
  | w :: rest =>
    if s.m.dev.st != .preboot || s.boot.fwAccepted then s
    else
      let (code, d) := verifyImage w.bytes
      if code == 0 then
        let b := { s.boot with
          waiting := [w], fwAccepted := true, fwDigest := d, fwVersion := octs w.bytes 8 4,
          bootStatus := bootRefused 2 w.path rest.length ((rest.getLast?.map stateAbort).getD 0) s.boot }
        { s with
          boot := b
          m := rest.foldl (fun m x => count 0x6F00 0x01 (refuseImage x (stateAbort x) m)) s.m }
      else
        let b := startVerify { s.boot with waiting := rest, bootStatus := bootRefused 3 w.path 1 code s.boot }
        { s with boot := b, m := raiseDev 0x0F04 (count 0x6F00 0x01 (refuseImage w code s.m)) })

/-- Delivers an image (R631, R632). In PREBOOT the verification of the first begins at once. -/
def deliverImage (w : FwImage) (s : State) : State :=
  let s1 := stampStartup 5 (onB (fun b => { b with waiting := b.waiting ++ [w] }) s)
  if s.m.dev.st == .preboot && s.boot.waiting.isEmpty then onB startVerify s1 else s1

/-- The states in which the management path accepts an image (R631). -/
def acceptsImage (s : State) : Bool :=
  (s.m.dev.st == .selftest || s.m.dev.st == .train || s.m.dev.st == .preboot) && !s.boot.fwAccepted

/-- A whole value written to `0x1200.10` (R631). -/
def writeFirmware (v : List Byte) (s : State) : WR :=
  if acceptsImage s then .ok (deliverImage ⟨v, 0, none⟩ s) else .error 0x0E200004

/-- A whole value written to `0x1200.11` (R635). -/
def writeHelper (v : List Byte) (s : State) : WR :=
  if acceptsImage s || (s.m.dev.st == .preboot) then .ok (onB (fun b => { b with helper := some (slice v 0 4096) }) s)
  else .error 0x0E200004

/-! ### Identity (R634 to R637) -/

/-- Bit i of a list of octets, bit 0 of octet 0 first. -/
def bitOf (l : List Byte) (i : Nat) : Bool := tbit (l.getD (i / 8) 0).toNat (i % 8)

/-- Octets of the bits of a number. -/
def octetsOfBits (n : Nat) (f : Nat → Bool) : List Byte :=
  (List.range n).map (fun o => BitVec.ofNat 8 ((List.range 8).foldl (fun a k => a + (if f (8 * o + k) then 2 ^ k else 0)) 0))

/-- Rep(K): key bit k in bits 127k to 127k + 126 (R634). -/
def repKey (k : List Byte) : List Byte := octetsOfBits 4064 (fun j => bitOf k (j / 127))

/-- Octet by octet exclusive or. -/
def xorBytes (a b : List Byte) : List Byte := (a.zip b).map (fun p => p.1 ^^^ p.2)

/-- R636: key bit k is the majority of its 127 bits. -/
def majorityKey (x : List Byte) : List Byte :=
  octetsOfBits 32 (fun k => decide (64 ≤ ((List.range 127).filter (fun j => bitOf x (127 * k + j))).length))

/-- Draws `n` octets from the entropy source. -/
def drawEntropy (n : Nat) (b : Boot) : List Byte × Boot :=
  ((List.range n).map (fun i => Config.entropyByte (b.entropy + i)), { b with entropy := b.entropy + n })

/-- "PY-DV32A identity" (R637). -/
def identityLabel : List Byte :=
  [0x50, 0x59, 0x2D, 0x44, 0x56, 0x33, 0x32, 0x41, 0x20, 0x69, 0x64, 0x65, 0x6E, 0x74, 0x69, 0x74, 0x79].map (BitVec.ofNat 8)

/-- The identity private key (R637). -/
def identityPriv (b : Boot) : List Byte := shake256 (identityLabel ++ b.secret) 57

/-- R636, R637: derives the identity; the code raised, or 0. -/
def deriveIdentity (b : Boot) : Boot × Nat :=
  let fin (b : Boot) : Boot :=
    { b with identityKey := Ed.publicKey (identityPriv b), puf := [] }
  match b.helper with
  | some h =>
    let k := majorityKey (xorBytes b.puf (slice h 0 4064))
    if shake256 k 32 == slice h 4064 32 then
      (fin { b with secret := k, identityStatus := 1, helperOut := h }, 0)
    else ({ b with identityStatus := 3, puf := [] }, 0x0F05)
  | none =>
    let (k, b1) := drawEntropy 32 b
    (fin { b1 with secret := k, identityStatus := 2,
                   helperOut := xorBytes b.puf (repKey k) ++ shake256 k 32 }, 0)

/-- IDENTITY_DERIVATION_COMPLETE (R636, R637, R639). -/
def execIdentityDerivationComplete (s : State) : Host.Outcome State Fault Refusal :=
  .next (if s.m.dev.st == .preboot && s.boot.fwAccepted then
    let (b, code) := deriveIdentity s.boot
    let ring := match b.waiting with | w :: _ => w.ring | [] => none
    let m1 := match ring with | some r => ringDone r 0 s.m | none => s.m
    let m2 := setDevState .config m1
    stampStartup 6 { s with boot := { b with waiting := [] }, m := if code == 0 then m2 else raiseDev code m2 }
  else s)

/-- SerialNumber (R612): zero until an identity key exists. -/
def serialNumber (b : Boot) : List Byte :=
  if b.identityStatus == 1 || b.identityStatus == 2 then (shake256 b.identityKey 32).take 8 else List.replicate 8 0

/-! ### Attestation and debug authorisation (R640 to R644) -/

/-- RepairMap as the dictionary reads it. -/
def repairBytes (b : Boot) : List Byte := b.repairMap.map (BitVec.ofNat 8)

/-- R640: octets 0 to 303 of the report. -/
def attestBody (s : State) (nonce : List Byte) : List Byte :=
  let b := s.boot
  let m := s.m
  let flags := (if b.identityStatus == 2 then 1 else 0) + 2 * dnum m 0xA000 0x01 + (if b.keyKind == 0 then 0 else 4) +
    (if m.mgmt.imageApplied then 8 else 0)
  leBytes 2 1 ++ leBytes 2 flags ++ leBytes 2 1 ++ leBytes 1 m.dev.st.code ++ leBytes 1 (nodeId m) ++
  leBytes 1 (boardSlot m) ++ leBytes 1 b.keyKind ++ leBytes 2 0 ++ leBytes 4 b.fwVersion ++ dval m 0x5000 0x02 ++
  leBytes 4 0 ++ leBytes 8 (nowNs m) ++ leBytes 8 m.mgmt.imageId ++ nonce ++ b.fwDigest ++ Config.rootKeyHash ++
  shake256 (repairBytes b) 32 ++ b.keyHash ++ b.identityKey ++ leBytes 15 0

/-- A write of `0x7000.10 AttestNonce` (R639, R640). -/
def writeNonce (v : List Byte) (s : State) : WR :=
  if s.boot.identityStatus == 1 || s.boot.identityStatus == 2 then
    let body := attestBody s v
    let sig := Ed.sign (identityPriv s.boot) (shake256 body 64)
    .ok (onM (count 0x6F00 0x02) (onB (fun b => { b with attestReport := body ++ sig ++ List.replicate 6 0 }) s))
  else .error 0x0F200006

/-- A write of `0x7000.20 DebugKeyHash` (R641). -/
def writeKeyHash (v : List Byte) (s : State) : WR :=
  if s.boot.keyLocked then .error 0x0F200009
  else .ok (onB (fun b => { b with keyHash := v, keyLocked := true }) s)

/-- A read of `0x7000.21 DebugChallenge` (R642). -/
def readChallenge (s : State) : List Byte × State :=
  let (c, b) := drawEntropy 32 s.boot
  (c, onM (count 0x6F00 0x04) { s with boot := { b with challenge := some c } })

/-- R643: the kind of key a token grants, or none. -/
def tokenKind (b : Boot) (t : List Byte) : Option Nat :=
  let key := slice t 40 57
  let h := shake256 key 32
  let serialOk := slice t 0 8 == serialNumber b
  let chOk := b.challenge == some (slice t 8 32)
  let vendor := h == Config.rootKeyHash
  let owner := h == b.keyHash && b.keyHash.any (· != 0)
  let sigOk := Ed.verify key (shake256 (slice t 0 104) 64) (slice t 104 114)
  if serialOk && chOk && (vendor || owner) && sigOk then some (if vendor then 1 else 2) else none

/-- A write of `0x7000.22 DebugToken` (R643). The challenge is voided either way. -/
def writeToken (v : List Byte) (s : State) : State × Option Nat :=
  match tokenKind s.boot v with
  | some k => (onM (raiseDev 0x0F07) (onB (fun b => { b with challenge := none, keyKind := k }) s), none)
  | none => (onM (count 0x6F00 0x03) (onB (fun b => { b with challenge := none }) s), some 0x0F200007)

/-- The debug authorisation is present (R644). -/
def debugAuthorised (b : Boot) : Bool := b.keyKind != 0

end Sys2Proof.Machine
end

