-- ==== Sys2Proof/Machine/Sampler.lean ====
section
/-!
DEFINITION. The samplers' commands (03 R113 to R124): starting a request, completing a hop's block, serving and
answering forwards, and the forward timeout.
-/

namespace Sys2Proof.Machine

def smpAt (m : Mach) (s : Nat) : Sampler := m.samplers.get s {}
def setSmp (s : Nat) (x : Sampler) (m : Mach) : Mach := { m with samplers := m.samplers.put s x }

/-- The descriptor of a program, if its context holds one, its pair agrees and its reserved bits are zero (R84, R126). -/
def smpDesc (m : Mach) (key : Nat) : Sr Nat :=
  match m.smpDescs.find key with
  | none => .error 0x0405
  | some p => if !pairOk 512 p.v p.c then .error 0x0401 else if p.v % 2 ^ 69 != 0 then .error 0x10401 else .ok p.v

/-- R668, R115: `te.sample` at issue. The fault record's Detail holds the ProgramId, which R309 does not list: DESIGN CHOICE
(log entry 83). -/
def issueSample (k pid : Nat) (m : Mach) : Mach :=
  let c := coreAt m k
  let key := dkeyOf c.ctx pid
  match m.smpDescs.find key with
  | none => coreFault k 0x0405 255 false c.pc pid m
  | some p =>
    let s := sdSampler p.v
    let x := smpAt m s
    setSmp s { x with queue := x.queue ++ [key] } m

/-- Whether `te.sample` finds the start queue of its sampler full (R115, R305). -/
def sampleFull (m : Mach) (c : Core) (pid : Nat) : Bool :=
  match m.smpDescs.find (dkeyOf c.ctx pid) with
  | none => false
  | some p => decide ((smpAt m (sdSampler p.v)).queue.length ≥ 16)

/-- A step's transfers are in progress for a context (R26). -/
def inPass (c : Ctx) : Bool := c.st == .run && c.pass.running && !c.pass.aborted

/-- Sends one forward of a sampler's request (R120). The Detail names the graph's root object. -/
def sendForward (i s obj : Nat) (n : Need) (m : Mach) : Mach :=
  let c := ctxAt m i
  let x := smpAt m s
  match x.run with
  | none => m
  | some r =>
    let (tag, m1) := freshTag m
    let t := { mkTxn m1 c 0x06 (cutPeer m1 c 3 n.owner) obj (.fwd n.f) with tag := tag }
    let r1 := { r with fwds := r.fwds ++ [⟨tag, n.item, m1.dev.time10⟩] }
    count 0x6400 0x05 (sendFrom (unitXl s) t (setSmp s { x with run := some r1 } m1))

/-- Drops the request of a sampler that raised a fault. -/
def dropRun (s : Nat) (m : Mach) : Mach := setSmp s { smpAt m s with run := none } m

/-- Counts what a sampler's work added to its log (R127), keeps the structures that it read in its cache (R85), makes the
accesses to the pages that it reads for the first time (R54, R65), and counts the reads that waited for an entry (R116): `held` entries hold forwards; where none is left every read waits, and
where the rest does not suffice, how many of them waited follows from latencies that the manual does not give: a free value (log
entry 71). What the scans that turn ranks into positions read is not stated: a free value (under R99, `0x6400.0A`). -/
def countLog (s : Nat) (held : Nat) (old new : SmpLog) (m : Mach) : Mach :=
  let m0 := setSmp s { smpAt m s with cache := new.cached } m
  let m1 := accessPages (unitXl s) (new.pages.filter (fun p => !old.pages.contains p)) m0
  let m2 := countN 0x6400 0x01 (new.draws - old.draws) (countN 0x6400 0x0A (new.types - old.types) m1)
  let n := new.reads - old.reads
  let m3 := if 256 ≤ held then countN 0x6400 0x07 n m2
    else if held + n ≤ 256 then m2
    else countN 0x6400 0x07 ((freshFree m2).1 % (held + n - 255)) (freshFree m2).2
  if new.ranks ≤ old.ranks then m3 else countN 0x6400 0x0A (freshFree m3).1 (freshFree m3).2

/-- Goes on with a sampler's hop: makes the reads and draws that its answers allow, and sends the forwards that it needs and has
not sent, up to 256 outstanding (R116). -/
def smpAdvance (s : Nat) (m : Mach) : Mach :=
  match (smpAt m s).run with
  | none => m
  | some r =>
    let i := r.key / 65536
    match smpDesc m r.key with
    | .error e => smpFault e i (dropRun s m)
    | .ok d =>
      if !stepPairOk (ctxAt m i) then stepFault i m else
      let (o, log) := runHop m (ctxAt m i) d r
      let r0 := { r with log := log }
      let m0 := countLog s r.fwds.length r.log log (setSmp s { smpAt m s with run := some r0 } m)
      match o with
      | .error e => if e == pageWaits then m0 else smpFault e i (dropRun s m0)
      | .ok (.done ..) => m0
      | .ok (.needs l) =>
        let todo := l.filter (fun n => !r.fwds.any (fun f => f.item == n.item))
        let room := 256 - r.fwds.length
        let late := (todo.drop room).filter (fun n => !r.waited.contains n.item)
        let m1 := countN 0x6400 0x07 late.length
          (setSmp s { smpAt m0 s with run := some { r0 with waited := r.waited ++ late.map Need.item } } m0)
        (todo.take room).foldl (fun m n => sendForward i s (sdGraph d) n m) m1

/-- R115, R107: starts the oldest request of a sampler's queue. -/
def samplerStart (s : Nat) (m : Mach) : Mach :=
  let x := smpAt m s
  match x.run, x.queue with
  | none, key :: rest =>
    let i := key / 65536
    let m1 := setSmp s { x with queue := rest } m
    if !inPass (ctxAt m i) || posting m (.sampler s) then m
    else match smpDesc m key with
      | .error e => smpFault e i m1
      | .ok d =>
        match seedList m d with
        | .error e => smpFault e i m1
        | .ok seeds =>
          let fr := seeds.foldl (fun u sd => (lookupInsert (sdTimeMode d) u sd).2) []
          smpAdvance s (access (unitXl s) (sdSeedVa d) (16 * sdSeeds d)
            (setSmp s { x with queue := rest, run := some { key := key, out := sdOut d, frontier := fr } } m1))
  | _, _ => m

/-- The dedup table behind a hop: the sampler's own memory holds it, or the octets of the block's dedup area are left undefined
(R110, R114): free values. -/
def leaveTable (s : Nat) (d : Nat) (r : SmpRun) (uniq : List (Nat × Nat)) (m : Mach) : Mach :=
  let u := (hopBounds d r.hop).2.2
  if dedupBytes u == 0 then
    setSmp s { smpAt m s with table := dedupTable (sdTimeMode d) (pow2ceil (2 * u)) uniq } m
  else
    let (bs, m1) := freshOctets (dedupBytes u) m
    count 0x6400 0x09 (onMem (vput (r.out + 64) bs) m1)

/-- R109 to R113: writes the hop's block once every forward has answered, posts its completion entry, and, once the entry is in its
ring, goes on to the next hop or ends the request. -/
def blockWrite (s : Nat) (m : Mach) : Mach :=
  match (smpAt m s).run with
  | none => m
  | some r =>
    let i := r.key / 65536
    let c := ctxAt m i
    match smpDesc m r.key with
    | .error e => smpFault e i (dropRun s m)
    | .ok d =>
      match (runHop m c d r).1, seedList m d with
      | .ok (.needs _), _ => m
      | .error e, _ => if e == pageWaits then m else smpFault e i (dropRun s m)
      | _, .error e => smpFault e i (dropRun s m)
      | .ok (.done edges uniq counts fwd), .ok seeds =>
        let last := isWalk (sdMethod d) || decide (r.hop ≥ sdHops d)
        let (parts, next) := blockBytes m c d r seeds edges uniq counts fwd last
        let f := writeCheck m.mem i r.out next
        if f != 0 then memFault f i (dropRun s m)
        else
          let m1 := leaveTable s d r uniq (access (unitXl s) r.out next m)
          let m2 := { m1 with mem := parts.foldl (fun mm p => vput (r.out + p.1) p.2 mm) m1.mem }
          let run := if last then none else some { r with
            hop := r.hop + 1, out := r.out + next, frontier := uniq, resp := [], fwds := [], waited := [], log := {} }
          let m3 := countN 0x6400 0x02 edges.length (countN 0x6400 0x03 uniq.length
            (countN 0x6400 0x04 (edges.length - (uniq.length - r.frontier.length)) (setSmp s { smpAt m2 s with run := run } m2)))
          let m4 := postEntry (.sampler s) 0 (sdCore d) (sdRing d) (r.hop * 2 ^ 60 + r.out % 2 ^ 56) m3
          if posting m4 (.sampler s) then m4 else smpAdvance s m4

/-- A sampler goes on with its hop, which may have stood for a page that is in HBM again (R59), and completes its block. -/
def blockComplete (s : Nat) (m : Mach) : Mach :=
  match (smpAt m s).run with
  | none => m
  | some r => if !inPass (ctxAt m (r.key / 65536)) || posting m (.sampler s) then m else blockWrite s (smpAdvance s m)

/-- The samplers that a context claims, ascending. -/
def claimedSamplers (c : Ctx) : List Nat := c.claims.samplers

/-- The claimed sampler that serves a forward: index (partition mod n) among those claimed, ascending (R121). -/
def servingSampler (c : Ctx) (f : Fwd) : Nat :=
  let l := claimedSamplers c
  l.getD (if l.length == 0 then 0 else nodePart f.node % l.length) 0

/-- R121: what the owner answers: count and edges. -/
def serveWork (m : Mach) (c : Ctx) (obj : Nat) (f : Fwd) : Sm (Nat × List (Nat × Nat)) := do
  match objBase m obj with
  | .error e => throw e
  | .ok root =>
    let flags ← readFlags m root
    let (lc, _) ← readNode m c root f.node
    if !lc then throw 0x0403
    else
      let mask := if f.typeStep == 1 then some f.typeMask else none
      let k : DrawKey := ⟨c.seed, c.step, f.stream⟩
      match f.kind with
      | 0 => do
        let es ← expandLocal m flags root k f.method f.node f.bound f.hop f.fanout mask
        return (es.length, es)
      | 1 => return (← degreeLocal m flags root f.node f.bound mask, [])
      | 2 => do
        let e ← pickLocal m flags root f.node f.bound mask f.rank
        return (e.toList.length, e.toList)
      | _ => do
        let e ← moveLocal m flags root k f.seed f.walk f.stepIx f.node f.bound mask
        return (e.toList.length, e.toList)

/-- The owner's answer and the log of its work. -/
def serveForward (m : Mach) (c : Ctx) (s obj : Nat) (f : Fwd) : Except Nat (Nat × List (Nat × Nat)) × SmpLog :=
  (serveWork m c obj f).run { cached := (smpAt m s).cache }

/-- Serves a forward that its sampler has taken. A page that is not in HBM, or a sampler all of whose entries are held by forwards of its
own, leaves it waiting (R59, R116). -/
def serveTaken (s : Nat) (w : FwdIn) (m : Mach) : Mach :=
  match ctxOfTag m w.t.jobTag, w.t.body with
  | some i, .fwd f =>
    let c := ctxAt m i
    if !sameTag c w.t then count 0x6400 0x0B m
    else
      let (o, log) := serveForward m c s w.t.detail f
      let held := match (smpAt m s).run with | some r => r.fwds.length | none => 0
      let waits := decide (256 ≤ held) && decide (w.log.reads < log.reads)
      if waits then
        let x := smpAt m s
        countN 0x6400 0x07 (if w.waited then 0 else log.reads - w.log.reads)
          (setSmp s { x with incoming := x.incoming ++ [{ w with waited := true }] } m)
      else
        let m0 := countLog s (if w.waited then 0 else held) w.log log m
        match o with
        | .error e =>
          if e == pageWaits then
            let x := smpAt m0 s
            setSmp s { x with incoming := x.incoming ++ [{ w with log := log }] } m0
          else smpFault e i m0
        | .ok (n, es) =>
          count 0x6400 0x06 (sendFrom (unitXl s) { mkTxn m0 c 0x86 w.t.src 0 (.fwdRes n es) with tag := w.t.tag } m0)
  | _, _ => m

/-- Tries the forwards that wait at a sampler once more, in the order of their arrival. -/
def serveIncoming (s : Nat) (m : Mach) : Mach :=
  let l := (smpAt m s).incoming
  l.foldl (fun m w => serveTaken s w m) (setSmp s { smpAt m s with incoming := [] } m)

/-- The sampler of a forward has an incoming entry for it, or does not serve it (R121). -/
def forwardRoom (t : Txn) (m : Mach) : Bool :=
  match ctxOfTag m t.jobTag, t.body with
  | some i, .fwd f =>
    let c := ctxAt m i
    !sameTag c t || claimedSamplers c == [] || decide ((smpAt m (servingSampler c f)).incoming.length < 256)
  | _, _ => true

/-- R121, R123: an incoming forward. Beyond the 256 entries of its sampler, link credits hold the sender. -/
def takeForward (t : Txn) (m : Mach) : Mach :=
  match ctxOfTag m t.jobTag, t.body with
  | some i, .fwd f =>
    let c := ctxAt m i
    if !sameTag c t then count 0x6400 0x0B m
    else if claimedSamplers c == [] then progFault 0x0406 i m
    else if !forwardRoom t m then holdTxn ⟨8, 0, 0, t⟩ m
    else serveTaken (servingSampler c f) { t := t } m
  | _, _ => m

/-- R122, R123: a forward's response reaches the request that sent it. A response of the present pass that no request waits for (its
request has stopped with a fault) is dropped and not counted: DESIGN CHOICE (log entry 83). -/
def takeForwardResult (t : Txn) (m : Mach) : Mach :=
  match ctxOfTag m t.jobTag, t.body with
  | some i, .fwdRes n es =>
    if !sameTag (ctxAt m i) t then count 0x6400 0x0B m
    else
      let hit := m.samplers.find? (fun p => match p.2.run with
        | some r => r.key / 65536 == i && r.fwds.any (fun f => f.tag == t.tag)
        | none => false)
      match hit with
      | none => m
      | some (s, x) =>
        match x.run with
        | none => m
        | some r =>
          let item := ((r.fwds.find? (fun f => f.tag == t.tag)).map FwdOut.item).getD 0
          let r1 := { r with resp := r.resp.put item (n, es), fwds := r.fwds.filter (fun f => f.tag != t.tag) }
          serveIncoming s (smpAdvance s (setSmp s { x with run := some r1 } m))
  | _, _ => m

/-- R124: a forward unanswered within ForwardTimeout. -/
def forwardLate (s tag : Nat) (m : Mach) : Mach :=
  match (smpAt m s).run with
  | none => m
  | some r =>
    let i := r.key / 65536
    match r.fwds.find? (fun f => f.tag == tag) with
    | none => m
    | some f =>
      if !inPass (ctxAt m i) then m
      else ctxError 0x0404 i (timeTo (f.at10 + dlat m (ctxAt m i) 0x4200 0x04 * 10000) m)

/-! ### Meanings -/

/-- SAMPLER_REQUEST_START (R115). -/
def execSamplerRequestStart (sampler : Nat) (s : State) : Host.Outcome State Fault Refusal := .next (onM (samplerStart sampler) s)

/-- TEPHRA_BLOCK_COMPLETE (R113). Forwards that waited at the sampler are served in the same turn. -/
def execTephraBlockComplete (sampler : Nat) (s : State) : Host.Outcome State Fault Refusal :=
  .next (onM (fun m => serveIncoming sampler (blockComplete sampler m)) s)

/-- SAMPLE_RESULT (R122). -/
def execSampleResult (t : Txn) (s : State) : Host.Outcome State Fault Refusal := .next (onM (tagged t (takeForwardResult t)) s)

/-- FORWARD_TIMEOUT (R124). -/
def execForwardTimeout (sampler tag : Nat) (s : State) : Host.Outcome State Fault Refusal := .next (onM (forwardLate sampler tag) s)

end Sys2Proof.Machine
end

