-- ==== Sys2Proof/Machine/TableOps.lean ====
section
/-!
DEFINITION. Tables as a gather reads them (05): version descriptors (R181), the row map (R176 to R179), popularity
counts (R189, R190), the caldera's sets (R198, R199) and ash rows (R202).
-/

namespace Sys2Proof.Machine

def tdId (d : Nat) : Nat := fld d 511 496
def tdCtx (d : Nat) : Nat := fld d 495 492
def tdVersion (d : Nat) : Nat := fld d 491 460
def tdEff (d : Nat) : Nat := fld d 459 396
def tdEdge (d : Nat) : Bool := tbit d 395
def tdWidth (d : Nat) : Nat := fld d 394 382
def tdElem (d : Nat) : Nat := fld d 381 381
def tdCache (d : Nat) : Nat := fld d 380 379
def tdAsh (d : Nat) : Nat := fld d 378 377
def tdAshLog (d : Nat) : Nat := fld d 376 372
def tdSalt (d : Nat) : Nat := fld d 371 356
def tdGraph (d : Nat) : Nat := fld d 355 340
def tdPart (d : Nat) : Nat := fld d 339 305 * 2 ^ 21
def tdHot (d : Nat) : Nat := fld d 304 270 * 2 ^ 21
def tdAshVa (d : Nat) : Nat := fld d 269 235 * 2 ^ 21
def tdSnap (d : Nat) : Nat := fld d 234 200 * 2 ^ 21
def tdCaldera (d : Nat) : Nat := fld d 199 184
def tdCounted (d : Nat) : Bool := tbit d 183

def tabAt (m : Mach) (id : Nat) : Table := m.tables.get id {}
def setTab (id : Nat) (t : Table) (m : Mach) : Mach := { m with tables := m.tables.put id t }
def modTab (id : Nat) (f : Table → Table) (m : Mach) : Mach := setTab id (f (tabAt m id)) m

/-- The partition and the local index of a row key. -/
def keyPart (edge : Bool) (key : Nat) : Nat := if edge then fld key 59 48 else fld key 47 36
def keyLocal (edge : Bool) (key : Nat) : Nat := if edge then fld key 47 0 else fld key 35 0

/-- R184: the descriptor that a context's step reads. -/
def stepTable (m : Mach) (i id : Nat) : Sr Nat :=
  match m.tabSnap.find (dkeyOf i id) with
  | none => .error 0x0601
  | some p => if pairOk 512 p.v p.c then .ok p.v else .error 0x0602

/-- Where a row lies: class and VA here, or another device's coordinate on the graph axis. -/
inductive Loc where
  | here (cls va : Nat) (hot : Bool)
  | there (owner : Nat)
deriving DecidableEq, Repr

/-- R176: a partition's group directory VA and row count. -/
def partEntry (m : Mach) (d p : Nat) : Sr (Nat × Nat) := do
  let v ← vread m (tdPart d + 16 * p) 16
  let c ← vread m (tdPart d + 65536 + 16 * p) 16
  if cplBytes v != c then .error 0x0602 else return (octs v 0 8, octs v 8 8)

/-- R177: a group's tail class and slot VA. A field that must be zero and is not carries 0x10602: TBL_DESC_CHECK without a complement
failure, which `0x6600.0E` does not count. -/
def groupEntry (m : Mach) (dir g : Nat) : Sr (Nat × Nat) := do
  let b ← vread m (dir + 16 * g) 16
  let v := octs b 0 8
  if octs b 8 8 != cpl 64 v then .error 0x0602 else if fld v 60 56 != 0 then .error 0x10602 else return (fld v 63 61, fld v 55 0)

/-- R178: EntriesLog2, the areas' VAs, and their slot counts (W16, W8, W4). -/
def hotHeader (m : Mach) (d : Nat) : Sr (Nat × List Nat × List Nat) := do
  let b ← vread m (tdHot d) 128
  if cplBytes (b.take 64) != b.drop 64 then .error 0x0602 else if octs b 0 2 != 1 then .error 0x10602
  else return (octs b 2 1, [octs b 8 8, octs b 16 8, octs b 24 8], [octs b 32 4, octs b 36 4, octs b 40 4])

/-- A hot entry: valid, class, key, slot. -/
def hotEntry (m : Mach) (d h : Nat) : Sr (Bool × Nat × Nat × Nat) := do
  let b ← vread m (tdHot d + 4096 + 32 * h) 32
  if cplBytes (b.take 16) != b.drop 16 then .error 0x0602
  else return (tbit (octs b 0 8) 63, fld (octs b 0 8) 62 60, fld (octs b 0 8) 59 0, octs b 8 4)

/-- R179: the probe's first entry. -/
def hotStart (d key l : Nat) : Nat := foldN (key ^^^ tdId d) >>> (64 - l)

/-- R179: linear probing for a key; answers the entry's index and content. -/
def hotProbe (m : Mach) (d key l : Nat) : Nat → Nat → Sr (Option (Nat × Nat × Nat))
  | 0, _ => .ok none
  | n + 1, h => do
    let (valid, cls, k, slot) ← hotEntry m d h
    if !valid then return none
    else if k == key then return some (h, cls, slot)
    else hotProbe m d key l n ((h + 1) % 2 ^ l)

/-- R178: the VA of a hot slot. -/
def hotVa (areas : List Nat) (w cls slot : Nat) : Nat := areas.getD (cls - 1) 0 + slot * rowBytesOf cls w

/-- R82, R135, R487: the owner of a partition by a graph's partition map, where it is another device to which the
device routes. -/
def otherOwner (m : Mach) (c : Ctx) (graph p : Nat) : Sr Nat := do
  match objBase m graph with
  | .error e => .error (if isDescCheck e then e else 0x0506)
  | .ok root => match ← partOwner m root p with
    | none => .error 0x0506
    | some o => if o == graphRank m c || decide (graphSize m c ≤ o) then .error 0x0506 else return o

/-- R179: resolves a key of a version. -/
def resolveRow (m : Mach) (c : Ctx) (d key : Nat) : Sr Loc := do
  let p := keyPart (tdEdge d) key
  let i := keyLocal (tdEdge d) key
  let (dir, rows) ← partEntry m d p
  if dir == 0 then
    if tdGraph d == 0 then .error 0x0506 else return .there (← otherOwner m c (tdGraph d) p)
  else if decide (rows ≤ i) then .error 0x0506
  else
    let hot ← if tdCache d == 2 then do
        let (l, areas, _) ← hotHeader m d
        let e ← hotProbe m d key l (2 ^ l) (hotStart d key l)
        pure (e.map (fun x => (x.2.1, hotVa areas (tdWidth d) x.2.1 x.2.2)))
      else pure none
    match hot with
    | some (cls, va) => return .here cls va true
    | none =>
      let (cls, slot) ← groupEntry m dir (i / 4096)
      return .here cls (slot + i % 4096 * rowBytesOf cls (tdWidth d)) false

/-- The hot entries that a probe for a key reads. -/
def probedEntries (m : Mach) (d key l : Nat) : Nat → Nat → List Nat
  | 0, _ => []
  | n + 1, h => h :: match hotEntry m d h with
    | .ok (true, _, k, _) => if k == key then [] else probedEntries m d key l n ((h + 1) % 2 ^ l)
    | _ => []

/-- The spans that resolving a key reads (R176 to R179). -/
def resolveSpans (m : Mach) (d key : Nat) : List (Nat × Nat) :=
  let p := keyPart (tdEdge d) key
  let i := keyLocal (tdEdge d) key
  [(tdPart d + 16 * p, 16), (tdPart d + 65536 + 16 * p, 16)] ++
  match partEntry m d p with
  | .error _ => []
  | .ok (dir, rows) =>
    if dir == 0 then (match objBase m (tdGraph d) with | .ok root => mapSpans root p | .error _ => [])
    else if decide (rows ≤ i) then []
    else
      let hot := if tdCache d == 2 then match hotHeader m d with
          | .error _ => [(tdHot d, 128)]
          | .ok (l, _, _) => (tdHot d, 128) ::
              (probedEntries m d key l (2 ^ l) (hotStart d key l)).map (fun h => (tdHot d + 4096 + 32 * h, 32))
        else []
      hot ++ (match resolveRow m {} d key with | .ok (.here _ _ true) => [] | _ => [(dir + 16 * (i / 4096), 16)])

/-! ### Popularity (R189, R190) -/

/-- The four counters of a key, as keys of a sketch. -/
def sketchKeys (k : Nat) : List Nat :=
  (List.range 4).map (fun j => j * 65536 + foldN (k ^^^ ((j + 1) * 2 ^ 60)) / 2 ^ 48)

/-- The estimate of a key in a sketch. -/
def sketchEst (s : SMap Nat) (k : Nat) : Nat := ((sketchKeys k).map (fun j => s.get j 0)).foldl min 65535

/-- The memory-side die that keeps a key of the log. -/
def logDie (k : Nat) : Nat := foldN k / 2 ^ 61

/-- R190: offers a key to the candidate log; answers the log and whether a key was turned away. -/
def logOffer (l : List Nat) (k : Nat) : List Nat × Bool :=
  if l.contains k then (l, false)
  else
    let share := l.filter (fun x => logDie x == logDie k)
    let l1 := l.filter (fun x => decide (x < k)) ++ k :: l.filter (fun x => decide (k < x))
    if share.length < 65536 then (l1, false)
    else (l1.erase ((k :: share).foldl max 0), true)

/-- R189, R190: one row read by a GATHER of a Counted table. -/
def countRow (c : Ctx) (id key : Nat) (m : Mach) : Mach :=
  let t := tabAt m id
  let sk := (sketchKeys key).foldl (fun s j => s.put j (min 65535 (s.get j 0 + 1))) t.sketch
  if dlat m c 0x4100 0x07 ≤ sketchEst t.frozen key then
    let (l, away) := logOffer t.log key
    let m1 := setTab id { t with sketch := sk, log := l } m
    if away then count 0x6600 0x0A m1 else m1
  else setTab id { t with sketch := sk } m

/-! ### Caldera (R198, R199) -/

/-- Sets of a table's claim: slots rounded down to a multiple of 16. -/
def calderaSets (d : Nat) : Nat := tdCaldera d * 2 ^ 21 / a64 (2 * tdWidth d) / 16

/-- The ways of a key's set. -/
def calderaSet (d key : Nat) : Nat := if calderaSets d == 0 then 0 else foldN (key ^^^ tdId d) % calderaSets d

/-- The way that holds a key's row of a version: a cached row never changes what a read of another version answers (R184, R201). -/
def calderaFind (t : Table) (set ver key : Nat) : Option (Nat × Way) :=
  ((List.range 16).map (fun w => set * 16 + w)).findSome? (fun q => match t.ways.find q with
    | some x => if x.key == key && x.ver == ver then some (q, x) else none
    | none => none)

/-- R199: the victim of a fill: an invalid way, else least estimate, greatest age, lowest index. -/
def calderaVictim (t : Table) (set : Nat) : Nat × Option Way :=
  let qs := (List.range 16).map (fun w => set * 16 + w)
  match qs.find? (fun q => !t.ways.has q) with
  | some q => (q, none)
  | none =>
    let best := qs.foldl (fun acc q =>
      let x := t.ways.get q { key := 0, data := [] }
      let y := t.ways.get acc { key := 0, data := [] }
      let ex := sketchEst t.sketch x.key
      let ey := sketchEst t.sketch y.key
      if ex < ey || (ex == ey && decide (x.age > y.age)) then q else acc) (set * 16)
    (best, t.ways.find best)

/-- R199: offers a row that returned by its deadline for a fill. A key that the cache holds by then is not filled again (R200,
R201). A way has no hit before its first (R199). Of the misses that are not filled, CNT_TBL_CALDERA_BYPASS counts those whose offer is
declined for estimate and age: DESIGN CHOICE (log entry 96). -/
def calderaFill (d key : Nat) (data : List Byte) (m : Mach) : Mach :=
  let t := tabAt m (tdId d)
  if tdCache d != 1 || calderaSets d == 0 || (calderaFind t (calderaSet d key) (tdVersion d) key).isSome then m
  else
    let (q, v) := calderaVictim t (calderaSet d key)
    let ok := match v with
      | none => true
      | some x => decide (sketchEst t.sketch x.key < sketchEst t.sketch key) || decide (dnum m 0x4100 0x05 ≤ x.age)
    if ok then setTab (tdId d) { t with ways := t.ways.put q { key := key, ver := tdVersion d, data := data } } m
    else count 0x6600 0x05 m

/-! ### Ash (R202) -/

/-- The ash slot of a key. -/
def ashSlot (d key : Nat) : Nat := foldN (key ^^^ tdSalt d) >>> (64 - tdAshLog d)

/-- The bank that a version's ash rows are read by: that of the old version stays as it was at the switch (R184, R187). -/
def ashBank (t : Table) (d : Nat) : Nat :=
  match t.old with
  | some p => if tdVersion p.v == tdVersion d then t.oldBank else t.bank
  | none => t.bank

/-- The VA of a bank's slot. -/
def ashVa (d bank slot : Nat) : Nat := tdAshVa d + (bank * 2 ^ tdAshLog d + slot) * rowBytesOf 4 (tdWidth d)

/-- The span of a key's ash row, if the table keeps one. -/
def ashSpans (m : Mach) (d key : Nat) : List (Nat × Nat) :=
  if tdAsh d == 2 then [(ashVa d (ashBank (tabAt m (tdId d)) d) (ashSlot d key), rowBytesOf 4 (tdWidth d))] else []

/-- R202: the ash row of a key in binary32. -/
def ashRow (m : Mach) (d key : Nat) : List Nat :=
  if tdAsh d == 2 then
    decodeRow 4 (tdWidth d) 1 (vget m.mem (ashVa d (ashBank (tabAt m (tdId d)) d) (ashSlot d key)) (rowBytesOf 4 (tdWidth d)))
  else List.replicate (tdWidth d) 0

/-- A parity error in staging, for which no code is listed (R508, R512; log entry 85). -/
def stagingParity : Nat := 0x10000

/-- Faults of a row fetch: which codes are program faults (R126, R170, R205), and the counters of check failures. -/
def gsFault (code i : Nat) (m : Mach) : Mach :=
  if [0x0502, 0x0503, 0x0506, 0x0507, 0x0509, 0x050A, 0x050B, 0x0601, 0x0603, 0x0604, 0x0607, 0x0608].contains code then
    progFault code i m
  else if code == 0x10507 then progFault 0x0507 i (count 0x6500 0x0C m)
  else if code == 0x0501 then ctxError code i (count 0x6500 0x0C m)
  else if code == stagingParity then dataParity i m
  else if code == 0x10501 then ctxError 0x0501 i m
  else if code == 0x0602 then ctxError code i (count 0x6600 0x0E m)
  else if code == 0x10602 then ctxError 0x0602 i m
  else if code == 0x0504 || code == 0x0505 || code == 0x0508 then ctxError code i m
  else smpFault code i m

end Sys2Proof.Machine
end

