-- ==== Sys2Proof/Machine/Tiers.lean ====
section
/-!
DEFINITION. Lower-tier reads and their bookkeeping (02 R57 to R66), migration copies and lower-tier writes (02 R71,
R75).
-/

namespace Sys2Proof.Machine

/-- The region that a lower-tier frame lies in. -/
def frameRegion (frame : Nat) : Nat := frame / 2 ^ 29

/-- R57: the host physical address of an octet of a lower-tier frame. -/
def hostAddr (m : Mach) (frame off : Nat) : Nat :=
  (regionAt m (frameRegion frame)).base + frame % 2 ^ 29 * 2 ^ 21 + off

/-- The context that owns a page's object. -/
def pageCtx (m : Mem) (vpn : Nat) : Option Nat := (objAt m (vpn * 2 ^ 21)).map oCtx

/-- Under R66: a migration engine counts the reads of up to 16,384 lower-tier pages a step: that of the memory-side die of the page's
HBM home (log entry 79). -/
def countTierRead (vpn : Nat) (m : Mem) : Mem :=
  if m.readCounts.has vpn ||
      decide ((m.readCounts.filter (fun p => homeDie m p.1 == homeDie m vpn)).length < 16384) then
    { m with readCounts := m.readCounts.put vpn (m.readCounts.get vpn 0 + 1) }
  else m

/-- The die of the unit that a lower-tier read serves: of an engine, of a transfer engine's core, otherwise that of the migration engine of
the page's HBM home. -/
def readDie (m : Mach) (who : Waiter) (va : Nat) : Nat :=
  match who with
  | .item e _ _ | .remote e _ | .op e _ => unitXl e
  | .xfer k => coreXl k
  | _ => 16 + homeDie m.mem (vpnOf va)

/-- Puts a lower-tier read among those outstanding and sends it (R57, R60). -/
def sendTierRead (i : Nat) (who : Waiter) (va len tier frame : Nat) (deadline : Option Nat) (m0 : Mach) : Mach :=
  let m := stepUsed i id m0
  let c := ctxAt m i
  let n := m.mem.nextId
  let rg := frameRegion frame
  let r : TierRead := {
    id := n, ctx := i, step := c.step, replay := c.replay, va := va, len := len, tier := tier, region := rg,
    issuedAt := m.dev.time10, deadline := deadline, lost := m.mem.lostRegions.contains rg, who := who }
  count 0x6D00 0x06 ((if r.lost then id else emit (.tierRead r.id (regionAt m rg).port (hostAddr m frame (va % 2 ^ 21)) len))
    (onMem (fun x => grantRound (readDie m who va) (cxlDie (regionAt m rg).port) { x with reads := x.reads ++ [r], nextId := n + 1 }) m))

/-- Issues a unit's lower-tier read of octets of one page; `budget10` in units of 0.1 ns, none for no deadline (R61). -/
def issueTierRead (i : Nat) (who : Waiter) (va len tier frame : Nat) (budget10 : Option Nat) (m : Mach) : Mach :=
  sendTierRead i who va len tier frame (budget10.map (m.dev.time10 + ·)) (onMem (countTierRead (vpnOf va)) m)

/-- Puts a lower-tier write of octets of a page among those outstanding and sends it (R60, R75). -/
def sendTierWrite (i vpn frame off : Nat) (mig : Bool) (out : Nat → Nat → Nat → Out) (m0 : Mach) : Mach :=
  let m := stepUsed i id m0
  let c := ctxAt m i
  let id := m.mem.nextId
  let rg := frameRegion frame
  count 0x6D00 0x07 (emit (out id (regionAt m rg).port (hostAddr m frame off))
    (onMem (fun x => grantRound (16 + homeDie x vpn) (cxlDie (regionAt m rg).port)
      { x with writes := x.writes ++ [⟨id, i, rg, frame, c.step, c.replay, if mig then some vpn else none⟩], nextId := id + 1 }) m))

/-- The page pieces of a span as (VA, length). -/
def pagePieces (va n : Nat) : List (Nat × Nat) :=
  (spanVpns va n).map (fun p =>
    let a := max va (p * 2 ^ 21)
    (a, min (va + n) ((p + 1) * 2 ^ 21) - a))

/-- Sends what a span's lower-tier pages now hold to their tier; Q1 and Q3 wait for the completions (R75). -/
def writeLower (i va n : Nat) (m : Mach) : Mach :=
  (pagePieces va n).foldl (fun m p =>
    match walkVpn m.mem (vpnOf p.1) with
    | .bad _ => m
    | .entry v =>
      if pTier v == 0 then m
      else sendTierWrite i (vpnOf p.1) (pFrame v) (p.1 % 2 ^ 21) false (fun id port addr => .tierWrite id port addr (vget m.mem p.1 p.2)) m) m

/-! ### Shards (12 R441) -/

/-- Fields of a transfer entry (R488). -/
def teKind (v : Nat) : Nat := fld v 491 489
def teShard (v : Nat) : Nat := fld v 298 283

/-- Every transfer entry of a context agrees with its complement: looking for an entry uses each (R488). -/
def entriesOk (m : Mach) (i : Nat) : Bool := (ctxAt m i).gey.entries.all (fun e => pairOk 512 e.desc.v e.desc.c)

/-- An object is a shard: a GATHER or REGATHER entry of the context names it (R488, R490). -/
def isShard (c : Ctx) (obj : Nat) : Bool :=
  c.gey.entries.any (fun e => (teKind e.desc.v == 1 || teKind e.desc.v == 2) && teShard e.desc.v == obj)

/-- Generation and CommitStep of a shard. -/
def shardOf (m : Mach) (obj : Nat) : Pair × Pair := m.shards.get obj (mkPair 32 0, mkPair 32 0)

/-- R441: a shard that is written takes the step's CommitStep. -/
def shardWritten (i va : Nat) (m : Mach) : Mach :=
  match objAt m.mem va with
  | some v =>
    if isShard (ctxAt m i) (oId v) then
      { m with shards := m.shards.put (oId v) ((shardOf m (oId v)).1, mkPair 32 ((ctxAt m i).step % 2 ^ 32)) }
    else m
  | none => m

/-- Writes octets of a context's parameters, state and tables: into the source frame of a migrating page, whose blocks become dirty (R71).
Nothing is written once the context is on the failure path (R521). In Q1 a shard takes its CommitStep (R441). -/
def putQ1 (i va : Nat) (bs : List Byte) (m : Mach) : Mach :=
  let f := readCheck m.mem va bs.length
  if (ctxAt m i).st == .halt then m
  else if f != 0 then memFault f i m
  else
    let m1 := writeLower i va bs.length (onMem (vput va bs) (homeXlate va bs.length m))
    if (ctxAt m i).pass.committed && (ctxAt m i).pass.quench == 0 then shardWritten i va m1 else m1

/-- R61: the deadline budget of an object's reads, in units of 0.1 ns. -/
def readBudget10 (m : Mach) (c : Ctx) (va : Nat) : Nat :=
  let b := match objAt m.mem va with | some v => oBudget v | none => 0
  if b == 0 then dlat m c 0x4000 0x0A * 10 else b * 10000

/-- R63: the timeout of a tier's reads, in units of 0.1 ns. -/
def tierTimeout10 (m : Mach) (c : Ctx) (tier : Nat) : Nat :=
  dlat m c 0x4000 (if tier == 1 then 0x08 else 0x09) * 10000

def readById (m : Mach) (id : Nat) : Option TierRead := m.mem.reads.find? (fun r => r.id == id)
def dropRead (id : Nat) (m : Mach) : Mach := onMem (fun x => { x with reads := x.reads.filter (fun r => r.id != id) }) m
def modRead (id : Nat) (f : TierRead → TierRead) (m : Mach) : Mach :=
  onMem (fun x => { x with reads := x.reads.map (fun r => if r.id == id then f r else r) }) m

/-- R60: the read's tag names the context's present step and replay. -/
def readTagged (m : Mach) (r : TierRead) : Bool :=
  let c := ctxAt m r.ctx
  r.step == c.step && r.replay == c.replay

/-- A read of the context's present step, or of a digest, which is taken between steps. -/
def readCurrent (m : Mach) (r : TierRead) : Bool :=
  ((ctxAt m r.ctx).st == .run || (match r.who with | .digest _ => true | _ => false)) && readTagged m r

/-- R60: the tag of a write names the context's present step and replay. -/
def writeCurrent (m : Mach) (w : TierWrite) : Bool :=
  let c := ctxAt m w.ctx
  w.step == c.step && w.replay == c.replay

/-! ### Records of memory errors (15 R509, R510, R532) -/

/-- The 2 bits that RecoveryMap holds for an object (R510). -/
def mapClass (m : Mach) (id : Nat) : Nat := (octs (dval m 0x8100 0x12) (id / 4) 1 >>> (2 * (id % 4))) % 4

/-- R510, R514: the class by which an error in an object is treated: 0 RECOMPUTE, 1 PERSISTENT, 2 REPLICATED. -/
def recoveryClass (m : Mach) (i v : Nat) : Nat :=
  let k := mapClass m (oId v)
  let k1 := if k == 0 && [0, 1, 2, 3, 4, 7].contains (oClass v) then 1 else k
  if k1 == 2 && cutSize m (ctxAt m i) 0 == 1 then 1 else k1

/-- R532: LastDataError. -/
def dataError (i va obj cls source stack outcome frame : Nat) (m : Mach) : Mach :=
  { m with lastDataError := leBytes 8 va ++ leBytes 2 obj ++ leBytes 1 cls ++ leBytes 1 source ++ leBytes 1 stack ++
      leBytes 1 outcome ++ leBytes 2 0 ++ leBytes 8 (ctxAt m i).step ++ leBytes 4 frame ++ leBytes 4 0 }

/-- The stack and the frame of a VA's page; the reported stack where the page is not in HBM or has no entry. -/
def errorPlace (m : Mach) (va stack : Nat) : Nat × Nat :=
  match walkVpn m.mem (vpnOf va) with
  | .entry e => (if pTier e == 0 then pFrame e / 32768 else stack, pFrame e)
  | .bad _ => (stack, 0)

/-! ### Migration copies (R59, R70 to R72) -/

/-- The pending migration of a page. -/
def migOf (m : Mach) (vpn : Nat) : Option Mig := m.mem.migs.find? (fun g => g.vpn == vpn)
def modMig (vpn : Nat) (f : Mig → Mig) (m : Mach) : Mach :=
  onMem (fun x => { x with migs := x.migs.map (fun g => if g.vpn == vpn then f g else g) }) m

/-- The copy's write into a lower tier (R59): the octets of the page. -/
def writeCopy (i : Nat) (g : Mig) (m : Mach) : Mach :=
  if g.dstTier == 0 then m
  else sendTierWrite i g.vpn g.dstFrame 0 true (fun id port addr => .tierCopy id port addr (2 ^ 21)) m

/-- A copy passes the schedulers of its HBM frames (11 R397, R399). -/
def grantCopy (g : Mig) (m : Mem) : Mem :=
  let x := 16 + homeDie m g.vpn
  [(g.srcTier, g.srcFrame), (g.dstTier, g.dstFrame)].foldl (fun m p => if p.1 == 0 then grantStack x (p.2 / 32768) m else m) m

/-- A copy goes on: what it still has to read of a lower-tier source is read, then what it has to write of a lower-tier destination
written (R59). Requests of an earlier step or replay are issued anew, for their answers are discarded (R60). -/
def goCopy (i : Nat) (g : Mig) (m : Mach) : Mach :=
  let m1 := modMig g.vpn (fun g => { g with begun := true, carrier := i }) (onMem (grantCopy g) m)
  if g.srcTier != 0 && !g.fetched then sendTierRead i (.mig g.vpn) (g.vpn * 2 ^ 21) (2 ^ 21) g.srcTier g.srcFrame none m1
  else if g.stored then m1 else writeCopy i g m1

/-- The copies that a pass of context `i` carries: of pages of its own objects and of contexts in no step, unless a running pass of
another context carries them. DESIGN CHOICE: R70 does not say whose step a copy continues in (log entry 79). -/
def carries (m : Mach) (i : Nat) (g : Mig) : Bool :=
  !g.copied && (match pageCtx m.mem g.vpn with
    | some j => (j == i || (ctxAt m j).st != .run) && (!g.begun || g.carrier == i || (ctxAt m g.carrier).st != .run)
    | none => false)

/-- The copies that are not complete go on with a pass that starts (R68, R70). -/
def startCopies (i : Nat) (m : Mach) : Mach := (m.mem.migs.filter (carries m i)).foldl (fun m g => goCopy i g m) m

/-- A step-abort discards the copies in progress: they start again from the first octet (R26, R72). Their accesses keep their tags, so that
what answers later is discarded (R60). Migrations, frames and dirty bits stay. -/
def stopCopies (i : Nat) (m : Mach) : Mach :=
  onMem (fun x => { x with
    migs := x.migs.map (fun g => if g.carrier == i && !g.copied then { g with begun := false, fetched := false, stored := false } else g) }) m

/-- A read of a page's copy answers: the copy goes on into a lower tier, if it goes there. -/
def copyRead (vpn : Nat) (m : Mach) : Mach :=
  match migOf m vpn with
  | some g => if g.begun && !g.copied then writeCopy g.carrier g (modMig vpn (fun g => { g with fetched := true }) m) else m
  | none => m

/-- Sends a read of a page's octets again, from where the page now lies. -/
def readAgain (r : TierRead) (m : Mach) : Mach :=
  match walkVpn m.mem (vpnOf r.va) with
  | .entry v => if pTier v == 0 then m else sendTierRead r.ctx r.who r.va r.len (pTier v) (pFrame v) none m
  | .bad _ => m

/-- What an engine does about a read that will not answer: a copy goes on in the next pass; a recopy, a HOT copy, a scan and a digest
read again (log entry 79). -/
def readFailed (r : TierRead) (m : Mach) : Mach :=
  if !readTagged m r then m
  else match r.who with
    | .mig v => modMig v (fun g => { g with begun := false }) m
    | .recopy _ | .hot _ _ | .scan _ | .digest _ => readAgain r m
    | _ => m

/-- R63: a read's timeout is reached, whether or not its response would be used. A read of an earlier pass of the present step raises
nothing: the replay has taken its place (17, the table of a link loss; log entry 79). -/
def tierTimeout (id : Nat) (m : Mach) : Mach :=
  match readById m id with
  | none => m
  | some r =>
    let c := ctxAt m r.ctx
    let m1 := dropRead id (timeTo (r.issuedAt + tierTimeout10 m c r.tier) m)
    if r.step == c.step && r.replay != c.replay then m1
    else if loaded c then readFailed r (ctxError 0x0703 r.ctx m1) else raiseDev 0x0703 m1

/-- Every octet of a copy is at its destination. -/
def copyDone (g : Mig) : Bool := g.begun && (g.srcTier == 0 || g.fetched) && (g.dstTier == 0 || g.stored)

/-- A page's migration copy reaches its last octet (R70, R71). Blocks that were written before stay dirty. -/
def migrationCopied (vpn : Nat) (m : Mach) : Mach :=
  match m.mem.migs.find? (fun g => g.vpn == vpn && !g.copied) with
  | none => m
  | some g =>
    if !copyDone g then m
    else onMem (fun x => { x with
      phys := cellsCopy x.phys (placeOf g.srcTier g.srcFrame 0) (placeOf g.dstTier g.dstFrame 0) (2 ^ 21),
      touched := dedupKeep ((if g.srcTier == 0 then [g.srcFrame] else []) ++ (if g.dstTier == 0 then [g.dstFrame] else []) ++ x.touched),
      migs := x.migs.map (fun y => if y.vpn == vpn then { y with copied := true } else y) }) m

/-- R60, R75, R520: a lower-tier write completes. One whose tag is stale is discarded. A copy's write that ends with an
error leaves the copy incomplete: it starts again with the next pass (log entry 79). -/
def tierWritten (id : Nat) (err : Bool) (m : Mach) : Mach :=
  match m.mem.writes.find? (fun w => w.id == id) with
  | none => m
  | some w =>
    let m1 := onMem (fun x => { x with writes := x.writes.filter (fun y => y.id != id) }) m
    if !writeCurrent m w then count 0x6700 0x06 m1
    else match w.mig with
      | some v => modMig v (fun g => if err then { g with begun := false } else { g with stored := true }) m1
      | none => if err then failCtx w.ctx 0x0705 0x06 255 0 2 m1 else m1

/-- R572: regions become unreachable; the reads outstanding on them run on, and their responses are never delivered. -/
def loseRegions (ks : List Nat) (x : Mem) : Mem :=
  { x with lostRegions := x.lostRegions ++ ks.filter (fun k => !x.lostRegions.contains k),
           reads := x.reads.map (fun r => if ks.contains r.region then { r with lost := true } else r) }

/-- R75, R572, R580: a region's port or device is lost: the device reports it, and every context in RUN classes the error. -/
def regionDown (k : Nat) (m : Mach) : Mach :=
  if (regionAt m k).kind == 0 then m
  else allRunning (ctxClassed 0x0706) (onMem (loseRegions [k]) (raiseDev 0x0706 m))

/-- R75: a region becomes unreachable. -/
def regionLost (k : Nat) (m : Mach) : Mach := if m.mem.lostRegions.contains k then m else regionDown k m

/-- TIER_READ_TIMEOUT (R63). -/
def execTierReadTimeout (id : Nat) (s : State) : Host.Outcome State Fault Refusal := .next (onM (tierTimeout id) s)

/-- MIGRATION_COPY_COMPLETE (R70). -/
def execMigrationCopyComplete (vpn : Nat) (s : State) : Host.Outcome State Fault Refusal := .next (onM (migrationCopied vpn) s)

/-- TIER_REGION_UNREACHABLE (R75). -/
def execTierRegionUnreachable (region : Nat) (s : State) : Host.Outcome State Fault Refusal := .next (onM (regionLost region) s)

end Sys2Proof.Machine
end

