-- ==== Sys2Proof/Machine/GatherOps.lean ====
section
/-!
DEFINITION. What a gather or scatter operation reads (04): descriptor fields (R128, R155), the items and segments of a
block's slice (R132, R142, R167), the source of a row (R133 to R135, R154, R180, R672), the reads of a row with their
deadlines (R61, R165, R199, R667), and the reduction of a segment (R143).
-/

namespace Sys2Proof.Machine

def gdOp (d : Nat) : Nat := fld d 491 490
def gdReduce (d : Nat) : Bool := tbit d 489
def gdItems (d : Nat) : Nat := fld d 488 487
def gdRed (d : Nat) : Nat := fld d 486 484
def gdList (d : Nat) : Bool := tbit d 483
def gdF32 (d : Nat) : Bool := tbit d 482
def gdWGrad (d : Nat) : Bool := tbit d 481
def gdEngine (d : Nat) : Nat := fld d 480 474
def gdSample (d : Nat) : Nat := fld d 473 458
def gdHop (d : Nat) : Nat := fld d 457 455
def gdKind (d : Nat) : Nat := fld d 454 453
def gdObj (d : Nat) : Nat := fld d 452 437
def gdWidth (d : Nat) : Nat := fld d 436 424
def gdStride (d : Nat) : Nat := fld d 423 415 * 64
def gdSlices (d : Nat) : Nat := fld d 414 411 + 1
def gdPathBytes (d : Nat) : Nat := fld d 410 379
def gdTarget (d : Nat) : Nat := fld d 378 363
def gdSeq (d : Nat) : Nat := fld d 362 347
def gdCore (d : Nat) : Nat := fld d 346 334
def gdRing (d : Nat) : Nat := fld d 333 331

def sgKind (d : Nat) : Nat := fld d 491 491
def sgWidth (d : Nat) : Nat := fld d 490 478
def sgPerMb (d : Nat) : Nat := fld d 477 462
def sgCore (d : Nat) : Nat := fld d 461 449
def sgRing (d : Nat) : Nat := fld d 448 446

def engAt (m : Mach) (e : Nat) : Engine := m.engines.get e {}
def setEng (e : Nat) (x : Engine) (m : Mach) : Mach := { m with engines := m.engines.put e x }
def modEng (e : Nat) (f : Engine → Engine) (m : Mach) : Mach := setEng e (f (engAt m e)) m

/-- The descriptor of a program (R131, R669). -/
def gsDesc (m : Mach) (key : Nat) : Sr Nat :=
  match m.gsDescs.find key with
  | none => .error 0x050B
  | some p => if pairOk 512 p.v p.c then .ok p.v else .error 0x0501

/-- A GATHER over WSUM with listed weights (R670). -/
def listWeights (d : Nat) : Bool := gdReduce d && gdRed d == 4 && gdList d

/-- Octets of one row at the data address. -/
def dataRow (d : Nat) : Nat := gdWidth d * (if gdF32 d then 4 else 2)

/-! ### Issue (R163, R164, R669) -/

/-- Operations outstanding from a core: a GATHER until its entry is in its ring, a SCATTER until its last end marker. -/
def gsOutstanding (m : Mach) (k : Nat) : Nat :=
  (m.engines.map (fun p => ((p.2.queue ++ p.2.running).filter (fun o => o.core == k)).length)).foldl (· + ·) 0

/-- Whether `te.gather` finds its engine's queue full. -/
def gatherFull (m : Mach) (c : Core) (pid : Nat) : Bool :=
  match m.gsDescs.find (dkeyOf c.ctx pid) with
  | none => false
  | some p => decide ((engAt m (gdEngine p.v)).queue.length ≥ 32)

/-- `te.gather` at issue. -/
def issueGather (k pid sl block path data : Nat) (m : Mach) : Mach :=
  let c := coreAt m k
  let key := dkeyOf c.ctx pid
  match m.gsDescs.find key with
  | none => coreFault k 0x050B 255 false c.pc pid m
  | some p =>
    let e := gdEngine p.v
    let x := engAt m e
    setEng e { x with queue := x.queue ++ [{ id := x.nextOp, core := k, key := key, slice := sl, block := block, path := path, data := data, pc := c.pc }],
                      nextOp := x.nextOp + 1 } m

/-! ### The items of a slice -/

/-- One row that a slice names: key, local number (R133), edge-list index or local number, edge ID (R156). -/
structure RowPlan where
  key : Nat
  loc : Nat
  idx : Nat
  edge : Nat
deriving DecidableEq, Repr

/-- A slice of a block: first item or segment, count, rows in record order, rows of each item or segment, sorted;
and how many keys the radix sorter sorts for it, the whole edge list of a sorted block (R142). -/
structure SlicePlan where
  first : Nat
  count : Nat
  rows : List RowPlan
  lens : List Nat
  sorted : Bool
  keys : Nat := 0
deriving DecidableEq, Repr

/-- EdgeId of NODES items (R156). -/
def noEdge : Nat := 2 ^ 60 - 1

/-- R132: first item and item count of slice s of n over N items. -/
def sliceRange (sl n total : Nat) : Nat × Nat := (sl * total / n, (sl + 1) * total / n - sl * total / n)

/-- Running starts of consecutive runs of the given lengths. -/
def startsOf (lens : List Nat) : List Nat :=
  (lens.foldl (fun (acc : List Nat × Nat) n => (acc.1 ++ [acc.2], acc.2 + n)) ([], 0)).1

/-- The spans of a block that an engine reads: header, unique list, edge list, counts (R111, R167). -/
def blockSpans (m : Mach) (block : Nat) : List (Nat × Nat) :=
  (block, 64) :: match vread m block 64 with
  | .error _ => []
  | .ok h => [(block + octs h 16 8, 16 * octs h 8 4), (block + octs h 24 8, 16 * octs h 12 4), (block + octs h 32 8, 4 * octs h 4 4)]

/-- R132, R142, R167: reads a block and lists a slice's rows. `loc` says that keys are local numbers. A RAW gather lists the items of
a block of RWR, METAPATH or LAYERWISE in edge-list order and does not sort it, so that its record is not Sorted (R147): DESIGN
CHOICE (log entry 84). -/
def slicePlan (m : Mach) (c : Ctx) (d sl block : Nat) : Sr SlicePlan := do
  if decide (sl ≥ gdSlices d) then .error 0x0502 else
  let h ← vread m block 64
  if octs h 0 2 != 1 || octs h 2 1 != gdHop d || octs h 56 8 != c.step then .error 0x0502 else
  let method := octs h 3 1 % 16
  let nf := octs h 4 4
  let nu := octs h 8 4
  let ne := octs h 12 4
  let nb ← vread m (block + octs h 16 8) (16 * nu)
  let node (i : Nat) : Nat := octs nb (16 * i) 6
  let loc := gdKind d == 2
  let eb ← vread m (block + octs h 24 8) (16 * ne)
  let src (e : Nat) : Nat := octs eb (16 * e) 4
  let dst (e : Nat) : Nat := octs eb (16 * e + 4) 4
  let cb ← vread m (block + octs h 32 8) (4 * nf)
  let counts := (List.range nf).map (fun f => octs cb (4 * f) 4)
  if (List.range ne).any (fun e => decide (src e ≥ nu) || decide (dst e ≥ nu)) || decide (counts.foldl (· + ·) 0 > ne) then
    .error 0x0502
  else if gdItems d == 0 then
    let (a, n) := sliceRange sl (gdSlices d) nu
    let rows := (rangeFrom a n).map (fun i => (⟨if loc then i else node i, i, i, noEdge⟩ : RowPlan))
    return ⟨a, n, rows, List.replicate n 1, false, 0⟩
  else
    let row (e : Nat) : RowPlan :=
      let id := octs eb (16 * e + 8) 8 % 2 ^ 60
      match gdItems d with
      | 1 => ⟨if loc then src e else node (src e), src e, e, id⟩
      | 2 => ⟨if loc then dst e else node (dst e), dst e, e, id⟩
      | _ => ⟨if loc then e else id, e, e, id⟩
    if !gdReduce d then
      let (a, n) := sliceRange sl (gdSlices d) ne
      return ⟨a, n, (rangeFrom a n).map row, List.replicate n 1, false, 0⟩
    else if decide (method ≥ 5) then
      let (a, n) := sliceRange sl (gdSlices d) nu
      let segs := (rangeFrom a n).map (fun u => (List.range ne).filter (fun e => dst e == u))
      return ⟨a, n, segs.flatten.map row, segs.map List.length, true, ne⟩
    else
      let (a, n) := sliceRange sl (gdSlices d) nf
      let lens := (counts.drop a).take n
      let start := (counts.take a).foldl (· + ·) 0
      return ⟨a, n, (rangeFrom start (lens.foldl (· + ·) 0)).map row, lens, false, 0⟩

/-- R130, R55: the span at the data address, which the operation writes or only reads: 0, or the fault code. -/
def dataCheck (m : Mach) (i data n : Nat) (write : Bool) : Nat :=
  if n == 0 then 0
  else if data < 0x400000 then (if data + n ≤ 0x400000 then 0 else 0x0707)
  else
    let r := readCheck m.mem data n
    if r != 0 then r
    else if entryBad m.mem data then objCheck
    else match objHolding m.mem data n with
      | some v => if oCtx v == i && oClass v == 5 && !(write && oShared v) then 0 else 0x0707
      | none => 0x0707

/-- An engine's access to the span at a data address; cluster staging takes no translation. -/
def dataAccess (e data n : Nat) (m : Mach) : Mach := if data < 0x400000 then m else access (unitXl e) data n m

/-- Octets at a data address: cluster staging or memory. -/
def dataGet (m : Mach) (k data n : Nat) : List Byte :=
  if data < 0x400000 then cellsGet m.mem.staging (stagAddr (clusterOf k) data) n else vget m.mem data n

/-- R508: what an engine reads at a data address: a parity error in cluster staging ends the operation. No chapter gives it a code of its own;
R512 answers it with a replay (log entry 85). -/
def dataRead (m : Mach) (k data n : Nat) : Sr (List Byte) :=
  if decide (data < 0x400000) && stagParBad m.mem (clusterOf k) data n then .error stagingParity else .ok (dataGet m k data n)

/-- Writes at a data address. -/
def dataPut (k data : Nat) (bs : List Byte) (m : Mach) : Mach :=
  if data < 0x400000 then onMem (stagPut (clusterOf k) data bs) m
  else onMem (vput data bs) m

/-! ### Where a row comes from -/

/-- What names a source of rows: SourceKind, SourceObject, RowWidth, edge keys, binary32 LOCAL rows, their stride, and
the graph that names owners of FEATURE rows. -/
structure GsSrc where
  kind : Nat
  obj : Nat
  width : Nat
  edge : Bool
  f32 : Bool := false
  stride : Nat := 0
  graph : Nat := 0
deriving DecidableEq, Repr

/-- The source of a GATHER descriptor. -/
def srcOf (m : Mach) (i d : Nat) : GsSrc :=
  let g := match m.smpDescs.find (dkeyOf i (gdSample d)) with | some p => sdGraph p.v | none => 0
  ⟨gdKind d, gdObj d, gdWidth d, gdItems d == 3, gdF32 d, gdStride d, g⟩

/-- A row's place: class, W8 kind, VA, octets, version and table descriptor, hot; or the rank that holds it. -/
inductive Found where
  | here (cls kind va len ver : Nat) (tab : Option Nat) (hot : Bool)
  | away (owner ver : Nat)
deriving DecidableEq, Repr

/-- R134: the checks of a feature root; answers WidthClass and EdgeRows. A breach that is no complement failure carries
0x10501, so that `0x6500.0C` does not count it. -/
def featureRoot (m : Mach) (root width : Nat) : Sr (Nat × Bool) := do
  let b ← vread m root 64
  let cls := octs b 6 1
  if cplBytes (b.take 32) != b.drop 32 then .error 0x0501
  else if octs b 0 2 != 1 || decide (octs b 2 2 > 1) || octs b 4 2 != width ||
      cls == 0 || decide (cls > 4) || !zeroOcts b 7 25 then .error 0x10501
  else return (cls, octs b 2 2 == 1)

/-- R133 to R135, R179, R180, R188, R672. Of a feature root's directory the entry that is used is compared with its complement at
each use, not the whole of it: DESIGN CHOICE (log entry 84). -/
def findRow (m : Mach) (i : Nat) (s : GsSrc) (key loc : Nat) : Sr Found := do
  let c := ctxAt m i
  if s.kind == 2 then
    match objById m.mem s.obj with
    | none => .error (if objBad m.mem s.obj then objCheck else 0x0506)
    | some v =>
      let va := (objSpan v).1 + loc * s.stride
      let n := s.width * (if s.f32 then 4 else 2)
      if decide (va + n > (objSpan v).2) then .error 0x0506
      else return .here (if s.f32 then 6 else 1) 1 va n 0 none false
  else if s.kind == 0 then
    match objBase m s.obj with
    | .error e => .error e
    | .ok root =>
      let (cls, edges) ← featureRoot m root s.width
      if edges != s.edge then .error 0x0506 else
      let p := keyPart s.edge key
      let v ← vread m (root + 4096 + 16 * p) 16
      let w ← vread m (root + 69632 + 16 * p) 16
      if cplBytes v != w then .error 0x0501
      else if octs v 0 8 == 0 then return .away (← otherOwner m c s.graph p) 0
      else if decide (octs v 8 8 ≤ keyLocal s.edge key) then .error 0x0506
      else
        let n := rowBytesOf cls s.width
        return .here cls 1 (octs v 0 8 + keyLocal s.edge key * n) n 0 none false
  else
    let d ← stepTable m i s.obj
    if tdEdge d != s.edge then .error 0x0607
    else if tdWidth d != s.width then .error 0x0608
    else match ← resolveRow m c d key with
      | .there o => return .away o (tdVersion d)
      | .here cls va hot => return .here cls (tdElem d) va (rowBytesOf cls s.width) (tdVersion d) (some d) hot

/-- The spans of the map entry that names the owner of a partition. -/
def ownerSpans (m : Mach) (graph p : Nat) : List (Nat × Nat) :=
  match objBase m graph with
  | .ok root => mapSpans root p
  | .error _ => []

/-- The spans that finding a row reads: of a feature root its header and the entry used, or the map entry of the row's owner; of a table
its structures. -/
def findSpans (m : Mach) (i : Nat) (s : GsSrc) (key : Nat) : List (Nat × Nat) :=
  if s.kind == 0 then match objBase m s.obj with
    | .error _ => []
    | .ok root =>
      let p := keyPart s.edge key
      [(root, 64), (root + 4096 + 16 * p, 16), (root + 69632 + 16 * p, 16)] ++
        (if vnum m.mem (root + 4096 + 16 * p) 8 == 0 then ownerSpans m s.graph p else [])
  else if s.kind == 1 then match stepTable m i s.obj with
    | .error _ => []
    | .ok d => resolveSpans m d key
  else []

/-! ### Reading a row -/

/-- The values of a row's octets (R139, R210). -/
def rowVals (cls kind w : Nat) (bs : List Byte) : List Nat :=
  if cls == 6 then (groupsOf w 4 bs).map F32.canon else decodeRow cls w kind bs

/-- Tier and frame of a VA's page. -/
def pageTier (m : Mem) (va : Nat) : Nat × Nat :=
  match walkVpn m (vpnOf va) with
  | .entry v => (pTier v, pFrame v)
  | .bad _ => (0, 0)

/-- The parts of spans that lie in lower tiers. -/
def lowSpans (m : Mem) (spans : List (Nat × Nat)) : List (Nat × Nat) :=
  (spans.flatMap (fun s => pagePieces (s.1 % 2 ^ 56) s.2)).filter (fun p => (pageTier m p.1).1 != 0)

/-- Reads of lower-tier parts without a deadline: of structures, not of rows (R59, R61). -/
def readLow (i : Nat) (who : Waiter) (parts : List (Nat × Nat)) (m : Mach) : Mach :=
  parts.foldl (fun m p => issueTierRead i who p.1 p.2 (pageTier m.mem p.1).1 (pageTier m.mem p.1).2 none m) m

/-- Lower-tier entries of an engine in use (R165). -/
def tierEntries (m : Mach) (e : Nat) : Nat :=
  (m.mem.reads.filter (fun r => match r.who with
    | .item x _ _ => x == e
    | .remote x _ => x == e
    | .op x _ => x == e
    | _ => false)).length

/-- Lower-tier parts of a span. -/
def lowParts (m : Mem) (va len : Nat) : Nat := ((pagePieces va len).filter (fun p => (pageTier m p.1).1 != 0)).length

/-- Completes a row once it waits for no part, counts it as read, and offers it to the caldera (R199, R667). -/
def finishRow (i : Nat) (s : GsSrc) (row : GsRow) (m : Mach) : GsRow × Mach :=
  if row.need == 0 && row.st == 2 && row.vals.isNone && !row.remote then
    let bs := (sortBy (fun a b => decide (a.1 ≤ b.1)) row.got).flatMap Prod.snd
    let r := { row with vals := some (rowVals row.cls row.kind s.width bs), got := [] }
    let m1 := if row.offer then match stepTable m i s.obj with
        | .ok d => calderaFill d row.key bs m
        | .error _ => m
      else m
    (r, count 0x6500 0x01 m1)
  else (row, m)

/-- Issues the reads of a row's span: HBM parts answer at once, lower-tier parts wait. -/
def readParts (i e : Nat) (who : Waiter) (deadline : Bool) (row : GsRow) (m0 : Mach) : GsRow × Mach :=
  let m := access (unitXl e) row.va row.len m0
  let b := if deadline then some (readBudget10 m (ctxAt m i) row.va) else none
  (pagePieces row.va row.len).foldl (fun (acc : GsRow × Mach) p =>
    let (t, f) := pageTier acc.2.mem p.1
    if t == 0 then
      ({ acc.1 with got := acc.1.got ++ [(p.1, vget acc.2.mem p.1 p.2)] }, acc.2)
    else ({ acc.1 with need := acc.1.need + 1 }, issueTierRead i who p.1 p.2 t f b acc.2)) (row, m)

/-- The code of a remote gather's source (R136): SourceKind, edge keys, a re-read, an ash re-read. -/
def kindCode (s : GsSrc) (reread ash : Bool) : Nat :=
  s.kind + (if s.edge then 4 else 0) + (if reread then 8 else 0) + (if ash then 16 else 0)

/-- Starts one row whose structures are in HBM or have been read: counts a table's row as resolved, probes the caldera, issues its reads
or its remote gather. Answers none while the engine has no entry for it (R165). -/
def startFound (i e : Nat) (who : Waiter) (s : GsSrc) (reread mayAsk : Bool) (row : GsRow) (m0 : Mach) :
    Sr (Option (GsRow × Mach)) := do
  let c := ctxAt m0 i
  let m := accessAll (unitXl e) (findSpans m0 i s row.key ++ row.aux) m0
  match ← findRow m i s row.key row.loc with
  | .away o ver =>
    if !mayAsk then .error 0x0506
    else if reread && s.kind == 1 && ver != row.version then .error 0x0505 else
    let (tag, m1) := freshTag m
    let t := { mkTxn m1 c 0x03 (cutPeer m1 c 3 o) 0 (.gather row.key s.obj (kindCode s reread row.ash) s.width) with tag := tag }
    return some ({ row with remote := true, tag := tag, at10 := m1.dev.time10, st := 2, version := ver },
      count 0x6500 0x02 (sendFrom (unitXl e) t (if s.kind == 1 then count 0x6600 0x01 m1 else m1)))
  | .here cls kind va len ver tab hot =>
    if reread && mayAsk && s.kind == 1 && ver != row.version then .error 0x0505 else
    let f := readCheck m.mem va len
    if f != 0 then .error f else
    let hit := match tab with
      | some d => if tdCache d == 1 && !hot && lowParts m.mem va len != 0 && calderaSets d != 0 then
          some (calderaFind (tabAt m (tdId d)) (calderaSet d row.key) (tdVersion d) row.key) else none
      | none => none
    let parts := match hit with | some (some _) => 0 | _ => if row.ash then 0 else lowParts m.mem va len
    if parts != 0 && !reread && entryBad m.mem va then .error objCheck else
    if parts != 0 && decide (tierEntries m e + parts > 256) then return none else
    let m2 := match tab with
      | some d =>
        let x := count 0x6600 0x01 m
        let x := if hot then count 0x6600 0x02 x else x
        if reread || !tdCounted d then x else countRow c (tdId d) row.key x
      | none => m
    let r := { row with cls := cls, kind := kind, va := va, len := len, version := ver, st := 2 }
    if row.ash then
      let spans := match tab with | some d => ashSpans m d row.key | none => []
      return some ({ r with vals := some (match tab with | some d => ashRow m d row.key | none => []) },
        count 0x6500 0x01 (accessAll (unitXl e) spans m2))
    else match hit, tab with
      | some (some (q, w)), some d =>
        let m3 := modTab (tdId d) (fun t => { t with ways := t.ways.put q { w with age := 0, hit := true } }) (count 0x6600 0x03 m2)
        return some ({ r with vals := some (rowVals cls kind s.width w.data) }, count 0x6500 0x01 m3)
      | some none, _ =>
        let (r1, m3) := readParts i e who (!reread) { r with offer := true } (count 0x6600 0x04 m2)
        return some (finishRow i s r1 m3)
      | _, _ =>
        let (r1, m3) := readParts i e who (!reread) r m2
        return some (finishRow i s r1 m3)

/-- Starts one row: the structures that name it, and its edge's weight, are read first where they lie in a lower tier (R59). Answers none
while the engine has no entry for it (R165). `reread` marks a SCATTER's re-read (R152, R154), whose version must be `row.version`. -/
def startRow (i e : Nat) (who : Waiter) (s : GsSrc) (reread mayAsk : Bool) (row : GsRow) (m : Mach) : Sr (Option (GsRow × Mach)) :=
  let low := if row.found then [] else lowSpans m.mem (findSpans m i s row.key ++ row.aux)
  if low.isEmpty then startFound i e who s reread mayAsk row m
  else if decide (tierEntries m e + low.length > 256) then .ok none
  else .ok (some ({ row with st := 3, need := low.length, got := [] }, readLow i who low m))

/-! ### Reduction (R143) -/

/-- R143's `better`. -/
def betterC (mx : Bool) (a b : Nat) : Bool :=
  let x := F32.decode a
  let y := F32.decode b
  if mx then y.lt x || (a == 0 && b == 0x80000000) else x.lt y || (a == 0x80000000 && b == 0)

/-- R143 for one element: value and winner. -/
def reduceElem (op : Nat) (vs ws : List Nat) : Nat × Nat :=
  match vs with
  | [] => (0, 0xFFFF)
  | v0 :: rest =>
    match op with
    | 4 =>
      let w (j : Nat) : Nat := ws.getD j 0
      ((rest.zip (rangeFrom 1 rest.length)).foldl (fun acc p => F32.addC .rne false acc (F32.mulC .rne false p.1 (w p.2)))
        (F32.mulC .rne false v0 (w 0)), 0)
    | 2 | 3 =>
      (rest.zip (rangeFrom 1 rest.length)).foldl (fun (acc : Nat × Nat) p =>
        if F32.isNanC acc.1 then acc
        else if F32.isNanC p.1 || betterC (op == 2) p.1 acc.1 then (p.1, p.2) else acc) (v0, 0)
    | _ =>
      let s := rest.foldl (F32.addC .rne false) v0
      (if op == 1 then F32.divC .rne s (i32ToF32 vs.length) else s, 0)

/-- Splits a list into runs of the given lengths. -/
def splitLens {α : Type} : List Nat → List α → List (List α)
  | [], _ => []
  | n :: r, l => l.take n :: splitLens r (l.drop n)

/-- The binary32 weight of an edge of the graph (R143): an edge of a partition that another device holds has a weight
that the device cannot read and the manual does not state. -/
def graphWeight (m : Mach) (c : Ctx) (graph edge : Nat) : Sr Nat := do
  match objBase m graph with
  | .error e => .error e
  | .ok root =>
    let p := keyPart true edge
    if (← partOwner m root p) == some (graphRank m c) then
      let d ← partDesc m root p
      return BF16.cvt F32 .rne false (← edgeWeight m d (keyLocal true edge))
    else return BF16.cvt F32 .rne false ((Config.freeValue edge).toNat % 65536)

/-- The spans that an edge's weight takes (R83, R90, R143). -/
def weightSpans (m : Mach) (c : Ctx) (graph edge : Nat) : List (Nat × Nat) :=
  match objBase m graph with
  | .error _ => []
  | .ok root =>
    let p := keyPart true edge
    mapSpans root p ++ (match partOwner m root p with
      | .ok o => if o == some (graphRank m c) then (root + 16384 + 128 * p, 128) :: (match partDesc m root p with
          | .ok d => [(d.wgt + 2 * keyLocal true edge, 2)]
          | .error _ => []) else []
      | .error _ => [])

/-- The listed weights of a slice (R670). -/
def listedWeights (m : Mach) (k d data count rows : Nat) : Sr (List Nat) := do
  return (groupsOf rows 2 (← dataRead m k (data + count * gdStride d) (2 * rows))).map (BF16.cvt F32 .rne false)

/-- The weights of a slice's rows, where its GATHER sums by weight. -/
def sliceWeights (m : Mach) (i k d data : Nat) (p : SlicePlan) : Sr (List Nat) :=
  if gdReduce d && gdRed d == 4 then
    if gdList d then listedWeights m k d data p.count p.rows.length
    else p.rows.mapM (fun r => graphWeight m (ctxAt m i) (srcOf m i d).graph r.edge)
  else .ok []

end Sys2Proof.Machine
end

