-- ==== Sys2Proof/Machine/Gather.lean ====
section
/-!
DEFINITION. The commands of the gather/scatter engines (04): starting operations, remote gathers, completion of a
GATHER with its path record (R141 to R148), SCATTER with its contributions and end markers (R150 to R161), and the
answers and deadlines of lower-tier reads (R60 to R62, R667).
-/

namespace Sys2Proof.Machine

/-! ### Rows under way -/

/-- Starts the rows of an operation that have not started; a row without an entry waits and is counted once. -/
def startRows (i e op : Nat) (s : GsSrc) (reread : Bool) : Nat → List GsRow → Mach → Sr (List GsRow × Mach)
  | _, [], m => .ok ([], m)
  | n, row :: rest, m =>
    if decide (2 ≤ row.st) then do
      let (r, m1) ← startRows i e op s reread (n + 1) rest m
      return (row :: r, m1)
    else do
      match ← startRow i e (.item e op n) s reread true row m with
      | none =>
        let (r, m1) ← startRows i e op s reread (n + 1) rest (if row.st == 0 then count 0x6500 0x06 m else m)
        return ({ row with st := 1 } :: r, m1)
      | some (row1, m0) =>
        let (r, m1) ← startRows i e op s reread (n + 1) rest m0
        return (row1 :: r, m1)

/-- Replaces an operation of an engine's running list, or drops it. -/
def putOp (e : Nat) (o : GsOp) (m : Mach) : Mach :=
  modEng e (fun x => { x with running := x.running.map (fun y => if y.id == o.id then o else y) }) m
def dropOp (e id : Nat) (m : Mach) : Mach :=
  modEng e (fun x => { x with running := x.running.filter (fun y => y.id != id) }) m
def runningOp (m : Mach) (e id : Nat) : Option GsOp := (engAt m e).running.find? (fun o => o.id == id)

/-- The descriptor of the GATHER whose record a SCATTER reads, and the record's slice. -/
def recordGather (m : Mach) (o : GsOp) : Sr (Nat × Nat × List Byte) := do
  let h ← vread m o.path 128
  let g ← match gsDesc m (dkeyOf (o.key / 65536) (octs h 4 2)) with
    | .ok g => pure g
    | .error e => .error (if e == 0x050B then 0x0507 else e)
  return (g, octs h 6 1 % 16, h)

/-- Source of an operation's rows. -/
def opSource (m : Mach) (o : GsOp) : Sr (GsSrc × Bool) := do
  let i := o.key / 65536
  let d ← gsDesc m o.key
  if gdOp d == 0 then return (srcOf m i d, false)
  else
    let (g, _, _) ← recordGather m o
    return (srcOf m i g, true)

/-- A row whose octets, or some of them, an engine reads from HBM. -/
def hbmRow (mem : Mem) (r : GsRow) : Bool :=
  r.st == 2 && !r.remote && (pagePieces r.va r.len).any (fun q => (pageTier mem q.1).1 == 0)

/-- Rows of an engine that were started by its operations and by remote gathers that it serves, and may hold HBM entries. -/
def hbmRows (mem : Mem) (m : Mach) (e : Nat) : Nat :=
  (((engAt m e).running.flatMap GsOp.rows).filter (hbmRow mem)).length +
    ((m.served.filter (fun v => v.engine == e && hbmRow mem v.row))).length

/-- R165: an engine has 512 entries for HBM row reads. In the model these reads are answered in the command that issues them; how
many of the rows started now waited for an entry, beside the rows that may still hold one, follows from latencies that the manual does
not give: a free value (log entry 84). -/
def hbmWaits (e : Nat) (mem : Mem) (before after : List GsRow) (m : Mach) : Mach :=
  let fresh := ((before.zip after).filter (fun p => p.1.st != 2 && hbmRow mem p.2)).length
  let total := hbmRows mem m e
  if total ≤ 512 || fresh == 0 then m
  else countN 0x6500 0x06 ((freshFree m).1 % (min fresh (total - 512) + 1)) (freshFree m).2

/-- Goes on with the rows of an operation that wait for an entry. -/
def advanceOp (e id : Nat) (m : Mach) : Mach :=
  match runningOp m e id with
  | none => m
  | some o =>
    let i := o.key / 65536
    match (do
      let (s, re) ← opSource m o
      startRows i e id s re 0 o.rows m) with
    | .ok (rows, m1) => hbmWaits e m.mem o.rows rows (putOp e { o with rows := rows } m1)
    | .error x => gsFault x i (dropOp e id m)

/-- Answers a remote gather (R137). -/
def answerGather (i e : Nat) (t : Txn) (row : GsRow) (m : Mach) : Mach :=
  sendFrom (unitXl e) { mkTxn m (ctxAt m i) 0x83 t.src 0 (.gatherRes (row.vals.getD []) row.ash row.version) with tag := t.tag } m

/-- The source that a remote gather names (R136). -/
def askedSource (t : Txn) : Option (GsSrc × Nat × Bool × Bool) :=
  match t.body with
  | .gather key obj kind width => some (⟨kind % 4, obj, width, tbit kind 2, false, 0, 0⟩, key, tbit kind 3, tbit kind 4)
  | _ => none

/-- Tries to start a served row that waits for an entry. -/
def advanceServed (v : Served) (m : Mach) : Mach :=
  match ctxOfTag m v.t.jobTag, askedSource v.t with
  | some i, some (s, _, re, _) =>
    if decide (2 ≤ v.row.st) then m
    else
      let rest := { m with served := m.served.filter (fun x => x.t != v.t) }
      match startRow i v.engine (.remote v.engine v.t) s re false v.row m with
      | .error x => gsFault x i rest
      | .ok none =>
        if v.row.st != 0 then m
        else count 0x6500 0x06 { m with served := m.served.map (fun x => if x.t == v.t then { x with row := { x.row with st := 1 } } else x) }
      | .ok (some (row, m1)) =>
        if row.vals.isSome then answerGather i v.engine v.t row { m1 with served := m1.served.filter (fun x => x.t != v.t) }
        else { m1 with served := m1.served.map (fun x => if x.t == v.t then { x with row := row } else x) }
  | _, _ => m

/-- Goes on with everything of an engine that waits for an entry (R165). -/
def advanceEngine (e : Nat) (m : Mach) : Mach :=
  let m1 := ((engAt m e).running.map GsOp.id).foldl (fun m id => advanceOp e id m) m
  (m1.served.filter (fun v => v.engine == e)).foldl (fun m v => advanceServed v m) m1

/-! ### Scatter targets (R155 to R161, R671) -/

/-- The target of a context, if its descriptor agrees with its complement. -/
def targetOf (m : Mach) (i tid : Nat) : Sr Target :=
  match m.targets.find (dkeyOf i tid) with
  | none => .error 0x050A
  | some t => if pairOk 512 t.desc.v t.desc.c then .ok t else .error 0x0501

def setTarget (i tid : Nat) (t : Target) (m : Mach) : Mach := { m with targets := m.targets.put (dkeyOf i tid) t }

/-- R160: a contribution to a ROWS target goes to the log's place in the object, in the order of arrival, as the sort key and the
row, little-endian: the form of an entry is the model's (log entry 60). -/
def writeLog (i tid n key : Nat) (t : Target) (row : List Nat) (m : Mach) : Mach :=
  if sgKind t.desc.v == 1 then m
  else match objById m.mem tid with
    | none => if objBad m.mem tid then memFault objCheck i m else m
    | some v =>
      let w := sgWidth t.desc.v
      ownPut i ((objSpan v).1 + t.bound * a64 (8 + 4 * w) + n * a64 (24 + 4 * w)) (leBytes 24 key ++ row.flatMap (leBytes 4)) m

/-- R156, R161, R671: appends a contribution to a target's log. The rest of a row that came in two parts follows its first part, which has
the same key: no two contributions have one (R156). -/
def appendRow (i tid key : Nat) (row : List Nat) (m : Mach) : Mach :=
  match targetOf m i tid with
  | .error e => gsFault e i m
  | .ok t =>
    if t.closed then gsFault 0x0508 i m
    else
      let r := row.map F32.canon
      match t.log.findIdx? (fun x => x.1 == key && decide (x.2.length < sgWidth t.desc.v)) with
      | some n =>
        let whole := (t.log.getD n (0, [])).2 ++ r
        writeLog i tid n key t whole (setTarget i tid { t with log := t.log.set n (key, whole) } m)
      | none =>
        count 0x6500 0x09 (writeLog i tid t.log.length key t r (setTarget i tid { t with log := t.log ++ [(key, r)] } m))

/-- R159: whether the target has every end marker. -/
def targetFull (m : Mach) (i : Nat) (t : Target) : Bool :=
  let c := ctxAt m i
  let want := sgPerMb t.desc.v * c.mb
  let origins := if sgKind t.desc.v == 1 then [graphRank m c] else List.range (graphSize m c)
  origins.all (fun o => decide (want ≤ t.ends.get o 0))

/-- R159, R161: an end marker from an origin. -/
def endMarker (i tid origin : Nat) (m : Mach) : Mach :=
  match targetOf m i tid with
  | .error e => gsFault e i m
  | .ok t =>
    if t.closed then gsFault 0x0508 i m
    else
      let t1 := { t with ends := t.ends.put origin (t.ends.get origin 0 + 1) }
      setTarget i tid { t1 with closed := targetFull m i t1 } m

/-- R156: the sort key. -/
def sortKey (dest seq origin edge idx issue : Nat) : Nat :=
  dest * 2 ^ 128 + seq * 2 ^ 112 + origin * 2 ^ 107 + edge % 2 ^ 60 * 2 ^ 47 + idx % 2 ^ 32 * 2 ^ 15 + issue * 2 ^ 7

/-- R158: the rank that owns a row of a source. -/
def rowOwner (m : Mach) (c : Ctx) (i : Nat) (s : GsSrc) (key : Nat) : Sr Nat := do
  let me := graphRank m c
  let p := keyPart s.edge key
  let byMap (graph : Nat) : Sr Nat := do
    match objBase m graph with
    | .error e => .error (if isDescCheck e then e else 0x0506)
    | .ok root => match ← partOwner m root p with
      | none => .error 0x0506
      | some o => if decide (graphSize m c ≤ o) then .error 0x0506 else return o
  if s.kind == 2 then return me
  else if s.kind == 0 then byMap s.graph
  else
    let d ← stepTable m i s.obj
    let (dir, _) ← partEntry m d p
    if dir != 0 then return me
    else if tdGraph d == 0 then .error 0x0506 else byMap (tdGraph d)

/-! ### The record that a SCATTER reads (R150, R153) -/

/-- Where the sections of a record lie: winners and permutation, zero where absent. -/
def recordOffsets (reduce sorted : Bool) (red rows segs width : Nat) : Nat × Nat :=
  let w := 128 + a64 (8 * rows)
  let hasW := reduce && (red == 2 || red == 3)
  let p := if hasW then w + a64 (2 * segs * width) else w
  (if hasW then w else 0, if sorted then p else 0)

/-- R153: checks a record and answers its GATHER's descriptor, its slice's plan and its header. A header that fails its complement
carries 0x10507, which `0x6500.0C` counts. -/
def checkRecord (m : Mach) (o : GsOp) (d : Nat) : Sr (Nat × SlicePlan × List Byte) := do
  let c := ctxAt m (o.key / 65536)
  let hd ← vread m o.path 128
  if cplBytes (hd.take 64) != hd.drop 64 then throw 0x10507
  let (g, sl, h) ← recordGather m o
  let flags := octs h 2 1
  if !tbit flags 4 || octs h 56 8 != c.step || octs h 32 8 != o.block ||
      gdOp g != 0 || gdSample g != gdSample d || gdHop g != gdHop d || octs h 20 2 != gdWidth d ||
      decide (sl ≥ gdSlices g) then .error 0x0507
  else
    let p ← slicePlan m c g sl o.block
    let offs := recordOffsets (tbit flags 0) (tbit flags 1) (fld (octs h 3 1) 4 2) (octs h 16 4) (octs h 12 4) (octs h 20 2)
    if octs h 8 4 != p.first || octs h 12 4 != p.count || octs h 16 4 != p.rows.length ||
        octs h 40 8 != offs.1 || octs h 48 8 != offs.2 then .error 0x0507
    else return (g, p, h)

/-- Item or segment of every row of a slice, with its position in the segment. -/
def rowSegs (p : SlicePlan) : List (Nat × Nat) :=
  (p.lens.zip (List.range p.lens.length)).flatMap (fun x => (List.range x.1).map (fun j => (x.2, j)))

/-- The gradient row of an item or segment, in binary32. -/
def gradRow (m : Mach) (o : GsOp) (d seg : Nat) : List Nat :=
  let bs := dataGet m o.core (o.data + seg * gdStride d) (dataRow d)
  if gdF32 d then (groupsOf (gdWidth d) 4 bs).map F32.canon else (groupsOf (gdWidth d) 2 bs).map (BF16.cvt F32 .rne false)

/-- Whether a SCATTER writes weight gradients for the record it reads (R152). -/
def writesGrads (d : Nat) (h : List Byte) : Bool :=
  gdWGrad d && tbit (octs h 2 1) 0 && fld (octs h 3 1) 4 2 == 4 && tbit (octs h 2 1) 5

/-- R150: the contribution of a recorded row. -/
def contribution (m : Mach) (o : GsOp) (d : Nat) (h : List Byte) (p : SlicePlan) (ws : List Nat) (j seg pos : Nat) : List Nat :=
  let g := gradRow m o d seg
  if !tbit (octs h 2 1) 0 then g
  else match fld (octs h 3 1) 4 2 with
    | 0 => g
    | 1 => g.map (fun x => F32.divC .rne x (i32ToF32 (p.lens.getD seg 0)))
    | 4 => g.map (fun x => F32.mulC .rne false x (ws.getD j 0))
    | _ =>
      let wins := groupsOf (gdWidth d) 2 (vget m.mem (o.path + octs h 40 8 + 2 * seg * gdWidth d) (2 * gdWidth d))
      (g.zip wins).map (fun x => if x.2 == pos then x.1 else 0)

/-- Recorded key and ash mark of row j. -/
def recordedRow (m : Mach) (o : GsOp) (j : Nat) : Nat × Bool :=
  let v := vnum m.mem (o.path + 128 + 8 * j) 8
  (v % 2 ^ 60, tbit v 63)

/-- The contributions of a SCATTER: owner's rank, sort key, row; how many rows were ash. -/
def contributions (m : Mach) (o : GsOp) (d g : Nat) (h : List Byte) (p : SlicePlan) : Sr (List (Nat × Nat × List Nat) × Nat) := do
  let i := o.key / 65536
  let c := ctxAt m i
  let t ← targetOf m i (gdTarget d)
  let local' := sgKind t.desc.v == 1
  let src := srcOf m i g
  let ws ← if tbit (octs h 2 1) 0 && fld (octs h 3 1) 4 2 == 4 then
      if tbit (octs h 2 1) 5 then listedWeights m o.core d o.data p.count p.rows.length
      else p.rows.mapM (fun r => graphWeight m c src.graph r.edge)
    else pure []
  let all := (p.rows.zip (rowSegs p)).zip (List.range p.rows.length)
  let out ← all.mapM (fun x => do
    let (key, ash) := recordedRow m o x.2
    if ash then return none
    else
      let dest := if local' then x.1.1.loc else key
      let owner ← if local' then pure (graphRank m c) else rowOwner m c i src key
      let k := sortKey dest (gdSeq d) (if local' then 0 else graphRank m c) x.1.1.edge x.1.1.idx o.ordinal
      return some (owner, k, contribution m o d h p ws x.2 x.1.2.1 x.1.2.2))
  let sent := out.filterMap id
  return (sent, out.length - sent.length)

/-- The parts in which a row travels as SCATTER: beside its key of 24 octets, 4,090 elements fill a Length (R420). -/
def scatterParts (row : List Nat) : List (List Nat) :=
  if row.length ≤ 4090 then [row] else [row.take 4090, row.drop 4090]

/-- An engine sends or appends a contribution (R158). -/
def deliverRow (e i tid owner key : Nat) (row : List Nat) (m : Mach) : Mach :=
  let c := ctxAt m i
  if owner == graphRank m c then appendRow i tid key row m
  else (scatterParts row).foldl (fun m r => sendFrom (unitXl e) (mkTxn m c 0x04 (cutPeer m c 3 owner) 0 (.scatter tid key r)) m) m

/-! ### Starting an operation -/

/-- R130: octets of a GATHER's span at its data address: its rows, and with them a weight list. With a list and no row in the slice
the span runs to the end of the last whole stride, where the list would begin: DESIGN CHOICE (log entry 84). -/
def gatherSpan (d : Nat) (p : SlicePlan) : Nat :=
  if p.count == 0 then 0 else if listWeights d then p.count * gdStride d + 2 * p.rows.length
  else (p.count - 1) * gdStride d + dataRow d

/-- R180, R672: a table whose key kind or row width is not the GATHER's. -/
def tableMatches (m : Mach) (i d : Nat) : Sr Unit :=
  if gdKind d != 1 then .ok ()
  else match stepTable m i (gdObj d) with
    | .error e => .error e
    | .ok t => if tdEdge t != (gdItems d == 3) then .error 0x0607 else if tdWidth t != gdWidth d then .error 0x0608 else .ok ()

/-- A GATHER's rows at its start (R130, R144, R167, R188). -/
def startGather (m : Mach) (o : GsOp) (d : Nat) : Sr (GsOp × Nat) := do
  let i := o.key / 65536
  let c := ctxAt m i
  let p ← slicePlan m c d o.slice o.block
  tableMatches m i d
  let f := dataCheck m i o.data (gatherSpan d p) true
  if f != 0 then .error f
  else if gdReduce d && (gdRed d == 2 || gdRed d == 3) && p.lens.any (fun x => decide (x > 65536)) then .error 0x0503
  else
    let ver ← if gdKind d == 1 then (do return tdVersion (← stepTable m i (gdObj d))) else pure 0
    let weigh := gdReduce d && gdRed d == 4 && !gdList d
    return ({ o with source := ver, rows := p.rows.map (fun r =>
      { key := r.key, loc := r.loc, aux := if weigh then weightSpans m c (srcOf m i d).graph r.edge else [] }) }, p.keys)

/-- R130: octets of a SCATTER's span at its data address. -/
def scatterSpan (d : Nat) (p : SlicePlan) (h : List Byte) : Nat :=
  if p.count == 0 then 0
  else if writesGrads d h then p.count * gdStride d + a64 (2 * p.rows.length) + 4 * p.rows.length
  else if tbit (octs h 2 1) 5 then p.count * gdStride d + 2 * p.rows.length
  else (p.count - 1) * gdStride d + dataRow d

/-- A SCATTER at its start: its checks, its ordinal, its contributions (R152, R153, R157). -/
def startScatter (e : Nat) (o : GsOp) (d : Nat) (m : Mach) : Sr (GsOp × Mach) := do
  let i := o.key / 65536
  let x := engAt m e
  let ok := o.key * 16 + o.slice
  let ord := x.ordinals.get ok 0
  let bad := match x.issuers.find o.key with | some k => k != o.core | none => false
  if decide (o.slice ≥ gdSlices d) || bad || decide (ord ≥ 255) then .error 0x0502
  else
    let o1 := { o with ordinal := ord }
    let (g, p, h) ← checkRecord m o1 d
    let grads := writesGrads d h
    let f := dataCheck m i o.data (scatterSpan d p h) grads
    if f != 0 then .error f
    else
      let _ ← dataRead m o.core o.data (p.count * gdStride d)
      let (cs, drops) ← contributions m o1 d g h p
      let m0 := accessAll (unitXl e) ((o.path, 128 + 8 * p.rows.length) :: blockSpans m o.block) (dataAccess e o.data (scatterSpan d p h) m)
      let m1 := setEng e { x with ordinals := x.ordinals.put ok (ord + 1), issuers := x.issuers.put o.key o.core } m0
      let m2 := cs.foldl (fun m c => deliverRow e i (gdTarget d) c.1 c.2.1 c.2.2 m) (countN 0x6500 0x04 drops m1)
      let rows := if grads then
          (p.rows.zip (List.range p.rows.length)).map (fun y =>
            let (key, ash) := recordedRow m o1 y.2
            ({ key := key, loc := y.1.loc, ash := ash, version := octs h 24 4 } : GsRow))
        else []
      return ({ o1 with source := octs h 24 4, rows := rows }, m2)

/-- The structures outside its record that a SCATTER's start reads: the weights of unlisted edges, and the map entries that name the owners
of its rows (R143, R158). -/
def scatterReads (m : Mach) (o : GsOp) (d : Nat) : List (Nat × Nat) :=
  match checkRecord m o d with
  | .error _ => []
  | .ok (g, p, h) =>
    let i := o.key / 65536
    let src := srcOf m i g
    (if tbit (octs h 2 1) 0 && fld (octs h 3 1) 4 2 == 4 && !tbit (octs h 2 1) 5 then
      p.rows.flatMap (fun r => weightSpans m (ctxAt m i) src.graph r.edge) else []) ++
    (if src.kind == 0 then (List.range p.rows.length).flatMap (fun j => ownerSpans m src.graph (keyPart src.edge (recordedRow m o j).1)) else [])

/-- The parts of them that lie in a lower tier and have not been read (R59). -/
def scatterLow (m : Mach) (o : GsOp) : List (Nat × Nat) :=
  match gsDesc m o.key with
  | .ok d => if gdOp d == 0 then [] else dedupKeep ((lowSpans m.mem (scatterReads m o d)).filter (fun p => !o.parts.contains p.1))
  | .error _ => []

/-- Reads of the present step for one waiter are outstanding. -/
def readsOut (m : Mach) (who : Waiter) : Bool := m.mem.reads.any (fun r => r.who == who && readTagged m r)

/-- A SCATTER at the head of the queue reads those parts as its engine has entries (R165). -/
def scatterFetch (e : Nat) (o : GsOp) (low : List (Nat × Nat)) (m : Mach) : Mach :=
  if readsOut m (.op e o.id) then m else readLow (o.key / 65536) (.op e o.id) (low.take (256 - tierEntries m e)) m

/-- R164: starts the oldest operation of an engine's queue. -/
def opStart (e : Nat) (m : Mach) : Mach :=
  let x := engAt m e
  match x.queue with
  | [] => m
  | o :: rest =>
    let i := o.key / 65536
    if decide (x.running.length ≥ 8) || !inPass (ctxAt m i) || posting m (.engine e) then m
    else if !stepPairOk (ctxAt m i) then stepFault i m
    else if !(scatterLow m o).isEmpty then scatterFetch e o (scatterLow m o) m
    else
      let m0 := setEng e { x with queue := rest } m
      match (do
        let d ← gsDesc m0 o.key
        if gdOp d == 0 then
          let (o1, keys) ← startGather m0 o d
          return (o1, accessAll (unitXl e) (blockSpans m0 o.block) (countN 0x6500 0x0A keys m0))
        else startScatter e o d m0) with
      | .error c => gsFault c i m0
      | .ok (o1, m1) => advanceOp e o.id (modEng e (fun y => { y with running := y.running ++ [o1] }) m1)

/-! ### Remote gathers -/

/-- The partition of a remote gather's key. -/
def askedPart (s : GsSrc) (key : Nat) : Nat := keyPart s.edge key

/-- The engine that serves a remote gather, or none (R136). -/
def servingEngine (m : Mach) (t : Txn) : Option Nat :=
  match ctxOfTag m t.jobTag, askedSource t with
  | some i, some (s, key, _, _) =>
    let es := (ctxAt m i).claims.engines
    if !sameTag (ctxAt m i) t || es.isEmpty then none else some (es.getD (askedPart s key % es.length) 0)
  | _, _ => none

/-- The engine of a remote gather has an incoming entry for it, or does not serve it (R136). -/
def gatherRoom (t : Txn) (m : Mach) : Bool :=
  match servingEngine m t with
  | some e => decide ((m.served.filter (fun v => v.engine == e)).length < 256)
  | none => true

/-- R136 to R138: a remote gather reaches the owner. One that reaches a table before the owner's own S waits for S, which fixes the version
that the step reads (R184). Beyond the 256 incoming entries of the engine link credits hold the sender. -/
def takeGather (t : Txn) (m : Mach) : Mach :=
  match ctxOfTag m t.jobTag, askedSource t with
  | some i, some (s, key, re, ash) =>
    let c := ctxAt m i
    if !sameTag c t then count 0x6500 0x0B m
    else
      let es := c.claims.engines
      if es.isEmpty then gsFault 0x0509 i m
      else
        let e := es.getD (askedPart s key % es.length) 0
        let row : GsRow := { key := key, loc := key, ash := ash }
        if !gatherRoom t m then holdTxn ⟨8, 0, 0, t⟩ m
        else if s.kind == 1 && !inPass c && (m.tabSnap.find (dkeyOf i s.obj)).isNone then
          { m with served := m.served ++ [⟨e, t, row⟩] }
        else match startRow i e (.remote e t) s re false row m with
        | .error x => gsFault x i m
        | .ok none => count 0x6500 0x06 { m with served := m.served ++ [⟨e, t, { row with st := 1 }⟩] }
        | .ok (some (r, m1)) =>
          if r.vals.isSome then answerGather i e t r m1 else { m1 with served := m1.served ++ [⟨e, t, r⟩] }
  | _, _ => m

/-- R137, R138, R154, R186: a remote row reaches the origin. -/
def takeGatherData (t : Txn) (m : Mach) : Mach :=
  match ctxOfTag m t.jobTag, t.body with
  | some i, .gatherRes vals ash ver =>
    if !sameTag (ctxAt m i) t then count 0x6500 0x0B m
    else
      let mine (r : GsRow) : Bool := r.remote && r.tag == t.tag && r.vals.isNone && r.st == 2
      let hit := m.engines.findSome? (fun p =>
        (p.2.running.find? (fun o => o.key / 65536 == i && o.rows.any mine)).map (fun o => (p.1, o)))
      match hit with
      | none => m
      | some (e, o) =>
        let scat := match gsDesc m o.key with | .ok d => gdOp d == 1 | .error _ => false
        if o.rows.any (fun r => mine r && r.version != ver) then gsFault (if scat then 0x0505 else 0x0603) i m
        else
          let m1 := putOp e { o with rows := o.rows.map (fun r =>
            if mine r then { r with vals := some (vals.map F32.canon), ash := ash } else r) } m
          if ash && !scat then modPass i (fun p => { p with nonStrict := true }) m1 else m1
  | _, _ => m

/-- R138: a remote gather unanswered within RemoteTimeout. -/
def remoteLate (e tag : Nat) (m : Mach) : Mach :=
  let mine (r : GsRow) : Bool := r.remote && r.tag == tag && r.vals.isNone && r.st == 2
  match (engAt m e).running.find? (fun o => o.rows.any mine) with
  | none => m
  | some o =>
    let i := o.key / 65536
    let c := ctxAt m i
    if !inPass c then m
    else
      let at10 := ((o.rows.find? mine).map GsRow.at10).getD 0
      ctxError 0x0504 i (timeTo (at10 + dlat m c 0x4300 0x05 * 10000) m)

/-! ### Completing a GATHER -/

/-- Every row of an operation has its values. -/
def rowsReady (o : GsOp) : Bool := o.rows.all (fun r => r.vals.isSome)

/-- The octets of a delivered row. -/
def deliverBytes (f32 : Bool) (row : List Nat) : List Byte :=
  if f32 then row.flatMap (leBytes 4) else row.flatMap (fun x => leBytes 2 (F32.cvt BF16 .rne false x))

/-- R143: the segments' outputs and winners. -/
def reduceSegs (d : Nat) (p : SlicePlan) (rows : List (List Nat)) (ws : List Nat) : List (List (Nat × Nat)) :=
  let vs := splitLens p.lens rows
  let wss := splitLens p.lens ws
  (vs.zip (wss ++ List.replicate (vs.length - wss.length) [])).map (fun x =>
    (List.range (gdWidth d)).map (fun e => reduceElem (gdRed d) (x.1.map (fun r => r.getD e 0)) x.2))

/-- R146, R147: the sections of a path record behind its header. -/
def recordParts (d : Nat) (o : GsOp) (p : SlicePlan) (wins : List (List Nat)) : List (Nat × List Byte) :=
  let rows := o.rows.flatMap (fun r => leBytes 8 ((if r.ash then 2 ^ 63 else 0) + (if r.remote then 2 ^ 62 else 0) + r.key % 2 ^ 60))
  let offs := recordOffsets (gdReduce d) p.sorted (gdRed d) p.rows.length p.count (gdWidth d)
  [(128, rows)] ++ (if offs.1 != 0 then [(offs.1, wins.flatten.flatMap (leBytes 2))] else []) ++
    (if p.sorted then
      [(offs.2, p.rows.flatMap (fun r => leBytes 4 r.idx)),
       (offs.2 + a64 (4 * p.rows.length), (startsOf p.lens ++ [p.rows.length]).flatMap (leBytes 4))]
    else [])

/-- R146: a path record's header with its complement. -/
def recordHeader (c : Ctx) (d : Nat) (o : GsOp) (p : SlicePlan) : List Byte :=
  let offs := recordOffsets (gdReduce d) p.sorted (gdRed d) p.rows.length p.count (gdWidth d)
  let flags := (if gdReduce d then 1 else 0) + (if p.sorted then 2 else 0) + (if o.rows.any GsRow.ash then 4 else 0) +
    (if o.rows.any GsRow.remote then 8 else 0) + 16 + (if listWeights d then 32 else 0)
  withCpl (leBytes 2 1 ++ leBytes 1 flags ++ leBytes 1 (gdItems d + gdRed d * 4 + gdKind d * 32) ++
    leBytes 2 (o.key % 65536) ++ leBytes 1 (o.slice + gdHop d * 16) ++ leBytes 1 0 ++ leBytes 4 p.first ++
    leBytes 4 p.count ++ leBytes 4 p.rows.length ++ leBytes 2 (gdWidth d) ++ leBytes 2 (gdObj d) ++ leBytes 4 o.source ++
    leBytes 4 0 ++ leBytes 8 o.block ++ leBytes 8 offs.1 ++ leBytes 8 offs.2 ++ leBytes 8 c.step)

/-- What a GATHER writes: the delivered rows at the data address and the record's parts. -/
def gatherOutput (m : Mach) (o : GsOp) (d : Nat) : Sr (SlicePlan × List (List Byte) × List (Nat × List Byte)) := do
  let i := o.key / 65536
  let c := ctxAt m i
  let p ← slicePlan m c d o.slice o.block
  let ws ← sliceWeights m i o.core d o.data p
  let rows := o.rows.map (fun r => r.vals.getD [])
  if gdReduce d then
    let segs := reduceSegs d p rows ws
    return (p, segs.map (fun s => deliverBytes (gdF32 d) (s.map Prod.fst)),
      recordParts d o p (segs.map (fun s => s.map Prod.snd)) ++ [(0, recordHeader c d o p)])
  else return (p, rows.map (deliverBytes (gdF32 d)), recordParts d o p [] ++ [(0, recordHeader c d o p)])

/-- The entry of an engine is in its ring: the operation is over and the engine goes on (R163, R387). -/
def enginePosted (e : Nat) (m : Mach) : Mach :=
  advanceEngine e (modEng e (fun x => { x with running := x.running.filter (fun o => !o.posting) }) m)

/-- R141, R143, R148: delivers a GATHER's rows, writes its record and posts its completion entry. -/
def gatherDone (e id : Nat) (m : Mach) : Mach :=
  match runningOp m e id with
  | none => m
  | some o =>
    let i := o.key / 65536
    if !rowsReady o || !inPass (ctxAt m i) || posting m (.engine e) then m
    else match gsDesc m o.key with
      | .error x => gsFault x i (dropOp e id m)
      | .ok d =>
        if gdOp d != 0 then m
        else match gatherOutput m o d with
          | .error x => gsFault x i (dropOp e id m)
          | .ok (p, outs, parts) =>
            let last := parts.foldl (fun a x => max a (x.1 + x.2.length)) 0
            let f := writeCheck m.mem i o.path last
            if f != 0 then memFault f i (dropOp e id m)
            else
              let m0 := access (unitXl e) o.path last (dataAccess e o.data (gatherSpan d p) m)
              let m1 := (outs.zip (List.range outs.length)).foldl (fun m x => dataPut o.core (o.data + x.2 * gdStride d) x.1 m) m0
              let m2 := parts.foldl (fun m x => onMem (vput (o.path + x.1) x.2) m) m1
              let m3 := if gdReduce d then countN 0x6500 0x07 p.count (countN 0x6500 0x08 (p.lens.filter (· == 0)).length m2) else m2
              let m4 := postEntry (.engine e) o.pc (gdCore d) (gdRing d) (2 ^ 60 + o.path % 2 ^ 56) (putOp e { o with posting := true } m3)
              if posting m4 (.engine e) then m4 else enginePosted e m4

/-! ### Completing a SCATTER -/

/-- R152: the weight gradients of a record's rows. -/
def weightGrads (m : Mach) (o : GsOp) (d : Nat) (p : SlicePlan) : List Nat :=
  ((rowSegs p).zip o.rows).map (fun x =>
    let g := gradRow m o d x.1.1
    match (g.zip (x.2.vals.getD [])).map (fun y => F32.mulC .rne false y.1 y.2) with
    | [] => 0
    | a :: r => r.foldl (F32.addC .rne false) a)

/-- R159: end markers of an engine's operation. -/
def sendEnds (e i tid : Nat) (o : GsOp) (m : Mach) : Mach :=
  let c := ctxAt m i
  let me := graphRank m c
  match targetOf m i tid with
  | .error x => gsFault x i m
  | .ok t =>
    let ranks := if sgKind t.desc.v == 1 then [me] else List.range (graphSize m c)
    ranks.foldl (fun m r =>
      if r == me then endMarker i tid me m
      else sendFrom (unitXl e) (mkTxn m c 0x05 (cutPeer m c 3 r) 0 (.scatterEnd tid (o.key % 65536) o.slice o.ordinal)) m) m

/-- R152, R159, R163: a SCATTER's last contribution is sent. -/
def scatterDone (e id : Nat) (m : Mach) : Mach :=
  match runningOp m e id with
  | none => m
  | some o =>
    let i := o.key / 65536
    if !rowsReady o || !inPass (ctxAt m i) || posting m (.engine e) then m
    else match gsDesc m o.key with
      | .error x => gsFault x i (dropOp e id m)
      | .ok d =>
        if gdOp d != 1 then m
        else match (do
            let r ← checkRecord m o d
            if writesGrads d r.2.2 then let _ ← dataRead m o.core o.data (r.2.1.count * gdStride d)
            return r) with
          | .error x => gsFault x i (dropOp e id m)
          | .ok (_, p, h) =>
            let m1 := if writesGrads d h then
                dataPut o.core (o.data + p.count * gdStride d + a64 (2 * p.rows.length)) ((weightGrads m o d p).flatMap (leBytes 4)) m
              else m
            advanceEngine e (sendEnds e i (gdTarget d) o (dropOp e id m1))

/-- R138, R158: a contribution from another device. -/
def takeScatter (t : Txn) (m : Mach) : Mach :=
  match ctxOfTag m t.jobTag, t.body with
  | some i, .scatter tid key row => if !sameTag (ctxAt m i) t then count 0x6500 0x0B m else appendRow i tid key row m
  | _, _ => m

/-- R138, R159: an end marker from another device. -/
def takeScatterEnd (t : Txn) (m : Mach) : Mach :=
  match ctxOfTag m t.jobTag, t.body with
  | some i, .scatterEnd tid _ _ _ =>
    let c := ctxAt m i
    if !sameTag c t then count 0x6500 0x0B m
    else endMarker i tid (match cutAxis c 3 with | some a => axisOf t.src a | none => 0) m
  | _, _ => m

/-- Sums of a sorted log: one (Dest, row) per distinct Dest, in order (R160). -/
def segmentAdd (log : List (Nat × List Nat)) : List (Nat × List Nat) :=
  (log.foldl (fun (acc : List (Nat × List Nat)) x =>
    let dest := x.1 / 2 ^ 128
    match acc with
    | (d, r) :: rest => if d == dest then (d, (r.zip x.2).map (fun y => F32.addC .rne false y.1 y.2)) :: rest
      else (dest, x.2) :: acc
    | [] => [(dest, x.2)]) []).reverse

/-- R160: the octets of a closed ROWS target's result, from the object's base. -/
def rowsResult (w : Nat) (sums : List (Nat × List Nat)) : List Byte :=
  let st := a64 (8 + 4 * w)
  let ents := sums.map (fun x => leBytes 8 x.1 ++ x.2.flatMap (leBytes 4)) ++ [List.replicate 8 0xFF#8 ++ List.replicate (4 * w) 0]
  ents.flatMap (fun e => e ++ List.replicate (st - e.length) 0)

/-- R160: a LOCAL target's rows, `n` of them from a base: a row without contribution is +0. -/
def putRows (i base w n : Nat) (sums : List (Nat × List Nat)) (m : Mach) : Mach :=
  (List.range n).foldl (fun m k =>
    ownPut i (base + k * a64 (4 * w)) (((SMap.find sums k).getD (List.replicate w 0)).flatMap (leBytes 4)) m) m

/-- R160: the result of a closed target is written and its close entry posted. -/
def targetResult (i tid : Nat) (m : Mach) : Mach :=
  match targetOf m i tid with
  | .error x => gsFault x i m
  | .ok t =>
    if !t.closed || t.written || !inPass (ctxAt m i) then m
    else match objById m.mem tid with
      | none => memFault (if objBad m.mem tid then objCheck else 0x0702) i m
      | some v =>
        let w := sgWidth t.desc.v
        let base := (objSpan v).1
        let sums := segmentAdd (sortBy (fun a b => decide (a.1 ≤ b.1)) t.log)
        let m1 := countN 0x6500 0x0A t.log.length (setTarget i tid { t with written := true } m)
        let done := postEntry .target 0 (sgCore t.desc.v) (sgRing t.desc.v) (2 * 2 ^ 60 + base % 2 ^ 56)
        if sgKind t.desc.v == 0 then done (ownPut i base (rowsResult w sums) m1)
        else
          let n := ((objSpan v).2 - base) / a64 (4 * w)
          if sums.any (fun x => decide (x.1 ≥ n)) then gsFault 0x0506 i m else done (putRows i base w n sums m1)

/-! ### Answers and deadlines of lower-tier reads -/

/-- Octets arrive for a row. -/
def rowGot (va : Nat) (bs : List Byte) (r : GsRow) : GsRow := { r with got := r.got ++ [(va, bs)], need := r.need - 1 }

/-- Octets of a transfer's source arrive (R59): the oldest transfer that waits for them. -/
def xferGot (va : Nat) (bs : List Byte) : List TCmd → List TCmd
  | [] => []
  | .xfer dir len addr off ring pc waits got :: r =>
    if waits > 0 && decide (addr ≤ va) && decide (va < addr + len) && !got.any (fun g => g.1 == va) then
      .xfer dir len addr off ring pc (waits - 1) (got ++ [(va, bs)]) :: r
    else .xfer dir len addr off ring pc waits got :: xferGot va bs r
  | x :: r => x :: xferGot va bs r

/-- A row whose structures have all been read is started again. -/
def rowFound (r : GsRow) : GsRow := if r.st == 3 && r.need == 0 then { r with st := 0, found := true, got := [] } else r

/-- The HOT copy of a slot, not yet complete, has its row. -/
def hotFetched (slot : Nat) (t : Table) : Table :=
  { t with plan := t.plan.map (fun pl => { pl with entries := pl.entries.map (fun e =>
      if e.action == 1 && e.slot == slot && !e.copied then { e with fetched := true } else e) }) }

/-- Gives an accepted answer to whoever waits for it. -/
def readArrived (r : TierRead) (bs : List Byte) (m : Mach) : Mach :=
  match r.who with
  | .none | .recopy _ | .digest _ => m
  | .op e op => modEng e (fun x => { x with queue := x.queue.map (fun o => if o.id == op then { o with parts := o.parts ++ [r.va] } else o) }) m
  | .hot id slot => if readsOut m r.who then m else modTab id (hotFetched slot) m
  | .scan id => if readsOut m r.who then m else modTab id (fun t => { t with scanRead := true }) m
  | .xfer k => modCore k (fun c => { c with queue := xferGot r.va bs c.queue }) m
  | .mig v => copyRead v m
  | .item e op n =>
    match runningOp m e op with
    | none => m
    | some o =>
      match opSource m o, o.rows[n]? with
      | .ok (s, _), some row =>
        let (row1, m1) := finishRow r.ctx s (rowFound (rowGot r.va bs row)) m
        advanceEngine e (putOp e { o with rows := o.rows.set n row1 } m1)
      | _, _ => m
  | .remote e t =>
    match m.served.find? (fun v => v.t == t), askedSource t with
    | some v, some (s, _, _, _) =>
      let (row1, m1) := finishRow r.ctx s (rowFound (rowGot r.va bs v.row)) m
      let m2 := if row1.vals.isSome then answerGather r.ctx e t row1 { m1 with served := m1.served.filter (fun x => x.t != t) }
        else { m1 with served := m1.served.map (fun x => if x.t == t then { x with row := row1 } else x) }
      advanceEngine e m2
    | _, _ => m

/-- A response that is not used frees its entry: rows that wait for one may start (R165). -/
def entryFreed (r : TierRead) (m : Mach) : Mach :=
  match r.who with
  | .item e _ _ => advanceEngine e m
  | .remote e _ => advanceEngine e m
  | .op e _ => advanceEngine e m
  | _ => m

/-- The table descriptor of the row that a read serves, its key, and the table's ash policy. -/
def readTable (m : Mach) (r : TierRead) : Option (Nat × Nat) :=
  let look (s : GsSrc) (key : Nat) : Option (Nat × Nat) :=
    if s.kind == 1 then match stepTable m r.ctx s.obj with
      | .ok d => some (d, key)
      | .error _ => none
    else none
  match r.who with
  | .item e op n => match runningOp m e op with
    | some o => match opSource m o, o.rows[n]? with
      | .ok (s, _), some row => look s row.key
      | _, _ => none
    | none => none
  | .remote _ t => match askedSource t with
    | some (s, key, _, _) => look s key
    | none => none
  | _ => none

/-- Marks every other read of the same row. -/
def modRowReads (who : Waiter) (f : TierRead → TierRead) (m : Mach) : Mach :=
  onMem (fun x => { x with reads := x.reads.map (fun r => if r.who == who then f r else r) }) m

/-- R61, R62: an ash row takes the place of a row. -/
def substitute (r : TierRead) (row : List Nat) (m : Mach) : Mach :=
  let m1 := count 0x6500 0x01 <| count 0x6500 0x03 (modRowReads r.who (fun x => { x with substituted := true }) m)
  let m2 := modPass r.ctx (fun p => { p with nonStrict := true, ashSubs := p.ashSubs + 1 }) m1
  let put (x : GsRow) : GsRow := { x with vals := some row, ash := true, need := 0, got := [], offer := false }
  match r.who with
  | .item e op n => match runningOp m2 e op with
    | some o => match o.rows[n]? with
      | some x => putOp e { o with rows := o.rows.set n (put x) } m2
      | none => m2
    | none => m2
  | .remote e t => match m2.served.find? (fun v => v.t == t) with
    | some v => answerGather r.ctx e t (put v.row) { m2 with served := m2.served.filter (fun x => x.t != t) }
    | none => m2
  | _ => m2

/-- The row no longer counts as returned by its deadline (R199). -/
def noOffer (r : TierRead) (m : Mach) : Mach :=
  match r.who with
  | .item e op n => match runningOp m e op with
    | some o => putOp e { o with rows := o.rows.modify n (fun x => { x with offer := false }) } m
    | none => m
  | .remote _ t => { m with served := m.served.map (fun v => if v.t == t then { v with row := { v.row with offer := false } } else v) }
  | _ => m

/-- The translation cache of the engine that a read serves. -/
def waiterXl : Waiter → Nat
  | .item e _ _ => unitXl e
  | .remote e _ => unitXl e
  | .xfer k => coreXl k
  | _ => 16

/-- R61: a read reaches its deadline; each read of a row counts its own miss, and R61 acts once on the row (R667). -/
def deadlineMiss (id : Nat) (m : Mach) : Mach :=
  match readById m id with
  | none => m
  | some r =>
    let c := ctxAt m r.ctx
    match r.deadline with
    | none => m
    | some dl =>
    if r.missed || !readCurrent m r || !inPass c then m
    else
      let m1 := count 0x6700 (if r.tier == 1 then 0x01 else 0x02)
        (noOffer r (modRead id (fun x => { x with missed := true }) (timeTo dl m)))
      let stall (sub : Nat) : Mach :=
        if r.stalled then m1 else count 0x6700 sub (modRowReads r.who (fun x => { x with stalled := true }) m1)
      if r.substituted then m1
      else if c.pass.strict then stall 0x03
      else match readTable m r with
        | some (d, key) => if tdAsh d == 0 then stall 0x04
            else substitute r (ashRow m d key) (accessAll (waiterXl r.who) (ashSpans m d key) m1)
        | none => stall 0x04

/-! ### Meanings -/

/-- GS_OPERATION_START (R164). -/
def execGsOperationStart (engine : Nat) (s : State) : Host.Outcome State Fault Refusal := .next (onM (opStart engine) s)

/-- READ_DEADLINE_MISS (R61). -/
def execReadDeadlineMiss (id : Nat) (s : State) : Host.Outcome State Fault Refusal := .next (onM (deadlineMiss id) s)

/-- GATHER_DATA (R137). -/
def execGatherData (t : Txn) (s : State) : Host.Outcome State Fault Refusal := .next (onM (tagged t (takeGatherData t)) s)

/-- REMOTE_TIMEOUT (R138). -/
def execRemoteTimeout (engine tag : Nat) (s : State) : Host.Outcome State Fault Refusal := .next (onM (remoteLate engine tag) s)

/-- GATHER_COMPLETE (R148). -/
def execGatherComplete (engine op : Nat) (s : State) : Host.Outcome State Fault Refusal := .next (onM (gatherDone engine op) s)

/-- SCATTER (R158, R161). -/
def execScatter (t : Txn) (s : State) : Host.Outcome State Fault Refusal := .next (onM (tagged t (takeScatter t)) s)

/-- SCATTER_END (R159, R161). -/
def execScatterEnd (t : Txn) (s : State) : Host.Outcome State Fault Refusal := .next (onM (tagged t (takeScatterEnd t)) s)

/-- SCATTER_TARGET_RESULT (R160). -/
def execScatterTargetResult (ctx target : Nat) (s : State) : Host.Outcome State Fault Refusal :=
  .next (onM (targetResult ctx target) s)

/-- SCATTER_COMPLETE (R159, R163). -/
def execScatterComplete (engine op : Nat) (s : State) : Host.Outcome State Fault Refusal := .next (onM (scatterDone engine op) s)

end Sys2Proof.Machine
end

