-- ==== Sys2Proof/Machine/Geyser.lean ====
section
/-!
DEFINITION. The geyser engines (13): delivery of drained tiles (R452 to R455), contributions and results (R464 to
R468), maxima, the exponent tables (R458 to R463), norms and batch steering (R471 to R474), and X (R469).
-/

namespace Sys2Proof.Machine

def bdId (v : Nat) : Nat := fld v 255 232
def bdEngine (v : Nat) : Nat := fld v 227 227
def bdF32 (v : Nat) : Bool := fld v 226 225 == 1
def bdMean (v : Nat) : Bool := tbit v 224
def bdNorm (v : Nat) : Bool := tbit v 223
def bdElems (v : Nat) : Nat := fld v 222 198
def bdBlocks (v : Nat) : Nat := bdElems v / 64
def bdResult (v : Nat) : Nat := fld v 197 142
def bdRecv (v : Nat) : Nat := fld v 141 86
def bdScale (v : Nat) : Nat := fld v 85 30

/-- Octets of the collective-schedule header (R448). -/
def chOct (g : Geyser) (off n : Nat) : Nat := (g.header.v >>> (8 * off)) % 2 ^ (8 * n)
def chScopeAll (g : Geyser) : Bool := chOct g 2 1 == 1
def chMaxMb (g : Geyser) : Nat := chOct g 3 1
def chSamples (g : Geyser) : Nat := chOct g 4 4
def chNormVa (g : Geyser) : Nat := chOct g 8 8

/-- Size and rank of the data-parallel ring of a context (R450, R487). -/
def dpSize (m : Mach) (i : Nat) : Nat := cutSize m (ctxAt m i) 0
def dpRank (m : Mach) (i : Nat) : Nat := cutRank m (ctxAt m i) 0

/-- R450: first block and one past the last block of slice r. -/
def sliceOf (n blocks r : Nat) : Nat × Nat := (r * blocks / n, (r + 1) * blocks / n)

/-- The rank that owns a block. -/
def blockOwner (n blocks blk : Nat) : Nat :=
  ((List.range n).find? (fun r => decide ((sliceOf n blocks r).1 ≤ blk) && decide (blk < (sliceOf n blocks r).2))).getD 0

/-- A context's bucket by its number, as an index. -/
def bucketIx (m : Mach) (i id : Nat) : Option Nat :=
  let bs := (ctxAt m i).gey.buckets
  (List.range bs.length).find? (fun k => match bs[k]? with | some b => bdId b.desc.v == id | none => false)

def bucketAt (m : Mach) (i k : Nat) : Bucket := (ctxAt m i).gey.buckets.getD k {}
def modBucket (i k : Nat) (f : Bucket → Bucket) (m : Mach) : Mach :=
  modGey i (fun g => { g with buckets := g.buckets.modify k f }) m

/-- A complement mismatch in a geyser structure (R449, R477). -/
def scaleCheck (i : Nat) (m : Mach) : Mach := ctxError 0x0A01 i (count 0x6A00 0x09 m)

/-! ### Exponent tables (R458 to R461) -/

/-- The VA of entry blk of a table: 0 agreed, 1 its complement, 2 working, 3 its complement. -/
def expVa (v table blk : Nat) : Nat := bdScale v + table * bdBlocks v + blk

/-- Reads an exponent against its complement: the value, or the fault code of a page that cannot be read (R53) or of the mismatch. -/
def expGet (m : Mach) (v table blk : Nat) : Except Nat Int :=
  let f := readCheck m.mem (expVa v table blk) 1 ||| readCheck m.mem (expVa v (table + 1) blk) 1
  if f != 0 then .error (if readCheck m.mem (expVa v table blk) 1 != 0 then readCheck m.mem (expVa v table blk) 1 else f)
  else
    let x := vnum m.mem (expVa v table blk) 1
    if vnum m.mem (expVa v (table + 1) blk) 1 == cpl 8 x then .ok (sxt 8 x) else .error 0x0A01

/-- Writes an exponent and its complement. -/
def expPut (i v table blk : Nat) (e : Int) (m : Mach) : Mach :=
  ownPut i (expVa v (table + 1) blk) (leBytes 1 (cpl 8 (toU 8 e))) (ownPut i (expVa v table blk) (leBytes 1 (toU 8 e)) m)

/-- clamp(M − 6 + H, −126, 120). -/
def agreedOf (mx : Int) (h : Nat) : Int :=
  let e := mx - 6 + h
  if e < -126 then -126 else if e > 120 then 120 else e

/-- A fault met in a geyser structure: a complement mismatch, or a page that cannot be read. -/
def geyFault (code i : Nat) (m : Mach) : Mach := if code == 0x0A01 then scaleCheck i m else memFault code i m

/-- A bucket's descriptor agrees with its complement (R449: checked at every use). -/
def bucketOk (b : Bucket) : Bool := pairOk 256 b.desc.v b.desc.c

/-- Every bucket descriptor of a context agrees with its complement: looking for a bucket, the order of an engine's sequence and X use
each (R449). -/
def bucketsOk (m : Mach) (i : Nat) : Bool := (ctxAt m i).gey.buckets.all bucketOk

/-- R459: the agreed table becomes the working table. -/
def copyWorking (i : Nat) (m : Mach) : Mach :=
  (ctxAt m i).gey.buckets.foldl (fun m b =>
    if !bucketOk b then scaleCheck i m
    else (List.range (bdBlocks b.desc.v)).foldl (fun m blk =>
      match expGet m b.desc.v 0 blk with
      | .ok e => expPut i b.desc.v 2 blk e m
      | .error x => geyFault x i m) m) m

/-- R461: whether a working entry of the context is −128, or the fault of a descriptor or entry that cannot be used. -/
def needsCalibration (m : Mach) (i : Nat) : Except Nat Bool := do
  let es ← (ctxAt m i).gey.buckets.mapM (fun b =>
    if bucketOk b then (List.range (bdBlocks b.desc.v)).mapM (expGet m b.desc.v 2) else .error 0x0A01)
  return es.any (fun l => l.contains (-128))

/-! ### The order of buckets, the window and completion -/

/-- A bucket has its full result on the device: the global MaxExp and Flags of every block (R455, R469). -/
def bucketDone (b : Bucket) : Bool := b.glob.length == bdBlocks b.desc.v

/-- R455: whether a bucket lies in its engine's window. -/
def inWindow (m : Mach) (i k : Nat) : Bool :=
  let bs := (ctxAt m i).gey.buckets
  let e := bdEngine (bucketAt m i k).desc.v
  ((bs.take k).filter (fun b => bdEngine b.desc.v == e && !bucketDone b)).length < 64

/-- COLLECTIVE (R456): kind, bucket, first block, count. -/
def collDetail (kind id first n : Nat) : Nat := kind * 2 ^ 60 + id % 2 ^ 24 * 2 ^ 36 + first % 2 ^ 24 * 2 ^ 12 + n % 2 ^ 12

/-- Blocks of which a RESULT without values or a MAXIMA tells at most. R456 allows 8,184 and gives the count 12 bits: DESIGN CHOICE, what the
field holds (log entry 98). -/
def pairBlocks : Nat := 4095

/-- Cuts a run of blocks into chunks: (first, count). -/
def blockChunks : Nat → Nat → Nat → Nat → List (Nat × Nat)
  | 0, _, _, _ => []
  | fuel + 1, per, a, n => if n == 0 then [] else (a, min per n) :: blockChunks fuel per (a + min per n) (n - min per n)

/-- The link die of a bucket's engine: LD(2a) or LD(2a + 1) of the data-parallel axis a, LD0 or LD1 with no data cut (R449, R487). -/
def bucketDie (m : Mach) (i v : Nat) : Nat := 24 + 2 * (cutAxis (ctxAt m i) 0).getD 0 + bdEngine v

/-- A bucket's engine sends a COLLECTIVE transaction to a rank of the data-parallel ring; `v` is the bucket's descriptor. -/
def sendColl (i r kind v first n : Nat) (data : List Byte) (m : Mach) : Mach :=
  let c := ctxAt m i
  let id := bdId v
  sendFrom (bucketDie m i v) (mkTxn m c 0x08 (cutPeer m c 0 r) (collDetail kind id first n) (.raw data)) m

/-- R454: a contribution record. -/
def recordOf (b : GBlk) : List Byte :=
  (b.codes.map (fun c => BitVec.ofNat 8 (toU 8 c))) ++ leBytes 1 (toU 8 b.maxExp) ++ leBytes 1 b.flags ++ List.replicate 6 0

/-- The pair of octets of a block's MaxExp and Flags. -/
def pairOf (mx : Int) (fl : Nat) : List Byte := leBytes 1 (toU 8 mx) ++ leBytes 1 fl

/-- The VA of a record in the receive area: R464's recv[r][blk]. -/
def recvVa (m : Mach) (i : Nat) (v r blk : Nat) : Nat :=
  let n := dpSize m i
  bdRecv v + (r * ceilDiv (bdBlocks v) n + (blk - (sliceOf n (bdBlocks v) (dpRank m i)).1)) * 72

/-- A contribution record arrives for a block of the own slice. -/
def recordArrives (i k r blk : Nat) (bytes : List Byte) (m : Mach) : Mach :=
  let v := (bucketAt m i k).desc.v
  modBucket i k (fun b => { b with arrived := if b.arrived.contains (r, blk) then b.arrived else b.arrived ++ [(r, blk)] })
    (ownPut i (recvVa m i v r blk) bytes m)

/-- A block's global MaxExp and Flags become known. -/
def globArrives (i k blk : Nat) (mx : Int) (fl : Nat) (m : Mach) : Mach :=
  modBucket i k (fun b => { b with glob := b.glob.put blk (mx, fl) }) m

/-! ### The sum at the owner (R464 to R466, R468) -/

/-- What the sum of a block gives: sums, MaxExp, Flags, q1, q2. -/
structure BlkSum where
  blk : Nat
  e : Int
  s : List Int
  mx : Int
  fl : Nat
  q1 : Int
  q2 : Int
deriving DecidableEq, Repr

/-- Sums one block, or answers the fault of its working exponent or of a record that cannot be read. -/
def sumBlock (m : Mach) (i : Nat) (v blk : Nat) : Except Nat BlkSum := do
    let e ← expGet m v 2 blk
    let faults := ((List.range (dpSize m i)).map (fun r => readCheck m.mem (recvVa m i v r blk) 72)).filter (· != 0)
    if !faults.isEmpty then .error (faults.getD 0 0) else
    let recs := (List.range (dpSize m i)).map (fun r => vget m.mem (recvVa m i v r blk) 72)
    let codes (b : List Byte) : List Int := (List.range 64).map (fun j => sxt 8 (octs b j 1))
    let acc := recs.foldl (fun (a : List Int × Int × Int × Nat) b =>
      let c := codes b
      let mx := sxt 8 (octs b 64 1)
      ((a.1.zip c).map (fun p => p.1 + p.2), a.2.1 + (c.map (fun x => x * x)).foldl (· + ·) 0,
        if a.2.2.1 < mx then mx else a.2.2.1, a.2.2.2 ||| octs b 65 1)) (List.replicate 64 0, 0, -128, 0)
    return ⟨blk, e, acc.1, acc.2.2.1, acc.2.2.2, acc.2.1, (acc.1.map (fun x => x * x)).foldl (· + ·) 0⟩

/-- The exact value of s × 2^E. -/
def scaledInt (s e : Int) : FVal := scaleV (ofInt s) e

/-- R465: an element of the result in a format. -/
def resultCode (f : FFmt) (mean : Bool) (n : Nat) (s e : Int) : Nat :=
  if mean then f.divV .rne (scaledInt s e) (ofInt n) else f.narrow .rne false (scaledInt s e)

/-- Writes a block's result on this device as owner, or its bfloat16 values as any rank. -/
def writeF32 (m : Mach) (i v : Nat) (x : BlkSum) : Mach :=
  let k := x.blk - (sliceOf (dpSize m i) (bdBlocks v) (dpRank m i)).1
  ownPut i (bdResult v + 256 * k) (x.s.flatMap (fun s => leBytes 4 (resultCode F32 (bdMean v) (dpSize m i) s x.e))) m

def bf16Values (m : Mach) (i v : Nat) (x : BlkSum) : List Byte :=
  x.s.flatMap (fun s => leBytes 2 (resultCode BF16 (bdMean v) (dpSize m i) s x.e))

/-- The next bucket of an engine whose slice is not yet emitted, if every contribution to it has arrived. -/
def sumNext (m : Mach) (i e : Nat) : Option Nat :=
  let bs := (ctxAt m i).gey.buckets
  match (List.range bs.length).find? (fun k => match bs[k]? with | some b => bdEngine b.desc.v == e && !b.summed | none => false) with
  | none => none
  | some k =>
    let b := bs.getD k {}
    let n := dpSize m i
    let (a, z) := sliceOf n (bdBlocks b.desc.v) (dpRank m i)
    if b.sent && (rangeFrom a (z - a)).all (fun blk => (List.range n).all (fun r => b.arrived.contains (r, blk))) then some k else none

/-- Emits a bucket's slice: results to every rank, the own included; squares of a counted bucket (R465, R466, R468). -/
def emitSlice (i k : Nat) (m : Mach) : Mach :=
  let b := bucketAt m i k
  let v := b.desc.v
  let n := dpSize m i
  let me := dpRank m i
  let (a, z) := sliceOf n (bdBlocks v) me
  match (rangeFrom a (z - a)).mapM (sumBlock m i v) with
  | .error x => geyFault x i m
  | .ok xs =>
    let p := if bdNorm v then xs.foldl (fun (p : Nat × Nat) x =>
        (F64.addC .rne false p.1 (F64.narrow .rne false (scaledInt x.q1 (2 * x.e))),
         F64.addC .rne false p.2 (F64.narrow .rne false (scaledInt x.q2 (2 * x.e))))) (0, 0) else (0, 0)
    let m1 := modBucket i k (fun b => { b with summed := true, p1 := p.1, p2 := p.2 }) (countN 0x6A00 0x02 xs.length m)
    let m2 := xs.foldl (fun m x =>
      let w := if bdF32 v then writeF32 m i v x
        else ownPut i (bdResult v + 128 * x.blk) (bf16Values m i v x) m
      globArrives i k x.blk x.mx x.fl w) m1
    let chunks := blockChunks (z - a) (if bdF32 v then pairBlocks else 126) a (z - a)
    let m3 := ((List.range n).filter (· != me)).foldl (fun m r =>
      chunks.foldl (fun m ch =>
        let part := (xs.drop (ch.1 - a)).take ch.2
        let pairs := padTo 16 (part.flatMap (fun x => pairOf x.mx x.fl))
        let data := if bdF32 v then pairs else pairs ++ part.flatMap (bf16Values m i v)
        sendColl i r 2 v ch.1 ch.2 data m) m) m2
    if xs.any (fun x => tbit x.fl 1) then progFault 0x0A04 i m3 else m3

/-- Sums whatever an engine may sum now. -/
def sumEngine (i e : Nat) : Nat → Mach → Mach
  | 0, m => m
  | fuel + 1, m =>
    match sumNext m i e with
    | none => m
    | some k =>
      let m1 := emitSlice i k m
      if (bucketAt m1 i k).summed then sumEngine i e fuel m1 else m1

/-! ### Maxima of a calibration pass (R461) -/

/-- Reduces the maxima of the own slice's blocks whose ranks have all arrived, and sends them to every rank. -/
def reduceMaxima (i k : Nat) (m : Mach) : Mach :=
  let b := bucketAt m i k
  let v := b.desc.v
  let n := dpSize m i
  let me := dpRank m i
  let (a, z) := sliceOf n (bdBlocks v) me
  let full (blk : Nat) : Bool := (List.range n).all (fun r => b.maxima.any (fun x => x.1 == r && x.2.1 == blk))
  if b.summed || !b.sent || !(rangeFrom a (z - a)).all full then m
  else
    let xs := (rangeFrom a (z - a)).map (fun blk =>
      (b.maxima.filter (fun x => x.2.1 == blk)).foldl (fun (acc : Nat × Int × Nat) x =>
        (blk, if acc.2.1 < x.2.2.1 then x.2.2.1 else acc.2.1, acc.2.2 ||| x.2.2.2)) (blk, -128, 0))
    let m1 := modBucket i k (fun b => { b with summed := true }) m
    let m2 := xs.foldl (fun m x => globArrives i k x.1 x.2.1 x.2.2 m) m1
    let chunks := blockChunks (z - a) pairBlocks a (z - a)
    let m3 := ((List.range n).filter (· != me)).foldl (fun m r =>
      chunks.foldl (fun m ch =>
        sendColl i r 3 v ch.1 ch.2 (((xs.drop (ch.1 - a)).take ch.2).flatMap (fun x => pairOf x.2.1 x.2.2)) m) m) m2
    if xs.any (fun x => tbit x.2.2 1) then progFault 0x0A04 i m3 else m3

/-! ### Norms (R466, R471) -/

/-- The devices of the norm exchange with the key by which their values are added (R471). -/
def normScope (m : Mach) (i : Nat) : List (Nat × Nat) :=
  let c := ctxAt m i
  if chScopeAll c.gey then (groupOf m c).map (fun x =>
    (axisOf x 0 + max 1 (ringSize m 0) * (axisOf x 1 + max 1 (ringSize m 1) * (axisOf x 2 + max 1 (ringSize m 2) * axisOf x 3)), x))
  else (List.range (cutSize m c 0)).map (fun r => (r, cutPeer m c 0 r))

/-- A device's own values: both engines' buckets in ascending BucketId. -/
def ownNorm (g : Geyser) : Nat × Nat :=
  (g.buckets.filter (fun b => bdNorm b.desc.v)).foldl (fun (p : Nat × Nat) b =>
    (F64.addC .rne false p.1 b.p1, F64.addC .rne false p.2 b.p2)) (0, 0)

/-- Sends the norm values once every bucket is summed (R471); a calibration pass exchanges only maxima (R461). -/
def sendNorm (i : Nat) (m : Mach) : Mach :=
  let c := ctxAt m i
  let g := c.gey
  if g.normSent || g.calibPass || g.header.v == 0 || !g.buckets.all (fun b => b.summed) then m
  else
    let p := ownNorm g
    let sc := normScope m i
    let mine := ownCoord m
    sc.foldl (fun m d =>
      if d.2 == mine then modGey i (fun g => { g with norms := g.norms.put d.1 p }) m
      else sendTxn (mkTxn m c 0x08 d.2 (4 * 2 ^ 60) (.raw (leBytes 8 p.1 ++ leBytes 8 p.2))) m)
      (modGey i (fun g => { g with normSent := true }) m)

/-- Everything that the engines of a context may do now. -/
def geyAdvance (i : Nat) (m : Mach) : Mach :=
  let n := (ctxAt m i).gey.buckets.length
  if !bucketsOk m i then scaleCheck i m
  else if (ctxAt m i).gey.calibPass then (List.range n).foldl (fun m k => reduceMaxima i k m) m
  else sendNorm i (sumEngine i 1 n (sumEngine i 0 n m))

/-! ### Delivery (R452 to R454) -/

/-- R453: MaxExp and the non-finite flag of 64 values. -/
def blockMax (xs : List Nat) : Int × Nat :=
  let vs := xs.map F32.decode
  let fin := vs.filter (fun v => !v.isNan && !v.isInf)
  let mx := match log2V (maxMag fin) with | none => -128 | some e => if e < -127 then -127 else e
  (mx, if fin.length == vs.length then 0 else 2)

/-- One block of a drained tile: record content by R453, R461. -/
def encodeBlock (m : Mach) (i id blk : Nat) (e : Int) (calib : Bool) (xs : List Nat) : GBlk :=
  let c := ctxAt m i
  let (mx, nf) := blockMax xs
  if calib then ⟨blk, mx, nf, []⟩
  else
    let cs := (xs.zip (List.range 64)).map (fun p => g8Code p.1 e (srKeyG8 c.seed c.step id (ownCoord m) (64 * blk + p.2)))
    ⟨blk, mx, nf + (if cs.any (fun x => x.2.1) then 1 else 0), cs.map Prod.fst⟩

/-- Sends a complete bucket's slices to their owners (R454, R461). -/
def sendBucket (i k : Nat) (m : Mach) : Mach :=
  let b := bucketAt m i k
  let v := b.desc.v
  if b.sent || decide (b.blocks.length < bdBlocks v) then m
  else
    let n := dpSize m i
    let me := dpRank m i
    let calib := (ctxAt m i).gey.calibPass
    let blocks := sortBy (fun (x y : GBlk) => decide (x.blk ≤ y.blk)) b.blocks
    let m1 := modBucket i k (fun b => { b with sent := true }) m
    let m2 := if calib then m1 else countN 0x6A00 0x01 (bdBlocks v) m1
    (List.range n).foldl (fun m r =>
      let (a, z) := sliceOf n (bdBlocks v) r
      let mine := (blocks.drop a).take (z - a)
      if r == me then
        (if calib then modBucket i k (fun b => { b with maxima := b.maxima ++ mine.map (fun x => (me, x.blk, x.maxExp, x.flags)) }) m
         else mine.foldl (fun m x => recordArrives i k me x.blk (recordOf x) m) m)
      else (blockChunks (z - a) (if calib then pairBlocks else 227) a (z - a)).foldl (fun m ch =>
        let part := (blocks.drop ch.1).take ch.2
        sendColl i r (if calib then 3 else 1) v ch.1 ch.2
          (if calib then part.flatMap (fun x => pairOf x.maxExp x.flags) else part.flatMap recordOf) m) m) m2

/-- The outcome of handing a drained tile to the geyser queue: done, or it waits (R455). -/
def deliverTile (k : Nat) (d : Drain) (m : Mach) : Option Mach :=
  let c := coreAt m k
  let i := c.ctx
  let id := d.regs.getD 0 0 % 2 ^ 24
  let el := d.regs.getD 1 0
  if !bucketsOk m i then some (scaleCheck i m) else
  match bucketIx m i id with
  | none => some (coreFault k 0x0A03 255 false d.pc id m)
  | some bk =>
    let b := bucketAt m i bk
    let v := b.desc.v
    let first := el / 64
    if el % 64 != 0 || decide (el + 1024 > bdElems v) || b.blocks.any (fun x => decide (first ≤ x.blk) && decide (x.blk < first + 16)) then
      some (coreFault k 0x0A03 255 false d.pc id m)
    else if !inWindow m i bk then none
    else
      let calib := (ctxAt m i).gey.calibPass
      match (rangeFrom first 16).mapM (fun blk => expGet m v 2 blk) with
      | .error x => some (geyFault x i m)
      | .ok es =>
        let blocks := (es.zip (List.range 16)).map (fun p =>
          let xs := [2 * p.2, 2 * p.2 + 1].flatMap (fun row => d.vals.getD row (List.replicate 32 0))
          encodeBlock m i id (first + p.2) p.1 calib xs)
        some (countN 0x6300 0x06 16 <| geyAdvance i (sendBucket i bk (modBucket i bk (fun b => { b with blocks := b.blocks ++ blocks })
          (onMem (grantCross (coreXl k) (bucketDie m i v)) m))))

/-! ### COLLECTIVE transactions (R456, R457, R674) -/

/-- Bucket, first block and count of a transaction. -/
def collFields (t : Txn) : Nat × Nat × Nat := (fld t.detail 59 36, fld t.detail 35 12, fld t.detail 11 0)

/-- The raw octets of a body. -/
def rawOf (t : Txn) : List Byte := match t.body with | .raw b => b | _ => []

/-- Takes a COLLECTIVE of the current pass to a bucket of its context. -/
def withColl (t : Txn) (f : Nat → Nat → Nat → Nat → Mach → Mach) (m : Mach) : Mach :=
  match ctxOfTag m t.jobTag with
  | none => m
  | some i =>
    if !sameTag (ctxAt m i) t then count 0x6A00 0x07 m
    else if !bucketsOk m i then scaleCheck i m
    else
      let (id, first, n) := collFields t
      match bucketIx m i id with
      | none => progFault 0x0A03 i m
      | some k =>
        if decide (first + n > bdBlocks (bucketAt m i k).desc.v) then progFault 0x0A03 i m
        else geyAdvance i (f i k first n m)

/-- The rank of a sender on the data-parallel axis. -/
def senderRank (m : Mach) (i : Nat) (t : Txn) : Nat := match cutAxis (ctxAt m i) 0 with | some a => axisOf t.src a | none => 0

/-- A block lies in the own slice. -/
def ownBlock (m : Mach) (i k blk : Nat) : Bool :=
  let (a, z) := sliceOf (dpSize m i) (bdBlocks (bucketAt m i k).desc.v) (dpRank m i)
  decide (a ≤ blk) && decide (blk < z)

/-- CONTRIB on machine state. -/
def takeContrib (t : Txn) (m : Mach) : Mach :=
  withColl t (fun i k first n m =>
    let r := senderRank m i t
    (List.range n).foldl (fun m j =>
      if ownBlock m i k (first + j) then recordArrives i k r (first + j) (slice (rawOf t) (72 * j) 72) m else m) m) m

/-- RESULT on machine state. -/
def takeResult (t : Txn) (m : Mach) : Mach :=
  withColl t (fun i k first n m =>
    let v := (bucketAt m i k).desc.v
    let d := rawOf t
    let off := (2 * n + 15) / 16 * 16
    (List.range n).foldl (fun m j =>
      let m1 := globArrives i k (first + j) (sxt 8 (octs d (2 * j) 1)) (octs d (2 * j + 1) 1) m
      if bdF32 v then m1 else ownPut i (bdResult v + 128 * (first + j)) (slice d (off + 128 * j) 128) m1) m) m

/-- MAXIMA on machine state: contributions to the own slice, or another owner's reduced values. -/
def takeMaxima (t : Txn) (m : Mach) : Mach :=
  withColl t (fun i k first n m =>
    let r := senderRank m i t
    (List.range n).foldl (fun m j =>
      let mx := sxt 8 (octs (rawOf t) (2 * j) 1)
      let fl := octs (rawOf t) (2 * j + 1) 1
      if ownBlock m i k (first + j) then
        modBucket i k (fun b => { b with maxima := b.maxima.filter (fun x => !(x.1 == r && x.2.1 == first + j)) ++ [(r, first + j, mx, fl)] }) m
      else globArrives i k (first + j) mx fl m) m) m

/-- NORM on machine state (R471). -/
def takeNorm (t : Txn) (m : Mach) : Mach :=
  match ctxOfTag m t.jobTag with
  | none => m
  | some i =>
    if !sameTag (ctxAt m i) t then count 0x6A00 0x07 m
    else match (normScope m i).find? (fun d => d.2 == t.src) with
      | some d => modGey i (fun g => { g with norms := g.norms.put d.1 (octs (rawOf t) 0 8, octs (rawOf t) 8 8) }) m
      | none => m

/-! ### X (R461 to R463, R469, R472, R473, R498) -/

/-- R469: the conditions of X on the device. -/
def xReady (m : Mach) (i : Nat) : Bool :=
  let g := (ctxAt m i).gey
  g.buckets.all bucketDone && (g.header.v == 0 || g.calibPass || (normScope m i).all (fun d => g.norms.has d.1))

/-- Every block of the context: bucket index, block, global MaxExp and Flags. -/
def allBlocks (g : Geyser) : List (Nat × Nat × Int × Nat) :=
  (g.buckets.zip (List.range g.buckets.length)).flatMap (fun b => b.1.glob.map (fun x => (b.2, x.1, x.2.1, x.2.2)))

/-- R461: the working entries after a calibration pass. -/
def calibration (m : Mach) (i : Nat) : List (Nat × Nat × Int) :=
  let g := (ctxAt m i).gey
  let h := dlat m (ctxAt m i) 0x5100 0x04
  (g.buckets.zip (List.range g.buckets.length)).flatMap (fun b =>
    let known := b.1.glob.filter (fun x => x.2.1 != -128)
    let top := known.foldl (fun (acc : Option Int) x => match acc with
      | none => some (agreedOf x.2.1 h)
      | some a => some (if a < agreedOf x.2.1 h then agreedOf x.2.1 h else a)) none
    b.1.glob.map (fun x =>
      (b.2, x.1, if x.2.1 != -128 then agreedOf x.2.1 h else top.getD (sxt 8 (dlat m (ctxAt m i) 0x5100 0x05)))))

/-- The blocks whose global Flags bit 0 is set. -/
def flagged (m : Mach) (i : Nat) : List (Nat × Nat × Int × Nat) := (allBlocks (ctxAt m i).gey).filter (fun x => tbit x.2.2.2 0)

/-- R462: the working entries after a saturation, or the fault of an entry that cannot be used. -/
def saturation (m : Mach) (i : Nat) : Except Nat (List (Nat × Nat × Int)) :=
  (flagged m i).mapM (fun x => do
    let e ← expGet m (bucketAt m i x.1).desc.v 2 x.2.1
    return (x.1, x.2.1, if e ≥ 120 then 120 else e + 1))

/-- Writes working entries (R459). -/
def putWorking (i : Nat) (l : List (Nat × Nat × Int)) (m : Mach) : Mach :=
  if !l.isEmpty && !bucketsOk m i then scaleCheck i m
  else l.foldl (fun m x => expPut i (bucketAt m i x.1).desc.v 2 x.2.1 x.2.2 m) m

/-- R471: S1 and S2. -/
def normSums (g : Geyser) : Nat × Nat :=
  g.norms.foldl (fun (p : Nat × Nat) x => (F64.addC .rne false p.1 x.2.1, F64.addC .rne false p.2 x.2.2)) (0, 0)

def f64OfNat (n : Nat) : Nat := F64.narrow .rne false (ofInt n)
def f64Le (a b : Nat) : Bool := !((F64.decode b).lt (F64.decode a)) && !F64.isNanC a && !F64.isNanC b

/-- R473: the noise scale, binary64. -/
def noiseScale (n mb samples s1 s2 : Nat) : Nat :=
  let ns1 := F64.mulC .rne false (f64OfNat n) s1
  if n == 1 || f64Le s2 s1 || f64Le ns1 s2 then 0
  else F64.divC .rne (F64.mulC .rne false (f64OfNat (mb * samples)) (F64.subC .rne false ns1 s2)) (F64.subC .rne false s2 s1)

/-- R474: N after a noise scale. -/
def smoothed (g : Geyser) (b k : Nat) : Nat :=
  if b == 0 then g.steerN
  else if !g.steerSet then b
  else F64.addC .rne false g.steerN (F64.narrow .rne false (scaleV (F64.decode (F64.subC .rne false b g.steerN)) (-(k : Int))))

/-- ⌈x / d⌉ of a binary64 value. -/
def ceilF64 (x d : Nat) : Nat :=
  match F64.decode x with
  | .fin false n e => if e ≥ 0 then ceilDiv (n * 2 ^ e.toNat) d else ceilDiv n (d * 2 ^ (-e).toNat)
  | _ => 0

/-- R474: the recommendation for a smoothed N. -/
def recommend (m : Mach) (i : Nat) (nn : Nat) : Nat :=
  let g := (ctxAt m i).gey
  let r := ceilF64 nn (dpSize m i * max 1 (chSamples g))
  let hi := min (dnum m 0x9000 0x03) (chMaxMb g)
  min hi (max (dnum m 0x9000 0x02) r)

/-- R472: forms and writes the norm record. -/
def writeNorm (i : Nat) (m : Mach) : Mach :=
  let c := ctxAt m i
  let g := c.gey
  if g.header.v == 0 then m
  else
    let (s1, s2) := normSums g
    let b := noiseScale (dpSize m i) c.mb (chSamples g) s1 s2
    let nn := smoothed g b (dlat m c 0x9000 0x04)
    let rec' := recommend m i nn
    let above := decide (g.satBlocks > dlat m c 0x5100 0x06)
    let r := leBytes 8 c.step ++ leBytes 8 s1 ++ leBytes 8 s2 ++ leBytes 4 (F32.sqrtV (F64.decode s2)) ++
      leBytes 4 (F32.narrow .rne false (F64.decode b)) ++ leBytes 2 rec' ++ leBytes 2 (min 65535 g.satBlocks) ++
      leBytes 1 ((if c.pass.calibrated then 1 else 0) + (if above then 2 else 0)) ++ List.replicate 27 0
    modGey i (fun g => { g with noiseB := b, nextN := nn, normRec := r }) (ownPut i (chNormVa g) r m)

/-- R493: the notice of a transfer entry and of X. -/
def noticeEntry (ring : Nat) : Nat := 5 * 2 ^ 60 + ring * 2 ^ 57

/-- R498: the X notices. -/
def postNotices (i : Nat) (m : Mach) : Mach :=
  let c := ctxAt m i
  let f := readCheck m.mem c.noticeVa (4 * c.noticeCount)
  if f != 0 then memFault f i m
  else (List.range c.noticeCount).foldl (fun m k =>
    let e := vget m.mem (c.noticeVa + 4 * k) 4
    postEntry .notice 0 (octs e 0 2) (octs e 2 1) (noticeEntry (octs e 2 1)) m) m

/-- R461, R462: what a complete X asks of the pass: nothing, or a repeat with a cause and working-exponent changes. -/
def xRepeat (m : Mach) (i : Nat) : Except Nat (Option (Nat × List (Nat × Nat × Int))) := do
  let c := ctxAt m i
  if c.gey.calibPass then return some (0x10, calibration m i)
  else if decide ((flagged m i).length > dlat m c 0x5100 0x06) && decide (c.pass.satRepeats < dlat m c 0x5100 0x07) then
    return some (0x08, ← saturation m i)
  else return none

/-- The discard of an aborted pass waits for X no longer (R500). -/
def endWaitX (i : Nat) (m : Mach) : Mach :=
  modPass i (fun p => if p.aborted then { p with waitX := false, discarding := true } else p) m

/-- R461 to R463, R469, R498: X completes on the device. The notices are written, and the norm record where norms were exchanged; then the
pass goes on, or the device sends ABORT. -/
def xComplete (i : Nat) (m : Mach) : Mach :=
  let c := ctxAt m i
  if !(c.st == .run && c.pass.running && !c.pass.xDone && (!c.pass.aborted || c.pass.waitX)) then m
  else if !bucketsOk m i then endWaitX i (scaleCheck i m)
  else if !xReady m i then m
  else
    let sat := (flagged m i).length
    let m1 := countN 0x6A00 0x03 sat (modGey i (fun g => { g with satBlocks := sat }) (modPass i (fun p => { p with xDone := true }) m))
    let m2 := postNotices i (if c.gey.calibPass then m1 else writeNorm i m1)
    endWaitX i (match xRepeat m i with
      | .error e => geyFault e i m2
      | .ok (some (cause, pend)) => abortPass i cause true (modGey i (fun g => { g with pending := pend }) m2)
      | .ok none =>
        if decide (sat > dlat m c 0x5100 0x06) then notifyCode 0x0A05 i 0 (modPass i (fun p => { p with satPersist := true }) m2) else m2)

/-- R460, R474: Q5 of the geyser engines. -/
def geyserQ5 (i : Nat) (m : Mach) : Mach :=
  let c := ctxAt m i
  let g := c.gey
  let h := dlat m c 0x5100 0x04
  let m1 := (allBlocks g).foldl (fun m x =>
    let v := (bucketAt m i x.1).desc.v
    if !bucketOk (bucketAt m i x.1) then scaleCheck i m
    else match expGet m v 2 x.2.1 with
    | .error e => geyFault e i m
    | .ok w => expPut i v 0 x.2.1 (if x.2.2.1 == -128 then w else agreedOf x.2.2.1 h) m) m
  if g.header.v == 0 || g.noiseB == 0 then m1
  else
    let nn := g.nextN
    let r := recommend m i nn
    let auto := dnum m 0x9000 0x01 == 2 && (chScopeAll g || dpSize m i == c.devCount)
    let m2 := modGey i (fun g => { g with steerN := nn, steerSet := true, recommended := r }) m1
    if auto && r != c.mb then count 0x6A00 0x08 (modCtx i (fun c => { c with mb := r }) m2) else m2

/-- What the engines hold is dropped before the BEGIN of a pass (R452, R457); contributions of the pass may arrive from
then on. -/
def geyserPass (i : Nat) (m : Mach) : Mach :=
  modGey i (fun g => { g with
    buckets := g.buckets.map (fun b => { desc := b.desc }), norms := [], normSent := false, satBlocks := 0, noiseB := 0, nextN := 0,
    calibPass := false }) m

/-- At the barrier: the working-exponent changes of the last pass are kept or discarded (R501), and the pass is a
calibration pass or not (R461). A step counts once among `0x5100.0B CalibrationSteps`, when its first calibration pass
starts. -/
def geyserStart (i : Nat) (keep : Bool) (m : Mach) : Mach :=
  let m1 := if keep then putWorking i (ctxAt m i).gey.pending m else m
  let found := needsCalibration m1 i
  let calib := found.toOption == some true
  let m2 := if calib && !(ctxAt m1 i).pass.calibrated then
      modPass i (fun p => { p with calibrated := true })
        (dput m1 0x5100 0x0B (leBytes 8 (min (2 ^ 64 - 1) (dnum m1 0x5100 0x0B + 1))))
    else match found with
      | .error e => geyFault e i m1
      | .ok _ => m1
  modGey i (fun g => { g with calibPass := calib, pending := [] }) m2

/-! ### Meanings -/

/-- X_COMPLETE (R469). -/
def execXComplete (ctx : Nat) (s : State) : Host.Outcome State Fault Refusal := .next (onM (xComplete ctx) s)

/-- CONTRIB (R456, R464). -/
def execContrib (t : Txn) (s : State) : Host.Outcome State Fault Refusal := .next (onM (tagged t (takeContrib t)) s)

/-- RESULT (R465). -/
def execResult (t : Txn) (s : State) : Host.Outcome State Fault Refusal := .next (onM (tagged t (takeResult t)) s)

/-- MAXIMA (R461). -/
def execMaxima (t : Txn) (s : State) : Host.Outcome State Fault Refusal := .next (onM (tagged t (takeMaxima t)) s)

/-- NORM (R471). -/
def execNorm (t : Txn) (s : State) : Host.Outcome State Fault Refusal := .next (onM (tagged t (takeNorm t)) s)

end Sys2Proof.Machine
end

