-- ==== Sys2Proof/Machine/CoreIssue.lean ====
section
/-!
DEFINITION. The issue unit of a core (08): the S slot (R281 to R285), the T slot (R302, R303, 11 R385 to R388), flow of
control (R286 to R294), interlocks (R305, R306), gating (16 R536, R537), faults at issue (R308) and the debug halt (R316).
-/

namespace Sys2Proof.Machine

/-! ### The S slot -/

/-- R275: a core status value. -/
def csrValue (m : Mach) (k : Nat) (c : Core) (n : Nat) : Nat :=
  let x := ctxAt m c.ctx
  let lc (j : Nat) : Nat := (c.loops.reverse[j]?.map Loop.left).getD 0
  match n with
  | 0 => k
  | 1 => c.ctx
  | 2 => clusterOf k
  | 3 => x.step % 2 ^ 32
  | 4 => x.step / 2 ^ 32
  | 5 => x.mb
  | 6 => dnum m 0x5000 0x02
  | 7 => x.seed % 2 ^ 32
  | 8 => x.seed / 2 ^ 32
  | 9 => lc 0
  | _ => lc 1

/-- The operand-cache offset of a scalar load or store. -/
def sOffset (c : Core) (w size : Nat) : Nat := toU 32 ((sreg c (fRs1 w) : Int) + sxt 12 (fImm12 w) * size)

/-- The result of a three-register scalar operation. -/
def sAlu (op a b : Nat) : Nat :=
  match op with
  | 0x01 => a + b
  | 0x02 => a + 2 ^ 32 - b
  | 0x03 => a &&& b
  | 0x04 => a ||| b
  | 0x05 => a ^^^ b
  | 0x06 => a <<< (b % 32)
  | 0x07 => a >>> (b % 32)
  | 0x08 => toU 32 (sxt 32 a / ((2 ^ (b % 32) : Nat) : Int))
  | 0x09 => a * b
  | 0x0A => if sxt 32 b < sxt 32 a then b else a
  | _ => if sxt 32 a < sxt 32 b then b else a

/-- An S-slot word at issue, flow of control apart (R282 to R284). -/
def issueS (m : Mach) (k : Nat) (c : Core) (w : Nat) : SlotEff :=
  let op := swOp w
  let a := sreg c (fRs1 w)
  let b := sreg c (fRs2 w)
  let rd := fRd w
  let wr (v : Nat) : SlotEff := .ok (modCore k (setS rd v))
  let mem (size : Nat) (f : Nat → Mach → Mach) : SlotEff :=
    let off := sOffset c w size
    if off % size != 0 || decide (off ≥ 262144) then .error (0x0103, off) else .ok (f off)
  if op == 0 then .ok id
  else if op ≤ 0x0B then wr (sAlu op a b)
  else match op with
    | 0x10 => wr (toU 32 ((a : Int) + sxt 12 (fImm12 w)))
    | 0x11 => wr (a &&& fImm12 w)
    | 0x12 => wr (a ||| fImm12 w)
    | 0x13 => wr (a ^^^ fImm12 w)
    | 0x14 => wr (a <<< (fImm12 w % 32))
    | 0x15 => wr (a >>> (fImm12 w % 32))
    | 0x16 => wr (toU 32 (sxt 16 (fImm16 w)))
    | 0x17 => wr (fImm16 w * 65536 + sreg c rd % 65536)
    | 0x18 => .ok (modCore k (setP (fld w 21 19) (condHolds (fld w 4 2) (sreg c (fld w 18 14)) (sreg c (fld w 13 9)))))
    | 0x19 => .ok (modCore k (setP (fld w 21 19) (condHolds (fld w 4 2) (sreg c (fld w 18 14)) (toU 32 (sxt 9 (fld w 13 5))))))
    | 0x1A => .ok (modCore k (setP (fld w 21 19) (popOp (fld w 1 0) (c.p.getD (fld w 18 16) false) (c.p.getD (fld w 15 13) false))))
    | 0x1B => wr (csrValue m k c (fImm16 w))
    | 0x20 => mem 4 (fun off => modCore k (setS rd (opcNum c off 4)))
    | 0x21 => mem 4 (fun off => modCore k (opcPut off (leBytes 4 (sreg c rd))))
    | 0x22 => mem 8 (fun off => modCore k (setA (rd % 16) (opcNum c off 8)))
    | 0x23 => mem 8 (fun off => modCore k (opcPut off (leBytes 8 (areg c (rd % 16)))))
    | 0x24 => .ok (modCore k (setA (fld w 21 18) (toU 64 ((areg c (fld w 17 14) : Int) + sxt 32 (sreg c (fld w 13 9))))))
    | 0x25 => .ok (modCore k (setA (fld w 21 18) (toU 64 ((areg c (fld w 17 14) : Int) + sxt 14 (fld w 13 0)))))
    | 0x26 => .ok (modCore k (setA (rd % 16) (a + b * 2 ^ 32)))
    | 0x27 => wr (if fRs2 w == 1 then areg c (fRs1 w % 16) / 2 ^ 32 else areg c (fRs1 w % 16) % 2 ^ 32)
    | 0x31 => .ok (modCore k (setS (fld w 10 6) (c.pc + 1)))
    | 0x32 =>
      let t := sreg c (fld w 10 6) % 2048
      if decide (c.resident.length ≤ t) then .error (0x0105, t) else .ok id
    | 0x34 => if fld w 5 3 != c.iringRing then .error (0x0105, fld w 5 3) else .ok id
    | 0x35 => if !c.inRing then .error (0x0105, c.pc) else .ok id
    | _ => .ok id

/-- The scalar register that an S-slot word writes (R321). -/
def sTarget (w : Nat) : Option Nat :=
  match slotWrites 0 w with
  | (0, r) :: _ => some r
  | _ => none

/-! ### The T slot -/

/-- R285: an address register that names a device virtual address. -/
def vaBad (a : Nat) : Bool := a / 2 ^ 56 != 0

/-- The lower-tier parts of a transfer's source (R59). -/
def xferParts (m : Mach) (addr len : Nat) : List (Nat × Nat) :=
  if readCheck m.mem addr len != 0 then [] else (pagePieces addr len).filter (fun p => (pageTier m.mem p.1).1 != 0)

/-- `te.xfer` enters the command queue (R303); its lower-tier reads are issued with it (R59). -/
def queueXfer (k dir len addr off ring pc : Nat) (m : Mach) : Mach :=
  let parts := if dir == 0 then xferParts m addr len else []
  let m1 := modCore k (fun c => { c with queue := c.queue ++ [.xfer dir len addr off ring pc parts.length []] }) m
  let m2 := if parts.isEmpty then m1 else count 0x6700 0x05 m1
  let i := (coreAt m k).ctx
  parts.foldl (fun m p => issueTierRead i (.xfer k) p.1 p.2 (pageTier m.mem p.1).1 (pageTier m.mem p.1).2 none m) m2

/-- A T-slot word at issue (R302, R385, R387, R388). -/
def issueT (k : Nat) (c : Core) (w : Nat) : SlotEff :=
  let rg := fld w 21 19
  let r := ringAt c rg
  let ring (f : Nat → SlotEff) : SlotEff := if !ringOk r then .error (0x0801, rg) else f rg
  match swOp w with
  | 0x01 =>
    let pid := sreg c (fld w 21 17)
    .ok (if pid ≥ 65536 then coreFault k 0x0405 255 false c.pc pid else issueSample k pid)
  | 0x02 =>
    let pid := sreg c (fld w 17 13)
    let b := areg c (fld w 12 9)
    let p := areg c (fld w 12 9 + 1)
    let d := areg c (fld w 12 9 + 2)
    if vaBad b then .error (0x0104, b) else if vaBad p then .error (0x0104, p) else if vaBad d then .error (0x0104, d)
    else .ok (if pid ≥ 65536 then coreFault k 0x050B 255 false c.pc pid else issueGather k pid (fld w 21 18) b p d)
  | 0x03 =>
    let id := sreg c (fld w 21 17)
    .ok (modCore k (fun x => { x with queue := x.queue ++ [.stream id c.pc] }))
  | 0x04 =>
    let dir := fld w 21 20
    let a := areg c (fld w 14 11)
    if dir < 2 && vaBad a then .error (0x0104, a)
    else .ok (queueXfer k dir (sreg c (fld w 19 15)) (if dir < 2 then a else a % 2 ^ 32) (sreg c (fld w 10 6)) (fld w 5 3) c.pc)
  | 0x08 => ring (fun rg => .ok (fun m =>
      let e := if rdKind r == 1 then r.entries.getD (diff32 r.racq r.tail) 0 else slotValue r r.racq
      modCore k (fun x => setA (fld w 18 15) e (setRing rg (rAcquire (ringAt x rg)) x)) m))
  | 0x09 => ring (fun rg =>
      if r.racq == r.tail then .error (0x0802, rg)
      else .ok (fun m => issueFetches k rg (count 0x6800 0x02 (modCore k (fun x =>
        let y := ringAt x rg
        setRing rg (releaseSlot { y with entries := y.entries.drop 1 }) x) m))))
  | 0x0A => ring (fun rg => .ok (modCore k (fun x =>
      setA (fld w 18 15) (slotValue r r.wacq) (setRing rg (wAcquire (ringAt x rg)) x))))
  | 0x0B => ring (fun rg =>
      if r.wacq == r.head then .error (0x0802, rg)
      else .ok (modCore k (fun x =>
        let y := ringAt x rg
        setRing rg (commitSlot { y with posted := if rdKind y == 3 then y.posted ++ [c.pc] else y.posted }) x)))
  | _ => .ok id

/-! ### Interlocks (R305, R306) -/

/-- R293: issue stands before a slot of the instruction ring that is not committed. -/
def ringWait (c : Core) : Bool := c.inRing && c.pc % 32 == 0 && !ringFilled (ringAt c c.iringRing)

/-- Conditions that hold a bundle: bit 0 tile busy, bit 1 ring slot empty, bit 2 ring slot full, bit 3 outstanding
gathers, bit 4 a sampler's start queue. -/
def holdBits (m : Mach) (k : Nat) (c : Core) (bundle : Nat) : Nat :=
  let wm := slotWord bundle 1
  let wv := slotWord bundle 2
  let wt := slotWord bundle 3
  let tile := (guardOn c.p wm && mLegal wm && (match mTile c wm with | some t => tileBusy c t | none => false)) ||
    (guardOn c.p wv && vLegal wv && swOp wv == 0x30 && tileBusy c (tileKey (fld wv 21 21) (fld wv 20 16) (tbit wv 15)))
  let t := guardOn c.p wt && tLegal wt
  let rt := ringAt c (fld wt 21 19)
  let empty := t && swOp wt == 0x08 && ringOk rt && !ringFilled rt
  let full := t && ((swOp wt == 0x0A && ringOk rt && !ringRoom rt) ||
    ((swOp wt == 0x03 || swOp wt == 0x04) && decide (c.queue.length ≥ 16)) ||
    (swOp wt == 0x02 && sreg c (fld wt 17 13) < 65536 && gatherFull m c (sreg c (fld wt 17 13))))
  let smp := t && swOp wt == 0x01 && sreg c (fld wt 21 17) < 65536 && sampleFull m c (sreg c (fld wt 21 17))
  let gs := t && swOp wt == 0x02 && decide (gsOutstanding m k ≥ 64)
  if ringWait c then 2
  else (if tile then 1 else 0) + (if empty then 2 else 0) + (if full || smp then 4 else 0) + (if gs then 8 else 0) +
    (if smp then 16 else 0)

/-! ### Stream descriptors (R392) -/

def stCore (v : Nat) : Nat := fld v 491 479
def stRing (v : Nat) : Nat := fld v 478 476
def stBound (v : Nat) : Bool := tbit v 475
def stLayer (v : Nat) : Nat := fld v 474 469
def stVa (v : Nat) : Nat := fld v 468 413
def stSlots (v : Nat) : Nat := fld v 412 389
def stRows (v : Nat) : Nat := fld v 388 373
def stUnits (v : Nat) : Nat := fld v 372 357
def stStride (v : Nat) : Nat := fld v 356 325
def stSlotStride (v : Nat) : Nat := fld v 324 293

/-- R395: octets of a stream's span from SourceVa. -/
def streamSpan (v : Nat) : Nat := (stSlots v - 1) * stSlotStride v + (stRows v - 1) * stStride v + stUnits v * 64

/-- The stream of a context by its number. -/
def streamOf (m : Mach) (i id : Nat) : Option Pair := if id ≥ 65536 then none else m.streams.find (dkeyOf i id)

/-! ### Parity at issue (R267, R317, R323, R345, R508) -/

/-- The parity word of a register. -/
def regWord (r : Nat × Nat) : ParWord :=
  match r.1 with | 0 => .sreg r.2 | 1 => .areg r.2 | 2 => .preg r.2 | _ => .lane r.2

/-- The parity fault of the registers that a slot word reads: a lane register's, or the register file's. -/
def regParity (c : Core) (slot w : Nat) : Option (Nat × Nat) :=
  match (slotReads slot w).find? (fun r => c.par.contains (regWord r)) with
  | some r => some (if r.1 == 3 then 0x0302 else 0x0102, r.2)
  | none => none

/-- What a slot word reads of the operand cache at its issue, with the fault code of its reader. -/
def issueReads (c : Core) (slot w : Nat) : Nat × List (Nat × Nat) :=
  let op := swOp w
  let s4 (i : Nat) : Nat := sreg c (4 * fld w 2 0 + i)
  match slot with
  | 0 => (0x0107, if op == 0x20 then [(sOffset c w 4, 4)] else if op == 0x22 then [(sOffset c w 8, 8)] else [])
  | 1 => (0x0201,
      if op == 0x0D then [(sreg c (fld w 9 5), if tbit w 15 then 64 else 128)]
      else if op == 0x10 then [(s4 0, 8 + opcNum c (s4 0 + 4) 2)]
      else if op == 0x13 then [(s4 0, 4096)]
      else if op == 0x14 && fld w 13 8 != 0 then [(s4 2, 136)]
      else [])
  | 2 => (0x0301,
      if op == 0x10 then [(sreg c (fld w 18 14) + fld w 13 2 * 64, elemBytes (fld w 1 0))]
      else if op == 0x12 then
        let n := idxSize (fld w 10 7)
        (vreg c (fld w 18 16)).map (fun i => (sreg c (fld w 15 11) + i * n, n))
      else if op == 0x1A then [(sreg c (fld w 15 11), 16)]
      else [])
  | _ => (0, [])

/-- The parity fault of what a slot word reads of the operand cache or, for `mm.dbgrd`, of accumulator memory. -/
def readParity (c : Core) (slot w : Nat) : Option (Nat × Nat) :=
  let (code, spans) := issueReads c slot w
  if slot == 1 && swOp w == 0x0C && accParBad c [(accAddr (fld w 21 21) (fld w 20 16) (tbit w 15) (fld w 14 10) 0, if tbit w 15 then 64 else 128)] then
    some (0x0202, fld w 20 16)
  else match spans.find? (fun s => opcParBad c [s]) with
    | some s => some (code, s.1)
    | none => none

/-- The first slot word of the next bundle whose parity is bad. -/
def imemParity (c : Core) : Option Nat := [0, 1, 2, 3].find? (fun s => c.par.contains (.imem c.pc s))

/-! ### Cycles -/

/-- R536, R537: whether a core's present cycle is gated: 2 by duty, so that its drains stand too (R341), 1 by a switch of its die's
operating point. The frame of 64 cycles is that of the core's own count (log entry 87). -/
def gate (m : Mach) (k : Nat) : Nat :=
  let d := m.pwr.dies.getD (k / 288) {}
  if d.duty ≤ (coreAt m k).aclk % 64 then 2 else if d.switching then 1 else 0

/-- The oldest drains of the arrays that are read whole and that the geyser queue keeps waiting (R342, R455). -/
def queueWaits (m : Mach) (k : Nat) : Nat :=
  ([0, 1].filter (fun arr => match (coreAt m k).drains.find? (fun d => d.arr == arr) with
    | some d => d.left == 0 && d.dest == 1 && (deliverTile k d m).isNone
    | none => false)).length

/-- The side ports of a core in a cycle: the matrix-vector path first, as `before` shows it, then the drains, then the debug instructions
(R263); and the waits of drains (R346, R455). -/
def sideCycle (lanesUsed : Bool) (before : Core) (k : Nat) (m : Mach) : Mach :=
  let busy := [sidePort before 0, sidePort before 1]
  let c := coreAt m k
  let q := queueWaits m k
  let m1 := if rowWaits lanesUsed busy c || q != 0 then count 0x6300 0x05 m else m
  let taken := [0, 1].map (fun arr => busy.getD arr false || (!lanesUsed && drainRowLeft c arr))
  dbgCycle taken k (drainCycle lanesUsed busy k (countN 0x6A00 0x06 q m1))

/-- A cycle gated by duty (R271, R341, R537). -/
def gatedCycle (k : Nat) (m : Mach) : Mach := modCore k (fun c => { c with aclk := c.aclk + 1 }) (feedCycle k m)

/-- A cycle in which nothing issues and the pipelines stand still (R271): feeders, arrays and drains go on. -/
def stillCycle (k : Nat) (m : Mach) : Mach :=
  modCore k (fun c => { c with aclk := c.aclk + 1 }) (sideCycle false (coreAt m k) k (feedCycle k m))

/-- A cycle in which nothing issues and the pipelines advance (R286, R295, R296). -/
def emptyCycle (k : Nat) (m : Mach) : Mach :=
  modCore k (fun c => { c with aclk := c.aclk + 1 }) (applyPending none k (sideCycle false (coreAt m k) k (feedCycle k m)))

/-- A held cycle counts each condition once per bundle (R306). -/
def heldCycle (k bits : Nat) (m : Mach) : Mach :=
  let c := coreAt m k
  let fresh (b : Nat) : Bool := tbit bits b && !tbit c.held b
  let cnt (b i s : Nat) (m : Mach) : Mach := if fresh b then count i s m else m
  let m1 := cnt 0 0x6200 0x05 (cnt 1 0x6100 0x03 (cnt 2 0x6100 0x04 (cnt 3 0x6500 0x05 (cnt 4 0x6400 0x08 m))))
  let m2 := if tbit bits 0 then count 0x6200 0x06 m1 else m1
  stillCycle k (count 0x6100 0x02 (modCore k (fun c => { c with held := (c.held ||| bits) }) m2))

/-! ### Flow of control -/

/-- Where issue goes after a bundle: the next bundle's address, whether in ring code, whether a transfer is taken. -/
structure Flow where
  pc : Nat
  inRing : Bool
  taken : Bool
  st : CoreSt := .running
  retPc : Nat
  loops : List Loop
deriving DecidableEq, Repr

/-- R287: the end of loop bodies at a bundle: an iteration left goes back; an exhausted loop is left for LOOP_END, and
issue goes on after it. -/
def bodyEnd (pc : Nat) : List Loop → Nat × List Loop
  | [] => (pc + 1, [])
  | l :: r =>
    if l.last == pc then
      if l.left > 1 then (l.first, { l with left := l.left - 1 } :: r)
      else
        let (n, r1) := bodyEnd pc r
        (n, { l with left := 0 } :: r1)
    else (pc + 1, l :: r)

/-- Removes exhausted loops (R287). -/
def dropLoops (c : Core) : Core := { c with loops := c.loops.filter (fun l => l.left != 0) }

/-- The next bundle in the resident code or the ring window. -/
def seqNext (c : Core) : Nat × List Loop :=
  if c.inRing then
    (if c.pc % 32 == 31 then
      2048 - 32 * c.iringSlots + 32 * (if c.iringSlots == 0 then 0 else (ringAt c c.iringRing).racq % c.iringSlots)
     else c.pc + 1, c.loops)
  else bodyEnd c.pc c.loops

/-- The bundle address of the oldest unconsumed slot of the instruction ring. -/
def ringEntry (c : Core) : Nat :=
  2048 - 32 * c.iringSlots + 32 * (if c.iringSlots == 0 then 0 else (ringAt c c.iringRing).racq % c.iringSlots)

/-- R286, R287, R293, R295, R296: flow after the S slot's word; `c` is the core before issue, with its slot acquired. -/
def flowOf (c : Core) (w : Nat) (on : Bool) : Flow :=
  let (n, ls) := seqNext c
  let base : Flow := ⟨n, c.inRing, false, .running, c.retPc, ls⟩
  let target := fld w 21 11
  if !on then base
  else match swOp w with
    | 0x30 | 0x31 => { base with pc := target, taken := true, loops := c.loops }
    | 0x32 => { base with pc := sreg c (fld w 10 6) % 2048, taken := true, loops := c.loops }
    | 0x33 =>
      let n := sreg c (fld w 10 6)
      if n == 0 then { base with pc := target + 1, taken := true, loops := c.loops }
      else { base with pc := c.pc + 1, loops := ⟨c.pc + 1, target, n⟩ :: c.loops }
    | 0x34 => { base with pc := ringEntry c, inRing := true, taken := true, retPc := c.pc + 1, loops := c.loops }
    | 0x35 => { base with pc := c.retPc, inRing := false, taken := true, loops := c.loops }
    | 0x36 => { base with st := .layer }
    | 0x37 => { base with st := .ended }
    | _ => base

/-! ### Issue -/

/-- The next bundle of a core. -/
def nextBundle (c : Core) : Nat := if c.inRing then c.window.get c.pc 0 else c.resident.getD c.pc 0

/-- R308: the first faulting slot, or the bundle's effect. -/
def bundleEffect (m : Mach) (k : Nat) (c : Core) (bundle : Nat) : Except (Nat × Nat × Nat) (Mach → Mach) :=
  let slot (s : Nat) (f : Nat → SlotEff) : Except (Nat × Nat × Nat) (Mach → Mach) :=
    let w := slotWord bundle s
    if c.par.contains (.preg (swPred w)) then .error (0x0102, s, swPred w)
    else if !guardOn c.p w then .ok (count 0x6100 0x07)
    else if !slotLegal s w then .error (0x0106, s, w)
    else match regParity c s w, f w, readParity c s w with
      | some (code, d), _, _ => .error (code, s, d)
      | none, .error (code, d), _ => .error (code, s, d)
      | none, .ok _, some (code, d) => .error (code, s, d)
      | none, .ok g, none => .ok (fun m => (if s == 2 && swOp w != 0 then count 0x6300 0x01 else id) (g m))
  do
    let fs ← slot 0 (issueS m k c)
    let fm ← slot 1 (issueM m k c)
    let fv ← slot 2 (issueV m k c)
    let ft ← slot 3 (issueT k c)
    return fun m => ft (fv (fm (fs m)))

/-- The counter of parity errors of the finder (R268, R318, R346). -/
def parityCount (code : Nat) : Option Nat :=
  if code == 0x0101 || code == 0x0102 || code == 0x0107 then some 0x6100
  else if code == 0x0201 || code == 0x0202 then some 0x6200
  else if code == 0x0301 || code == 0x0302 then some 0x6300
  else none

/-- The parity counter goes up: entry 0x09 of blocks 0x6100 and 0x6300, 0x0C of block 0x6200. -/
def countParity (block : Nat) (m : Mach) : Mach := count block (if block == 0x6200 then 0x0C else 0x09) m

/-- R308 to R310: a fault at issue. -/
def issueFault (k code slot detail : Nat) (m : Mach) : Mach :=
  let c := coreAt m k
  if code == 0x0101 then
    coreError k code slot true c.pc detail (countParity 0x6100 (modCore k (fun c => { c with imemBad := true }) m))
  else if let some b := parityCount code then coreError k code slot true c.pc detail (countParity b m)
  else if code == 0x0106 then
    coreError k code slot true c.pc detail (if c.inRing then m else modCore k (fun c => { c with imemBad := true }) m)
  else if code == 0x0801 then coreError k code slot true c.pc detail (count 0x6800 0x09 m)
  else coreFault k code slot true c.pc detail m

/-- The instruction ring's slot that a bundle belongs to: acquired with its first bundle, released with its last or with
`sc.iret` (R293). -/
def takeSlot (k : Nat) (m : Mach) : Mach :=
  let c := coreAt m k
  if c.inRing && c.pc % 32 == 0 then
    count 0x6100 0x05 (setCore k (setRing c.iringRing (rAcquire (ringAt c c.iringRing)) c) m)
  else m
def leaveSlot (k : Nat) (ret : Bool) (m : Mach) : Mach :=
  let c := coreAt m k
  if c.inRing && (ret || c.pc % 32 == 31) then
    issueFetches k c.iringRing (count 0x6800 0x02 (setCore k (setRing c.iringRing (releaseSlot (ringAt c c.iringRing)) c) m))
  else m

/-- The context was loaded with the debug flag and debug is enabled (R315, R316). -/
def debugCtx (m : Mach) (c : Core) : Bool :=
  decide (c.ctx < 16) && loaded (ctxAt m c.ctx) && (ctxAt m c.ctx).debug && dnum m 0xA000 0x01 == 1

/-- A stream belongs to the layer. -/
def ofLayer (m : Mach) (i id lay : Nat) : Bool :=
  match streamOf m i id with
  | some p => stBound p.v && stLayer p.v == lay % 64
  | none => false

/-- R396: a ring's stream of the ending layer fetches no slot that it has not started: the slots cancelled, the ring. -/
def cancelStream (m : Mach) (i lay : Nat) (r : Ring) : Nat × Ring :=
  match r.active with
  | some a =>
    if ofLayer m i a.index lay then
      let stop := a.next + inFetch r
      (a.limit - stop, { r with active := if inFetch r == 0 then none else some { a with limit := stop } })
    else (0, r)
  | none => (0, r)

/-- Queued streams of the ending layer never start; their slots are cancelled. -/
def drainQueue (m : Mach) (i lay : Nat) (q : List TCmd) : Nat × List TCmd :=
  let gone := q.filter (fun x => match x with | .stream id _ => ofLayer m i id lay | _ => false)
  let n := gone.foldl (fun acc x => match x with
    | .stream id _ => acc + (match streamOf m i id with | some p => stSlots p.v | none => 0)
    | _ => acc) 0
  (n, q.filter (fun x => match x with | .stream id _ => !ofLayer m i id lay | _ => true))

/-- A ring with a stream of the ending layer whose counts or descriptor fail their complements (R386). -/
def brokenStream (m : Mach) (c : Core) (lay : Nat) : Option Nat :=
  (c.rings.find? (fun p => (match p.2.active with | some a => ofLayer m c.ctx a.index lay | none => false) && !ringOk p.2)).map Prod.fst

/-- R396: what a layer drain stops at its start, when `sc.layer` issues as bundle `pc`. -/
def cancelLayer (k lay pc : Nat) (m : Mach) : Mach :=
  let c := coreAt m k
  match brokenStream m c lay with
  | some r => ringBroken (.te k) k r pc m
  | none =>
  let rs := c.rings.map (fun p => (p.1, cancelStream m c.ctx lay p.2))
  let (n, q) := drainQueue m c.ctx lay c.queue
  countN 0x6800 0x04 (rs.foldl (fun a p => a + p.2.1) n) (setCore k { c with rings := rs.map (fun p => (p.1, p.2.2)), queue := q } m)

/-- R325: the bank of the operand cache that a bundle's scalar load or store takes. -/
def scalarBank (c : Core) (w : Nat) : Option Nat :=
  let op := swOp w
  if guardOn c.p w && decide (0x20 ≤ op) && decide (op ≤ 0x23) then some (sOffset c w (if op ≤ 0x21 then 4 else 8) / 8 % 32) else none

/-- The cycle after a taken transfer issues nothing (R286); where it is gated it comes later. -/
def bubbleCycle (k : Nat) (m : Mach) : Mach :=
  if gate m k == 0 then emptyCycle k m else modCore k (fun c => { c with bubble := true }) m

/-- Issues the next bundle, which no interlock holds (R269, R270). The draws and context reads of its slots use the step number (R503). -/
def issueBundle (k : Nat) (m : Mach) : Mach :=
  if !stepPairOk (ctxAt m (coreAt m k).ctx) then stepFault (coreAt m k).ctx m else
  let bundle := nextBundle (coreAt m k)
  let ws := slotWord bundle 0
  let m0 := match scalarBank (coreAt m k) ws with | some b => delayFeeds k b m | none => m
  let c0 := coreAt m0 k
  match bundleEffect m0 k c0 bundle with
  | .error (code, slot, d) => issueFault k code slot d m
  | .ok eff =>
    let on := guardOn c0.p ws
    let wv := slotWord bundle 2
    let lanes := guardOn c0.p wv && usesLanes wv
    let m1 := takeSlot k (feedCycle k m0)
    let flow := flowOf (coreAt m1 k) ws on
    let m2 := sideCycle lanes c0 k (leaveSlot k (on && swOp ws == 0x35) (eff (count 0x6100 0x01 m1)))
    let m3 := applyPending (if on then sTarget ws else none) k m2
    let halts := c0.dbgStep
    let m4 := modCore k (fun c => { c with
      pc := flow.pc, inRing := flow.inRing, retPc := flow.retPc, loops := flow.loops,
      st := if c.st == .running then flow.st else c.st, layer := if flow.st == .layer then c.layer + 1 else c.layer,
      held := 0, aclk := c.aclk + 1, dbgPass := false, dbgStep := false, dbg := if halts then 2 else c.dbg }) m3
    let m5 := if flow.st == .layer then cancelLayer k c0.layer c0.pc (count 0x6100 0x08 m4) else m4
    let m6 := if halts then count 0x6100 0x0B m5 else m5
    if flow.taken then bubbleCycle k (count 0x6100 0x06 m6) else m6

/-- R269, R306, R307, R316: one ACLK cycle of a core's issue unit. -/
def bundleIssue (k : Nat) (m : Mach) : Mach :=
  let c := coreAt m k
  if !m.cores.has k || !issues m c then m
  else if gate m k == 2 then gatedCycle k m
  else if gate m k == 1 || c.dbg != 0 then stillCycle k m
  else if c.bubble then emptyCycle k (modCore k (fun c => { c with bubble := false }) m)
  else if c.st != .running then emptyCycle k m
  else if c.dbgBreak == c.pc && debugCtx m c && !c.dbgPass then
    stillCycle k (count 0x6100 0x0B (modCore k (fun c => { c with dbg := 1 }) m))
  else
    let m0 := modCore k dropLoops m
    let c1 := coreAt m0 k
    if c1.inRing && !ringOk (ringAt c1 c1.iringRing) then issueFault k 0x0801 0 c1.iringRing m0
    else match (if ringWait c1 then none else imemParity c1) with
      | some s => issueFault k 0x0101 s c1.pc m0
      | none =>
        let bits := holdBits m0 k c1 (nextBundle c1)
        if bits != 0 then heldCycle k bits m0 else issueBundle k m0

/-- R287: a loop's count is exhausted. -/
def loopEnded (k : Nat) (m : Mach) : Mach := if m.cores.has k then modCore k dropLoops m else m

/-! ### The arrays' and drains' completions -/

/-- R243: a weight load whose writes are done. -/
def weightReady (k arr bank : Nat) (m : Mach) : Mach :=
  let c := coreAt m k
  let b := bankAt c (bankIx arr bank)
  if !b.loading || !b.plan.isEmpty || decide (c.aclk < b.ready) then m
  else modCore k (setBank (bankIx arr bank) { b with loading := false }) m

/-- The first of a list for which a measure is least. -/
def firstLeast {α : Type} (f : α → Nat) : List α → Option α
  | [] => none
  | x :: r => match firstLeast f r with | some y => if f y < f x then some y else some x | none => some x

/-- R250: the operation of an array that retires next, once its retirement cycle has passed (R264). -/
def dueOp (c : Core) (arr : Nat) : Option MxOp :=
  firstLeast MxOp.retire (c.ops.filter (fun o => o.arr == arr && o.plan.isEmpty && decide (o.retire < c.aclk)))
def matrixRetire (k arr : Nat) (m : Mach) : Mach :=
  match dueOp (coreAt m k) arr with
  | none => m
  | some o => retireOp k o m

/-- R259: the matrix-vector operation that retires next. -/
def dueMv (c : Core) : Option MvOp :=
  firstLeast MvOp.retire (c.mvs.filter (fun o => o.plan.isEmpty && o.loads.isEmpty && decide (o.retire < c.aclk)))
def mvRetire (k : Nat) (m : Mach) : Mach :=
  match dueMv (coreAt m k) with
  | none => m
  | some o => retireMv k o m

/-- The oldest drain of an array, where its rows are read and the array's last completion entry is in its ring (R343, R387). -/
def readDrain (m : Mach) (k arr : Nat) : Option Drain :=
  match (coreAt m k).drains.find? (fun d => d.arr == arr) with
  | some d => if d.left == 0 && !posting m (.drain k arr) then some d else none
  | none => none

/-- The drains that may complete, in the order in which their last rows were read, the lower array first (R390). -/
def readDrains (m : Mach) (k : Nat) : List Drain :=
  match readDrain m k 0, readDrain m k 1 with
  | some a, some b => if b.endAt < a.endAt then [b, a] else [a, b]
  | some a, none => [a]
  | none, some b => [b]
  | none, none => []

/-- R341, R342: a drain is written, or handed to the geyser queue; none where that queue is full. -/
def completeDrain (k : Nat) (d : Drain) (m : Mach) : Option Mach :=
  let drop (m : Mach) : Mach := modCore k (fun c => { c with drains := c.drains.erase d }) m
  if d.dest == 1 then (deliverTile k d m).map drop
  else
    let m1 := drop (drainRows k d m)
    some (if eRingEn d.epi then postEntry (.drain k d.arr) d.pc k (eRing d.epi) (drainEntry d) m1 else m1)

/-- The first drain of the list that can complete does; one that the geyser queue keeps waiting stays (R455). -/
def drainDone (k : Nat) (m : Mach) : Mach :=
  stepUsed (coreAt m k).ctx (fun m => ((readDrains m k).findSome? (fun d => completeDrain k d m)).getD m) m

/-! ### The transfer engine (R303, R393 to R395) -/

/-- The oldest transfer of a queue, and the queue without it. -/
def takeXfer : List TCmd → Option (TCmd × List TCmd)
  | [] => none
  | .xfer dir len addr off ring pc waits got :: r => some (.xfer dir len addr off ring pc waits got, r)
  | x :: r => (takeXfer r).map (fun p => (p.1, x :: p.2))

/-- The octets of a transfer's source span: HBM parts now, lower-tier parts as they answered. -/
def xferBytes (m : Mach) (addr len : Nat) (got : List (Nat × List Byte)) : List Byte :=
  (pagePieces addr len).flatMap (fun p =>
    match got.find? (fun g => g.1 == p.1) with
    | some g => g.2
    | none => vget m.mem p.1 p.2)

/-- Octets that fit below a limit. -/
def clipTo (limit off : Nat) (bs : List Byte) : List Byte := bs.take (limit - off)

/-- Whether a table update holds a non-finite element (R175): entries of a key and a binary32 row, a64 apart. -/
def badUpdate (w : Nat) (bs : List Byte) : Bool :=
  let st := a64 (8 + 4 * w)
  (List.range (bs.length / st)).any (fun n => (List.range w).any (fun e =>
    let v := F32.decode (octs bs (n * st + 8 + 4 * e) 4)
    v.isNan || v.isInf))

/-- How Q1 stores the elements of a PARAM or OPTSTATE object of a width class (R673): 0 bit for bit, 1 as bfloat16, 3 to 5 in 8, 4 or
2 bits, 6 in a class that the manual gives for rows only (log entry 28). -/
def paramKind (width : Nat) : Nat := match width with | 1 => 1 | 2 => 3 | 3 => 4 | 4 => 5 | 7 => 6 | _ => 0

/-- R19, R20, R52, R175: what a transfer to a VA does: a fault code, or an effect. A span over several objects is written where every
one of them may be (R55). -/
def xferOut (m : Mach) (i va : Nat) (bs : List Byte) : Except Nat (Mach → Mach) :=
  match objHolding m.mem va bs.length with
  | none => let f := writeCheck m.mem i va bs.length; if f == 0 then .ok (onMem (vput va bs)) else .error f
  | some v =>
    let r := readCheck m.mem va bs.length
    if r != 0 then .error r
    else if oClass v ≤ 2 then
      if oCtx v != i || oShared v then .error 0x0707
      else if oClass v == 2 then
        match stepTable m i (oId v) with
        | .error e => .error e
        | .ok d => if badUpdate (tdWidth d) bs then .error 0x0604
          else .ok (modCtx i (fun c => { c with upd := c.upd ++ [⟨va, 2, bs, oId v⟩] }))
      else .ok (modCtx i (fun c => { c with upd := c.upd ++ [⟨va, paramKind (oWidth v), bs, oId v⟩] }))
    else
      let f := writeCheck m.mem i va bs.length
      if f != 0 then .error f else .ok (onMem (vput va bs))

/-- A fault of a transfer: program faults of the core, or a table or page structure's (R23). -/
def xferFault (k code pc va : Nat) (m : Mach) : Mach :=
  let i := (coreAt m k).ctx
  if isDescCheck code then memFault code i (recordFault k 0x0701 255 false false pc va m)
  else if code == 0x0602 then gsFault code i (recordFault k code 255 false false pc va m)
  else coreFault k code 255 false pc va m

/-- R323, R508: the transfer engine's read of the operand cache or of staging meets a parity error (its code: log entry 85). -/
def xferParity (k pc off : Nat) (m : Mach) : Mach := coreError k 0x0107 255 false pc off (countParity 0x6100 m)

/-- R303: the oldest transfer of a core moves its octets and posts its entry. -/
def xferDone (k : Nat) (m : Mach) : Mach :=
  let c := coreAt m k
  if !issues m c || posting m (.te k) then m
  else match takeXfer c.queue with
    | some (.xfer dir len addr off ring pc waits got, rest) =>
      if waits != 0 then m
      else
        let m0 := modCore k (fun c => { c with queue := rest }) m
        let done (m : Mach) : Mach := postEntry (.te k) pc k ring (5 * 2 ^ 60 + ring * 2 ^ 57 + len) m
        let cl := clusterOf k
        let bad := opcParBad c [(off, len)]
        if dir == 0 then
          let f := readCheck m.mem addr len
          if f != 0 then xferFault k f pc addr m0
          else
            let bs := clipTo 262144 off (xferBytes m addr len got)
            done (modCore k (opcPut off bs) (access (coreXl k) addr len m0))
        else if dir == 1 then
          if bad then xferParity k pc off m0
          else match xferOut m0 c.ctx addr (clipTo 262144 off (opcGet c off len)) with
          | .error f => xferFault k f pc addr m0
          | .ok g => done (g (access (coreXl k) addr len m0))
        else if dir == 2 && stagParBad m.mem cl addr len then xferParity k pc addr m0
        else if dir == 2 then
          let bs := clipTo 262144 off (cellsGet m.mem.staging (stagAddr cl addr) (min len (2 ^ 22 - addr)))
          done (modCore k (opcPut off bs) m0)
        else if bad then xferParity k pc off m0
        else
          let bs := clipTo (2 ^ 22) addr (opcGet c off (min len (262144 - off)))
          done (onMem (stagPut cl addr bs) m0)
    | _ => m

/-- The first queued stream into a ring, or one that names no stream of the core. -/
def takeStream (m : Mach) (k i ring : Nat) : List TCmd → Option (Nat × Nat × List TCmd)
  | [] => none
  | .stream id pc :: r =>
    let mine := match streamOf m i id with | some p => stRing p.v == ring || stCore p.v != k | none => true
    if mine then some (id, pc, r) else (takeStream m k i ring r).map (fun p => (p.1, p.2.1, .stream id pc :: p.2.2))
  | x :: r => (takeStream m k i ring r).map (fun p => (p.1, p.2.1, x :: p.2.2))

/-- R394, R395: the next stream into a ring begins. -/
def streamBegin (k ring : Nat) (m : Mach) : Mach :=
  let c := coreAt m k
  let r := ringAt c ring
  if !issues m c || r.active.isSome then m
  else match takeStream m k c.ctx ring c.queue with
    | none => m
    | some (id, pc, rest) =>
      let m0 := modCore k (fun c => { c with queue := rest }) m
      match streamOf m c.ctx id with
      | none => m0
      | some p =>
        if !pairOk 512 p.v p.c then coreError k 0x0801 255 false pc id (count 0x6800 0x09 m0)
        else if stCore p.v != k then m0
        else
          let va := stVa p.v
          let walk := readCheck m.mem va 1
          if walk != 0 then xferFault k walk pc va m0
          else if entryBad m.mem va then xferFault k objCheck pc va m0
          else
            let fits := match objAt m.mem va with
              | some o => decide (va + streamSpan p.v ≤ (objSpan o).2)
              | none => false
            if !fits then coreFault k 0x0803 255 false pc va m0
            else issueFetches k ring (modCore k (fun c =>
              setRing ring { ringAt c ring with active := some ⟨id, 0, stSlots p.v, pc⟩ } c) m0)

/-- A stream's rows of slot j, as VA and length. -/
def streamRows (v j : Nat) : List (Nat × Nat) :=
  (List.range (stRows v)).map (fun r => (stVa v + j * stSlotStride v + r * stStride v, stUnits v * 64))

/-- R59: every page of the spans is in HBM: 0, a fault code, or 1 where a page lies lower. -/
def hbmCheck (m : Mach) (spans : List (Nat × Nat)) : Nat :=
  spans.foldl (fun acc s =>
    if acc > 1 then acc
    else
      let f := readCheck m.mem s.1 s.2
      if f != 0 then f
      else if (pagePieces s.1 s.2).any (fun p => (pageTier m.mem p.1).1 != 0) then 1 else acc) 0

/-- Extends the run of counts that a bound stream committed. -/
def noteSpan (id head : Nat) (spans : List (Nat × Nat × Nat)) : List (Nat × Nat × Nat) :=
  if spans.any (fun s => s.1 == id && s.2.2 == head) then
    spans.map (fun s => if s.1 == id && s.2.2 == head then (s.1, s.2.1, (head + 1) % 2 ^ 32) else s)
  else spans ++ [(id, head, (head + 1) % 2 ^ 32)]

/-- Writes the octets of the slot that lands next into its buffer. -/
def fillSlot (k ring : Nat) (bs : List Byte) (m : Mach) : Mach :=
  let c := coreAt m k
  let r := ringAt c ring
  let off := slotOffset r r.head
  if rdWhere r == 1 then onMem (stagPut (clusterOf k) off bs) m
  else modCore k (opcPut off bs) m

/-- A fetch waits for a page to be promoted; counted once (R59). -/
def stallFetch (k ring : Nat) (m : Mach) : Mach :=
  let q := k * 8 + ring
  if m.mem.xfersStalled.contains q then m
  else count 0x6700 0x05 (onMem (fun x => { x with xfersStalled := x.xfersStalled ++ [q] }) m)
def unstall (k ring : Nat) (m : Mach) : Mach := onMem (fun x => { x with xfersStalled := x.xfersStalled.filter (· != k * 8 + ring) }) m

/-- The bundles of a slot of the instruction stream at their addresses in the ring window (R290, R292). -/
def fillWindow (m : Mem) (r : Ring) (c : Core) : Core :=
  let base := 2048 - 32 * c.iringSlots + 32 * (if c.iringSlots == 0 then 0 else r.head % c.iringSlots)
  goodPar (fun w => match w with | .imem b _ => decide (base ≤ b) && decide (b < base + 32) | _ => false)
    { c with window := (List.range 32).foldl (fun w b =>
        SMap.put w (base + b) (vnum m (c.iringVa + 512 * r.head + 16 * b) 16)) c.window }

/-- R292, R393: the next slot of a ring's stream lands and is committed. -/
def slotCommit (k ring : Nat) (m : Mach) : Mach :=
  let c := coreAt m k
  let r := ringAt c ring
  let pc := match r.active with | some a => a.pc | none => c.pc
  if !issues m c || !c.rings.has ring then m
  else if !ringOk r then coreError k 0x0801 255 false pc ring (count 0x6800 0x09 m)
  else if inFetch r == 0 then m
  else if rdKind r == 2 then
    let va := c.iringVa + 512 * r.head
    let f := hbmCheck m [(va, 512)]
    if f == 1 then stallFetch k ring m
    else if f != 0 then xferFault k f pc va m
    else count 0x6800 0x01 (unstall k ring (access (coreXl k) va 512 (modCore k (fun c =>
      setRing ring (commitSlot r) (fillWindow m.mem r c)) m)))
  else match r.active with
    | none => m
    | some a =>
      match streamOf m c.ctx a.index with
      | none => m
      | some p =>
        if !pairOk 512 p.v p.c then coreError k 0x0801 255 false pc a.index (count 0x6800 0x09 m)
        else
          let rows := streamRows p.v a.next
          let f := hbmCheck m rows
          if f == 1 then stallFetch k ring m
          else if f != 0 then xferFault k f pc (stVa p.v) m
          else
            let bs := rows.flatMap (fun s => vget m.mem s.1 s.2)
            let m1 := accessAll (coreXl k) rows (fillSlot k ring bs m)
            let nx := a.next + 1
            count 0x6800 0x01 (unstall k ring (modCore k (fun c =>
              let x := ringAt c ring
              setRing ring (commitSlot { x with
                active := if nx ≥ a.limit then none else some { a with next := nx },
                spans := if stBound p.v then noteSpan a.index x.head x.spans else x.spans }) c) m1))

/-- What a unit goes on to when the entry that it posted is in its ring. -/
def afterPost (p : Poster) (m : Mach) : Mach :=
  match p with
  | .sampler s => smpAdvance s m
  | .engine e => enginePosted e m
  | .drain _ _ | .sinter _ | .te _ | .target | .notice => m

/-- R387: the oldest waiting post enters its ring, which is checked (R403). -/
def postWaiting (k ring : Nat) (m : Mach) : Mach :=
  let c := coreAt m k
  let r := ringAt c ring
  match r.waiting with
  | [] => m
  | w :: rest =>
    if !ringOk r then ringBroken w.src k ring w.pc m
    else if ringRoom r then afterPost w.src (setCore k (setRing ring (takeEntry w.entry { r with waiting := rest }) c) m)
    else m

/-! ### The layer drain (R34, R295, R378, R396) -/

/-- A post of the core's own drains and transfers. -/
def ownPost (w : Post) : Bool := match w.src with | .drain _ _ | .te _ => true | _ => false

/-- No operation of the ending layer is in flight on the core; drains and transfers have their entries in their rings (R343). -/
def drainQuiet (c : Core) : Bool :=
  c.ops.isEmpty && c.mvs.isEmpty && c.drains.isEmpty && c.banks.list.all (fun b => !b.loading) &&
  c.queue.all (fun q => match q with | .xfer .. => false | .stream .. => true) &&
  c.rings.all (fun p => !p.2.waiting.any ownPost)

/-- R396: every fetch of the ending layer has landed. -/
def layerLanded (m : Mach) (c : Core) : Bool :=
  c.rings.all (fun p => match p.2.active with | some a => !ofLayer m c.ctx a.index (c.layer - 1) | none => true)

/-- The slots of the ending layer's streams that a ring holds, and how far its Tail goes past them. -/
def layerSlots (m : Mach) (i lay : Nat) (r : Ring) : Nat × Nat :=
  let mine := r.spans.filter (fun s => ofLayer m i s.1 lay && diff32 s.2.2 r.tail != 0 && decide (diff32 s.2.2 r.tail ≤ diff32 r.head r.tail))
  mine.foldl (fun acc s =>
    let e := diff32 s.2.2 r.tail
    (acc.1 + min (diff32 s.2.2 s.2.1) e, max acc.2 e)) (0, 0)

/-- R396 on one ring: its slots of the layer, acquired or not, are released: their number, the ring. -/
def drainRing (m : Mach) (i lay : Nat) (r : Ring) : Nat × Ring :=
  let (own, stop) := layerSlots m i lay r
  let t := (r.tail + stop) % 2 ^ 32
  let r1 := if stop == 0 then r else { r with tail := t, tailC := cpl 32 t, racq := if diff32 r.racq r.tail < stop then t else r.racq }
  (own, { r1 with spans := r.spans.filter (fun s => !ofLayer m i s.1 lay) })

/-- A ring with slots to release whose counts or descriptor fail their complements (R403). -/
def brokenRing (m : Mach) (c : Core) : Option Nat :=
  (c.rings.find? (fun p => p.2.spans.any (fun s => ofLayer m c.ctx s.1 (c.layer - 1)) && !ringOk p.2)).map Prod.fst

/-- R378: layers that a core disables. The limits are those that the context held before the step's first pass (18 R594). -/
def predictorEval (k : Nat) (m : Mach) : Mach :=
  let c := coreAt m k
  let x := ctxAt m c.ctx
  let off := (List.range 64).filter (fun l =>
    !c.layersOff.contains l && decide (x.predAudits ≤ c.audits.get l 0) &&
    decide (x.predMiss * c.audits.get l 0 < c.misses.get l 0 * 65536))
  if off.isEmpty then m
  else countN 0x6200 0x2A off.length (modCore k (fun c => { c with layersOff := c.layersOff ++ off })
    (modCtx c.ctx (fun x => { x with layersOff := dedupKeep (x.layersOff ++ off) }) m))

/-- The fetches that the slots a layer drain released make room for. -/
def refill (k : Nat) (m : Mach) : Mach := (coreAt m k).rings.foldl (fun m p => issueFetches k p.1 m) m

/-- R34, R265, R396, R378: the layer drain of a core completes, all but the transfer entries that it fires. -/
def layerDrain (k : Nat) (m : Mach) : Mach :=
  let c := coreAt m k
  let lay := c.layer - 1
  let rs := c.rings.map (fun p => (p.1, drainRing m c.ctx lay p.2))
  let rel := rs.foldl (fun a p => a + p.2.1) 0
  let c1 := resetArrays { c with rings := rs.map (fun p => (p.1, p.2.2)), st := .running }
  refill k (predictorEval k (countN 0x6800 0x05 rel (setCore k c1 m)))

/-! ### Meanings -/

/-- BUNDLE_ISSUE (R269). -/
def execBundleIssue (core : Nat) (s : State) : Host.Outcome State Fault Refusal := .next (onM (bundleIssue core) s)

/-- LOOP_END (R287). -/
def execLoopEnd (core : Nat) (s : State) : Host.Outcome State Fault Refusal := .next (onM (loopEnded core) s)

/-- WEIGHT_LOAD_READY (R243). -/
def execWeightLoadReady (core arr bank : Nat) (s : State) : Host.Outcome State Fault Refusal :=
  .next (onM (weightReady core arr bank) s)

/-- MATRIX_OP_RETIRE (R250). -/
def execMatrixOpRetire (core arr : Nat) (s : State) : Host.Outcome State Fault Refusal := .next (onM (matrixRetire core arr) s)

/-- MV_RUN_RETIRE (R259). -/
def execMvRunRetire (core : Nat) (s : State) : Host.Outcome State Fault Refusal := .next (onM (mvRetire core) s)

/-- DRAIN_COMPLETE (R341, R342). -/
def execDrainComplete (core : Nat) (s : State) : Host.Outcome State Fault Refusal := .next (onM (drainDone core) s)

/-- XFER_COMPLETE (R303). -/
def execXferComplete (core : Nat) (s : State) : Host.Outcome State Fault Refusal := .next (onM (xferDone core) s)

/-- STREAM_START (R394). -/
def execStreamStart (core ring : Nat) (s : State) : Host.Outcome State Fault Refusal := .next (onM (streamBegin core ring) s)

/-- STREAM_SLOT_COMMIT (R393). -/
def execStreamSlotCommit (core ring : Nat) (s : State) : Host.Outcome State Fault Refusal := .next (onM (slotCommit core ring) s)

/-- COMPLETION_POST (R387). -/
def execCompletionPost (core ring : Nat) (s : State) : Host.Outcome State Fault Refusal := .next (onM (postWaiting core ring) s)

end Sys2Proof.Machine
end

