-- ==== Sys2Proof/Machine/Tables.lean ====
section
/-!
DEFINITION. Tables under change (05): publishing a version (R182, R183), refresh plans (R192 to R196), HOT copies, ash
scans (R203), and what each part of a quench does to a table (R185, R187, R190, R191, R194, R195, R199, R200).
-/

namespace Sys2Proof.Machine

/-! ### Publishing -/

/-- Live versions of a table (R185). -/
def liveVersions (t : Table) : List Pair := t.cur.toList ++ t.pend.toList ++ t.old.toList

/-- Tables with a live version. -/
def liveTables (m : Mach) : List (Nat × Table) := m.tables.filter (fun p => !(liveVersions p.2).isEmpty)

/-- A span from a VA on lies in one object of a class that the context owns. -/
def ownSpan (m : Mach) (i cls va n : Nat) : Bool :=
  match objHolding m.mem va n with
  | some v => oClass v == cls && oCtx v == i
  | none => false

/-- R178: the hot directory and its areas lie in SCRATCH objects with room for what they name. -/
def hotFits (m : Mach) (i d : Nat) : Bool :=
  ownSpan m i 5 (tdHot d) 4096 &&
  (match hotHeader m d with
    | .ok (l, areas, counts) =>
      decide (10 ≤ l) && decide (l ≤ 30) && ownSpan m i 5 (tdHot d) (4096 + 32 * 2 ^ l) &&
      [1, 2, 3].all (fun cls =>
        let n := counts.getD (cls - 1) 0
        n == 0 || ownSpan m i 5 (areas.getD (cls - 1) 0) (n * rowBytesOf cls (tdWidth d)))
    | .error _ => false)

/-- Octets of an ash object (R202). -/
def ashBytes (d : Nat) : Nat :=
  2 ^ tdAshLog d * (2 * rowBytesOf 4 (tdWidth d) + a64 (4 * tdWidth d) + 4)

/-- R181, R182: the fields of a version. -/
def publishFields (m : Mach) (id d : Nat) : Bool :=
  let i := tdCtx d
  let t := tabAt m id
  let w := tdWidth d
  tdId d == id && fld d 182 0 == 0 && decide (16 ≤ w) && decide (w ≤ 4096) && w % 16 == 0 && tdCache d != 3 && tdAsh d != 3 &&
  (if tdAsh d == 2 then decide (10 ≤ tdAshLog d) && decide (tdAshLog d ≤ 20) else tdAshLog d == 0 && tdAshVa d == 0) &&
  (tdCache d == 2 || tdHot d == 0) && (tdCounted d || tdSnap d == 0) && (tdCache d == 1 || tdCaldera d == 0) &&
  (tdCounted d || tdCache d == 0) &&
  tdVersion d == (match t.cur with | some p => (tdVersion p.v + 1) % 2 ^ 32 | none => 1) && (t.cur.isSome || t.pend.isNone) &&
  (match objById m.mem id with | some v => oClass v == 2 && oCtx v == i | none => false) &&
  ownSpan m i 5 (tdPart d) 131072 && (tdCache d != 2 || hotFits m i d) &&
  (tdAsh d != 2 || ownSpan m i 5 (tdAshVa d) (ashBytes d)) &&
  (!tdCounted d || ownSpan m i 5 (tdSnap d) (64 + 16 * 524288)) &&
  (tdGraph d == 0 || (match objById m.mem (tdGraph d) with
    | some v => oClass v == 3 && (oCtx v == i || oShared v)
    | none => false))

/-- Frames and slots of the caldera that a table's live versions claim. -/
def calderaClaim (t : Table) : Nat × Nat :=
  (liveVersions t).foldl (fun a p => if tdCache p.v == 1 then (max a.1 (tdCaldera p.v), max a.2 (16 * calderaSets p.v)) else a) (0, 0)

/-- R182: the limits on tables, Counted tables and caldera claims. -/
def publishLimits (m : Mach) (id d : Nat) : Bool :=
  let others := (liveTables m).filter (fun p => p.1 != id)
  let counted := others.filter (fun p => (liveVersions p.2).any (fun v => tdCounted v.v))
  let mine := calderaClaim { tabAt m id with pend := some (mkPair 512 d) }
  let sum := others.foldl (fun (a : Nat × Nat) p => let c := calderaClaim p.2; (a.1 + c.1, a.2 + c.2)) mine
  decide (others.length < 256) && (!tdCounted d || decide (counted.length < 128)) &&
  (tdCache d != 1 || (decide (sum.1 ≤ dnum m 0x4100 0x03) && decide (sum.2 ≤ 16777216)))

/-- R182: a publish is accepted as pending, or refused with the first abort that applies. -/
def publishTable (v : List Byte) (m : Mach) : Except Nat Mach :=
  let id := octs v 0 2
  let d := octs v 2 64
  let t := tabAt m id
  let c := ctxAt m (tdCtx d)
  if decide ((liveVersions t).length ≥ 2) then .error 0x06200001
  else if (if c.st == .run then decide (tdEff d ≤ c.step) else decide (tdEff d < c.step)) then .error 0x06200002
  else if !publishFields m id d then .error 0x06200003
  else if !publishLimits m id d then .error 0x06200004
  else .ok (setTab id { t with pend := some (mkPair 512 d) } m)

/-- The checks that a refused publish met in the structures it names (R49, R53, R205). -/
def publishFaults (v : List Byte) (m : Mach) : Mach :=
  let d := octs v 2 64
  let i := tdCtx d
  let m1 := (if tdPart d == 0 then m else spanCheck i (tdPart d) 131072 m)
  let m2 := [(tdHot d, 4096), (tdAshVa d, 1), (tdSnap d, 1)].foldl (fun m s => if s.1 == 0 then m else spanCheck i s.1 s.2 m) m1
  if tdCache d != 2 then m2
  else match hotHeader m d with
    | .error c => if c == 0x0602 || c == 0x10602 then gsFault c i m2 else m2
    | .ok _ => m2

/-- TABLE_PUBLISH: the machine after it, and its abort or 0. -/
def tablePublish (v : List Byte) (m : Mach) : Mach × Nat :=
  match publishTable v m with
  | .ok m1 => (m1, 0)
  | .error e => (if e == 0x06200003 then publishFaults v m else m, e)

/-! ### Refresh plans -/

/-- The valid entries of a hot directory as (index, class, key, slot). -/
def hotEntries (m : Mach) (d l : Nat) : Sr (List (Nat × Nat × Nat × Nat)) := do
  let es ← (List.range (2 ^ l)).mapM (fun h => do
    let e ← hotEntry m d h
    return (h, e))
  return es.filterMap (fun x => if x.2.1 then some (x.1, x.2.2) else none)

/-- The tail class and slot of a key's group, if the key is a row that the device holds. -/
def tailRow (m : Mach) (d key : Nat) : Sr (Nat × Nat) := do
  let (dir, rows) ← partEntry m d (keyPart (tdEdge d) key)
  if dir == 0 || decide (rows ≤ keyLocal (tdEdge d) key) then .error 0x0506
  else groupEntry m dir (keyLocal (tdEdge d) key / 4096)

def tailOf (m : Mach) (d key : Nat) : Option (Nat × Nat) := (tailRow m d key).toOption

/-- The group of a key: partition and group number. -/
def keyGroup (d key : Nat) : Nat × Nat := (keyPart (tdEdge d) key, keyLocal (tdEdge d) key / 4096)

/-- R192: reads a plan: header and entries. -/
def readPlan (m : Mach) (va : Nat) : Option (List Byte × List PlanEnt) :=
  if readCheck m.mem va 64 != 0 then none
  else
    let h := vget m.mem va 64
    let n := octs h 4 4
    if decide (n > 1048576) || readCheck m.mem (va + 64) (32 * n) != 0 then none
    else
      let es := (List.range n).map (fun k =>
        let b := vget m.mem (va + 64 + 32 * k) 32
        ({ key := octs b 0 8, action := octs b 8 1, cls := octs b 9 1, newSlot := octs b 16 8,
           slot := if zeroOcts b 10 6 && zeroOcts b 24 8 then 0 else 1 } : PlanEnt))
      if es.any (fun e => e.slot != 0) then none else some (h, es)

/-- Keys strictly rising. -/
def risingKeys : List PlanEnt → Bool
  | a :: b :: r => decide (a.key < b.key) && risingKeys (b :: r)
  | _ => true

/-- A context's RefreshSteps, taken when its job loaded (R191). -/
def refreshSteps (m : Mach) (c : Ctx) : Nat := dlat m c 0x4100 0x08

/-- R192, R193: the fields of a plan by themselves. -/
def planShape (m : Mach) (id : Nat) (h : List Byte) (es : List PlanEnt) : Bool :=
  octs h 0 2 == 1 && octs h 2 2 == id && zeroOcts h 20 44 && risingKeys es &&
  decide ((es.filter (fun e => e.action == 3)).length ≤ dnum m 0x4100 0x0C) &&
  es.all (fun e =>
    match e.action with
      | 1 => decide (1 ≤ e.cls) && decide (e.cls ≤ 3) && e.newSlot == 0
      | 2 => e.cls == 0 && e.newSlot == 0
      | 3 => decide (1 ≤ e.cls) && decide (e.cls ≤ 4) && e.newSlot % 8 == 0
      | _ => false)

/-- R192, R193: a plan's entries against the table's current version. -/
def planFits (m : Mach) (id d : Nat) (es : List PlanEnt) (hot : List (Nat × Nat × Nat × Nat)) : Bool :=
  let groups := es.filter (fun e => e.action == 3)
  let tailAfter (k : Nat) : Option Nat :=
    match (groups.filter (fun g => keyGroup d g.key == keyGroup d k)).getLast? with
    | some g => some g.cls
    | none => (tailOf m d k).map Prod.fst
  let named (k : Nat) : Bool := es.any (fun e => e.key == k && e.action != 3)
  es.all (fun e =>
    (tailOf m d e.key).isSome &&
    (match e.action with
      | 1 => (match tailAfter e.key with | some t => decide (e.cls ≤ t) | none => false)
      | 2 => hot.any (fun x => x.2.2.1 == e.key)
      | _ => (match objHolding m.mem e.newSlot (4096 * rowBytesOf e.cls (tdWidth d)) with
          | some v => oId v == id
          | none => false))) &&
  hot.all (fun x => named x.2.2.1 || (match tailAfter x.2.2.1 with | some t => decide (x.2.1 ≤ t) | none => true))

/-- R194: gives every HOT entry the lowest free index of its class's area; none where an area lacks slots. -/
def assignSlots (counts : List Nat) : List PlanEnt → List (Nat × Nat) → Option (List PlanEnt)
  | [], _ => some []
  | e :: r, used =>
    if e.action != 1 then (assignSlots counts r used).map (e :: ·)
    else
      let taken := (used.filter (fun u => u.1 == e.cls)).map Prod.snd
      let s := firstFree taken
      if decide (s ≥ counts.getD (e.cls - 1) 0) then none
      else (assignSlots counts r ((e.cls, s) :: used)).map ({ e with slot := s } :: ·)

/-- The hot directory of a version as a post or a Q4 finds it: EntriesLog2, slot counts, valid entries. -/
def hotSet (m : Mach) (d : Nat) : Sr (Nat × List Nat × List (Nat × Nat × Nat × Nat)) :=
  if tdCache d != 2 then .ok (0, [], [])
  else do
    let (l, _, counts) ← hotHeader m d
    return (l, counts, ← hotEntries m d l)

/-- The context that owns a table's root. -/
def rootCtx (m : Mach) (id : Nat) : Nat := match objById m.mem id with | some v => oCtx v | none => 16

/-- A plan for a snapshot (its n and Version), as it is accepted; one that names a version which is no longer current has no actions
(R187, log entry 96). -/
def planFor (n ver : Nat) (d : Nat) (es : List PlanEnt) : Option Plan := if ver == tdVersion d then some ⟨n, es⟩ else none

/-- R192, R193: a plan is accepted or refused with the first abort that applies. A table without a current version has no row that an
EVICT could name, and no snapshot that awaits a plan. -/
def postPlan (v : List Byte) (m : Mach) : Except Nat Mach :=
  let id := octs v 0 2
  let t := tabAt m id
  match readPlan m (octs v 8 8) with
  | none => .error 0x06200005
  | some (h, es) =>
    if !zeroOcts v 2 6 || !planShape m id h es || !ownSpan m (rootCtx m id) 5 (octs v 8 8) (64 + 32 * es.length) then .error 0x06200005
    else match t.cur with
    | none => .error (if es.any (fun e => e.action == 2) then 0x06200005 else 0x06200007)
    | some p =>
      let d := p.v
      if !pairOk 512 p.v p.c then .error 0x06200005
      else match hotSet m d with
      | .error _ => .error 0x06200005
      | .ok (l, counts, hot) =>
        let keyed := es.filter (fun e => e.action == 1 && !hot.any (fun x => x.2.2.1 == e.key))
        let gone := es.filter (fun e => e.action == 2)
        if !planFits m id d es hot then .error 0x06200005
        else match (if tdCache d == 2 then assignSlots counts es (hot.map (fun x => (x.2.1, x.2.2.2))) else some es) with
          | none => .error 0x06200006
          | some es1 =>
            if tdCache d == 2 && decide (2 * (hot.length + keyed.length - gone.length) > 2 ^ l) then .error 0x06200006
            else if t.awaiting != some (octs h 8 8, octs h 16 4) || (tdCache d != 2 && es.any (fun e => e.action != 3)) then
              .error 0x06200007
            else .ok (setTab id { t with awaiting := none, plan := planFor (octs h 8 8) (octs h 16 4) d es1 } m)

/-- The check failures that a post meets in what it reads: the plan's pages, the version's descriptor, its directories (R49, R53,
R205). -/
def postFaults (v : List Byte) (m0 : Mach) : Mach :=
  let m := spanCheck (rootCtx m0 (octs v 0 2)) (octs v 8 8) (64 + 32 * (if readCheck m0.mem (octs v 8 8) 64 == 0 then vnum m0.mem (octs v 8 8 + 4) 4 else 0)) m0
  match (tabAt m (octs v 0 2)).cur, readPlan m (octs v 8 8) with
  | some p, some (_, es) =>
    if !pairOk 512 p.v p.c then gsFault 0x0602 (tdCtx p.v) m else
    let code (r : Nat) : Bool := r == 0x0602 || r == 0x10602
    let fails := (match hotSet m p.v with | .error c => [c] | .ok _ => []) ++
      es.filterMap (fun e => match tailRow m p.v e.key with | .error c => some c | .ok _ => none)
    match fails.find? code with
    | some c => gsFault c (tdCtx p.v) m
    | none => m
  | _, _ => m


/-- The current place of a row: class and VA (R179 over the current version). -/
def rowPlace (m : Mach) (d key : Nat) : Sr (Nat × Nat) := do
  match ← resolveRow m (ctxAt m (tdCtx d)) d key with
  | .here cls va _ => return (cls, va)
  | .there _ => .error 0x0506

/-- R174: re-encodes a row from one place into another under a step key, as Q1 writes (R75). -/
def reencode (d key fromCls fromVa toCls toVa stepKey : Nat) (m : Mach) : Mach :=
  let i := tdCtx d
  let n := rowBytesOf fromCls (tdWidth d)
  let f := readCheck m.mem fromVa n
  if f != 0 then memFault f i m
  else
    let xs := decodeRow fromCls (tdWidth d) (tdElem d) (vget m.mem fromVa n)
    putQ1 i toVa (encodeRow toCls (tdElem d) (srKeyTable (ctxAt m i).seed stepKey key (tdId d)) xs) (onMem (vtouch fromVa n) m)

/-- R195: copies a HOT entry's row into its new slot. -/
def copyHot (d stepKey : Nat) (e : PlanEnt) (m : Mach) : Mach :=
  match (do return (← rowPlace m d e.key, ← hotHeader m d)) with
  | .ok ((cls, va), _, areas, _) => reencode d e.key cls va e.cls (hotVa areas (tdWidth d) e.cls e.slot) stepKey m
  | .error c => gsFault c (tdCtx d) m

/-- The step key of a plan (R195): n + R. -/
def planKey (m : Mach) (d : Nat) (p : Plan) : Nat := p.n + refreshSteps m (ctxAt m (tdCtx d))

/-- Marks the first HOT entry of a slot that is not yet copied. -/
def markCopied (slot : Nat) : List PlanEnt → List PlanEnt
  | [] => []
  | e :: r => if e.action == 1 && e.slot == slot && !e.copied then { e with copied := true } :: r else e :: markCopied slot r

/-- What reading a row takes: the structures that resolve its key, and its octets (R176 to R179). -/
def rowReads (m : Mach) (d key : Nat) : List (Nat × Nat) :=
  resolveSpans m d key ++ (match rowPlace m d key with | .ok (cls, va) => [(va, rowBytesOf cls (tdWidth d))] | .error _ => [])

/-- The migration engines' reads of spans that lie in lower tiers (R59); their octets are taken when the copy or the scan completes. -/
def fetchSpans (i : Nat) (who : Waiter) (spans : List (Nat × Nat)) (m : Mach) : Mach :=
  (lowSpans m.mem spans).foldl (fun m p =>
    sendTierRead i who p.1 p.2 (pageTier m.mem p.1).1 (pageTier m.mem p.1).2 none m) m

/-- The HOT copies of a table that are not complete read their rows: with the post of their plan, and anew in every pass, for answers of
an earlier step or replay are discarded (R60, R195, R196). -/
def startHot (id : Nat) (m : Mach) : Mach :=
  match (tabAt m id).cur, (tabAt m id).plan with
  | some p, some pl => (pl.entries.filter (fun e => e.action == 1 && !e.copied && !e.fetched)).foldl (fun m e =>
      fetchSpans (tdCtx p.v) (.hot id e.slot) (rowReads m p.v e.key) m) m
  | _, _ => m

/-- REFRESH_POST: the machine after it, and its abort or 0. -/
def refreshPost (v : List Byte) (m : Mach) : Mach × Nat :=
  match postPlan v m with
  | .ok m1 => (startHot (octs v 0 2) m1, 0)
  | .error e => (postFaults v m, e)

/-- A HOT copy has its row: read from a lower tier, or in HBM. -/
def hotReady (m : Mach) (d : Nat) (e : PlanEnt) : Bool := e.fetched || (lowSpans m.mem (rowReads m d e.key)).isEmpty

/-- R195: a HOT row's copy into its slot completes. -/
def hotCopied (id slot : Nat) (m : Mach) : Mach :=
  let t := tabAt m id
  match t.cur, t.plan with
  | some p, some pl =>
    match pl.entries.find? (fun e => e.action == 1 && e.slot == slot && !e.copied) with
    | none => m
    | some e =>
      if !pairOk 512 p.v p.c then gsFault 0x0602 (tdCtx p.v) m
      else if !hotReady m p.v e then m
      else modTab id (fun t => { t with plan := some { pl with entries := markCopied slot pl.entries } }) (copyHot p.v (planKey m p.v pl) e m)
  | _, _ => m

/-! ### Ash scans (R203) -/

/-- The rows that the device owns, in scan order: partition, group, row. -/
def ownedKeys (m : Mach) (d : Nat) : Sr (List Nat) := do
  let parts ← (List.range 4096).mapM (fun p => do
    let (dir, rows) ← partEntry m d p
    return if dir == 0 then [] else (List.range rows).map (fun i => p * (if tdEdge d then 2 ^ 48 else 2 ^ 36) + i))
  return parts.flatten

/-- Adds a row into its slot's sum and count, which are clear before its first (R203). -/
def ashAdd (d key : Nat) (xs : List Nat) (acc : SMap (List Nat × Nat)) : SMap (List Nat × Nat) :=
  let (s, n) := acc.get (ashSlot d key) (List.replicate xs.length 0, 0)
  acc.put (ashSlot d key) ((s.zip xs).map (fun y => F32.addC .rne false y.1 y.2), n + 1)

/-- The sums and counts of the slots, rows added in scan order. -/
def ashSums (m : Mach) (d : Nat) : Sr (SMap (List Nat × Nat)) := do
  (← ownedKeys m d).foldlM (fun acc k => do
    let (cls, va) ← rowPlace m d k
    return ashAdd d k (decodeRow cls (tdWidth d) (tdElem d) (vget m.mem va (rowBytesOf cls (tdWidth d)))) acc) []

/-- The VA of the scan sums and of the scan counts (R202). -/
def ashSumVa (d slot : Nat) : Nat := ashVa d 2 0 + slot * a64 (4 * tdWidth d)
def ashCountVa (d slot : Nat) : Nat := ashSumVa d (2 ^ tdAshLog d) + 4 * slot

/-- A slot's mean: sum by count, rounded once (R203). -/
def ashMean (sum : List Nat) (n : Nat) : List Nat := sum.map (fun x => F32.divV .rne (F32.decode x) (ofInt n))

/-- What a scan reads (R203). -/
def scanReads (m : Mach) (d : Nat) : List (Nat × Nat) :=
  match ownedKeys m d with
  | .ok ks => ks.flatMap (rowReads m d)
  | .error _ => []

/-- A scan reads its rows of lower tiers in each pass until they have all answered (R59, R60, R203). -/
def startScan (id : Nat) (m : Mach) : Mach :=
  match (tabAt m id).cur with
  | some p => if (tabAt m id).scanning && !(tabAt m id).scanRead then fetchSpans (tdCtx p.v) (.scan id) (scanReads m p.v) m else m
  | none => m

/-- Accesses of the engines that work in the background: translations, and access flags (R65; log entry 95). -/
def homeAccess (spans : List (Nat × Nat)) (m : Mach) : Mach :=
  spans.foldl (fun m s => onMem (vtouch s.1 s.2) (homeXlate s.1 s.2 m)) m

/-- R203: a scan completes: means into the inactive bank; a slot that no row fell into becomes the zero row (R174). An ash slot has no
node or edge ID to key the draws of the encode: DESIGN CHOICE, the slot number takes its place (log entry 96). -/
def ashScanned (id : Nat) (m0 : Mach) : Mach :=
  let t := tabAt m0 id
  match t.cur with
  | none => m0
  | some p =>
    let d := p.v
    if !t.scanning || tdAsh d != 2 || !(t.scanRead || (lowSpans m0.mem (scanReads m0 d)).isEmpty) then m0
    else if !pairOk 512 p.v p.c then gsFault 0x0602 (tdCtx d) m0
    else
    let m := homeAccess (scanReads m0 d) m0
    match ashSums m d with
    | .error e => gsFault e (tdCtx d) m
    | .ok sums =>
      let c := ctxAt m (tdCtx d)
      let row (s : Nat) (xs : List Nat) : List Byte := encodeRow 4 (tdElem d) (srKeyTable c.seed c.step s id) xs
      let m1 := onMem (fun mm => (List.range (2 ^ tdAshLog d)).foldl (fun mm s =>
        match sums.find s with
        | none => vput (ashVa d (1 - t.bank) s) (row s (List.replicate (tdWidth d) 0)) mm
        | some (sum, k) =>
          vput (ashCountVa d s) (leBytes 4 k) (vput (ashSumVa d s) (sum.flatMap (leBytes 4))
            (vput (ashVa d (1 - t.bank) s) (row s (ashMean sum k)) mm))) mm) m
      count 0x6600 0x0D (setTab id { t with scanning := false, scanRead := false, scanned := true, swap := true } m1)

/-! ### The parts of a quench -/

/-- A version's descriptor names a context, in its value or, where the two differ, in its complement. -/
def versionOf (i : Nat) (v : Pair) : Bool := tdCtx v.v == i || (!pairOk 512 v.v v.c && tdCtx (cpl 512 v.c) == i)

/-- The tables of a context: those whose current or pending version it owns. -/
def tablesOf (m : Mach) (i : Nat) : List Nat :=
  (m.tables.filter (fun p => (p.2.cur.toList ++ p.2.pend.toList).any (versionOf i))).map Prod.fst

/-- R205, R508: a version's descriptor is compared with its complement at each use: one that fails is not used. -/
def withVersion (i : Nat) (p : Pair) (f : Mach → Mach) (m : Mach) : Mach :=
  if pairOk 512 p.v p.c then f m else gsFault 0x0602 i m

/-- The applying quench of a table's snapshot period ends this step (R194). -/
def appliesNow (m : Mach) (i : Nat) (n : Nat) : Bool :=
  let c := ctxAt m i
  c.step == n + refreshSteps m c

/-- A pending version becomes current at a Q4 whose next step is `next`: EffectiveStep has come (R183). -/
def switchNow (t : Table) (next : Nat) : Bool := match t.pend with | some p => decide (tdEff p.v ≤ next) | none => false

/-- A quench of the context makes a new version current: the plan of the old one is skipped (R187). -/
def skipsPlan (m : Mach) (i : Nat) (t : Table) : Bool := switchNow t ((ctxAt m i).step + 1)

/-- R197: a table of the context whose snapshot still awaits its plan at its applying quench. -/
def planMissing (m : Mach) (i : Nat) : Bool :=
  (tablesOf m i).any (fun id => match (tabAt m id).awaiting with
    | some (n, _) => appliesNow m i n && !skipsPlan m i (tabAt m id)
    | none => false)

/-- R195, Q1: evicted rows into their tail slots, then groups into their new slots. Nothing where R187 skips it. -/
def planQ1 (i id : Nat) (m : Mach) : Mach :=
  let t := tabAt m id
  match t.cur, t.plan with
  | some p, some pl =>
    if !appliesNow m i pl.n || skipsPlan m i t then m
    else withVersion i p (fun m =>
      let d := p.v
      let key := planKey m d pl
      let m1 := (pl.entries.filter (fun e => e.action == 2)).foldl (fun m e =>
        match (do return (← rowPlace m d e.key, ← tailRow m d e.key)) with
        | .ok ((cls, va), tc, tv) =>
          reencode d e.key cls va tc (tv + keyLocal (tdEdge d) e.key % 4096 * rowBytesOf tc (tdWidth d)) key m
        | .error c => gsFault c i m) m
      (pl.entries.filter (fun e => e.action == 3)).foldl (fun m e =>
        match (do return (← tailRow m d e.key, ← partEntry m d (keyPart (tdEdge d) e.key))) with
        | .ok ((tc, tv), _, rows) =>
          let g := keyLocal (tdEdge d) e.key / 4096
          let base := e.key - keyLocal (tdEdge d) e.key % 4096
          (List.range (min 4096 (rows - g * 4096))).foldl (fun m r =>
            reencode d (base + r) tc (tv + r * rowBytesOf tc (tdWidth d)) e.cls (e.newSlot + r * rowBytesOf e.cls (tdWidth d)) key m) m
        | .error c => gsFault c i m) m1) m
  | _, _ => m

/-- R195: the applying quench's Q3.1 waits until every HOT copy is complete. -/
def copiesMissing (m : Mach) (i : Nat) : Bool :=
  (tablesOf m i).any (fun id =>
    let t := tabAt m id
    match t.plan with
    | some pl => appliesNow m i pl.n && !skipsPlan m i t && pl.entries.any (fun e => e.action == 1 && !e.copied)
    | none => false)

/-- The spans that a plan's copies, recopies and re-encodes read in a quench: the dirty rows of HOT entries; in the applying quench also
the rows of HOT entries that are not yet copied, of EVICT entries, and of GROUP groups (R195). -/
def planReads (m : Mach) (d : Nat) (applies : Bool) (pl : Plan) : List (Nat × Nat) :=
  pl.entries.flatMap (fun e =>
    if !(applies || (e.action == 1 && e.copied && e.dirty)) then []
    else if e.action == 3 then match (do return (← tailRow m d e.key, ← partEntry m d (keyPart (tdEdge d) e.key))) with
      | .ok ((tc, tv), _, rows) => [(tv, min 4096 (rows - keyLocal (tdEdge d) e.key / 4096 * 4096) * rowBytesOf tc (tdWidth d))]
      | .error _ => []
    else if e.action == 1 && e.copied && !e.dirty then []
    else match rowPlace m d e.key with
      | .ok (cls, va) => [(va, rowBytesOf cls (tdWidth d))]
      | .error _ => [])

/-- R205: a VA that a copy, recopy or re-encode of a plan reads while the context's quench is in Q1 or Q3. -/
def reencodeRead (m : Mach) (i va : Nat) : Bool :=
  let q := (ctxAt m i).pass.quench
  (ctxAt m i).pass.committed && (q == 1 || q == 2 || (q == 0 && (ctxAt m i).pass.planRead)) && (tablesOf m i).any (fun id =>
    let t := tabAt m id
    match t.cur, t.plan with
    | some p, some pl => !skipsPlan m i t &&
        (planReads m p.v (appliesNow m i pl.n) pl).any (fun s => decide (s.1 ≤ va) && decide (va < s.1 + s.2))
    | _, _ => false)

/-- R195, Q3.1: dirty rows under a HOT copy are copied again. Nothing where R187 skips it. -/
def planQ3 (i id : Nat) (m : Mach) : Mach :=
  let t := tabAt m id
  match t.cur, t.plan with
  | some p, some pl =>
    let dirty := pl.entries.filter (fun e => e.action == 1 && e.copied && e.dirty)
    if skipsPlan m i t || dirty.isEmpty then m
    else withVersion i p (fun m =>
      let m1 := dirty.foldl (fun m e => count 0x6600 0x09 (copyHot p.v (planKey m p.v pl) e m)) m
      modTab id (fun t => { t with plan := some { pl with entries := pl.entries.map (fun e =>
        if e.action == 1 && e.copied then { e with dirty := false } else e) } }) m1) m
  | _, _ => m

/-- Writes a hot directory entry. -/
def putHot (d h valid cls key slot : Nat) (m : Mach) : Mach :=
  let v := leBytes 8 (valid * 2 ^ 63 + cls * 2 ^ 60 + key) ++ leBytes 4 slot ++ leBytes 4 0
  onMem (vput (tdHot d + 4096 + 32 * h) (if valid == 1 then withCpl v else withCpl (List.replicate 16 0))) m

/-- The first free index of a probe over the taken ones. -/
def probeFree (taken : List Nat) (l : Nat) : Nat → Nat → Nat
  | 0, h => h
  | n + 1, h => if taken.contains h then probeFree taken l n ((h + 1) % 2 ^ l) else h

/-- Writes the hot directory anew: the rows of a list, in order, by linear probing (R178, R179). -/
def writeHot (d l : Nat) (old : List Nat) (rows : List (Nat × Nat × Nat)) (m : Mach) : Mach :=
  let placed := rows.foldl (fun (acc : List (Nat × Nat × Nat × Nat)) x =>
    acc ++ [(probeFree (acc.map Prod.fst) l (2 ^ l) (hotStart d x.2.1 l), x)]) []
  let m1 := (old.filter (fun h => !placed.any (fun x => x.1 == h))).foldl (fun m h => putHot d h 0 0 0 0 m) m
  placed.foldl (fun m x => putHot d x.1 1 x.2.1 x.2.2.1 x.2.2.2 m) m1

/-- R441: the layout of a shard that a transfer entry names changes. -/
def layoutChanged (i id : Nat) (m0 : Mach) : Mach :=
  let m := if entriesOk m0 i then m0 else ctxError 0x0B07 i m0
  if isShard (ctxAt m i) id then
    { m with shards := m.shards.put id (mkPair 32 (((shardOf m id).1.v + 1) % 2 ^ 32), (shardOf m id).2) }
  else m

/-- R195, Q4: writes the directories and ends the plan; cached rows of re-encoded groups are dropped (R200). -/
def planQ4 (i id : Nat) (m : Mach) : Mach :=
  let t := tabAt m id
  match t.cur, t.plan with
  | some p, some pl =>
    if !appliesNow m i pl.n || skipsPlan m i t then m
    else withVersion i p (fun m =>
      let d := p.v
      let hots := pl.entries.filter (fun e => e.action == 1)
      let gone := pl.entries.filter (fun e => e.action != 3)
      let groups := pl.entries.filter (fun e => e.action == 3)
      let m1 := if tdCache d == 2 && !gone.isEmpty then
          match hotSet m d with
          | .ok (l, _, hot) =>
            let keep := hot.filter (fun x => !gone.any (fun e => e.key == x.2.2.1))
            writeHot d l (hot.map Prod.fst) (keep.map (fun x => x.2) ++ hots.map (fun e => (e.cls, e.key, e.slot))) m
          | .error c => gsFault c i m
        else m
      let m2 := groups.foldl (fun m e =>
        match partEntry m d (keyPart (tdEdge d) e.key) with
        | .ok (dir, _) => onMem (vput (dir + 16 * (keyLocal (tdEdge d) e.key / 4096)) (withCpl (leBytes 8 (e.cls * 2 ^ 61 + e.newSlot % 2 ^ 56)))) m
        | .error c => gsFault c i m) m1
      let m2 := if groups.isEmpty then m2 else layoutChanged i id m2
      let inGroup (k : Nat) : Bool := groups.any (fun e => keyGroup d e.key == keyGroup d k)
      let m3 := modTab id (fun t => { t with plan := none, ways := t.ways.filter (fun w => !inGroup w.2.key) }) m2
      countN 0x6600 0x06 hots.length (countN 0x6600 0x07 (gone.length - hots.length) (countN 0x6600 0x08 groups.length m3))) m
  | _, _ => m

/-- R183, R185, R187: a pending version becomes current. The old one lives while a context whose step reads it has not completed that
step's quench. The ash bank and the snapshot that awaits a plan stay (R187 names neither; log entry 96). -/
def switchTable (i id next : Nat) (m : Mach) : Mach :=
  let t := tabAt m id
  if !switchNow t next then m
  else if !(t.pend.toList.all (fun p => pairOk 512 p.v p.c)) then gsFault 0x0602 i m
  else
    setTab id { t with
      cur := t.pend, pend := none, old := if t.readers.isEmpty then none else t.cur, readers := [], oldReaders := t.readers,
      saved := t.saved.map (fun x => (x.1, ([], []))), ways := [], sketch := [], frozen := [],
      log := [], plan := none, scanning := false, scanRead := false, scanned := false, swap := false, oldBank := t.bank }
      (layoutChanged i id (count 0x6600 0x0C m))

/-- R203: the banks swap, and the sums and counts clear. -/
def ashSwap (id : Nat) (m : Mach) : Mach :=
  let t := tabAt m id
  match t.cur with
  | some p =>
    if !t.swap then m
    else
      let d := p.v
      let n := 2 ^ tdAshLog d * (a64 (4 * tdWidth d) + 4)
      setTab id { t with swap := false, bank := 1 - t.bank } (onMem (fun mm => vput (ashSumVa d 0) (List.replicate n 0) mm) m)
  | none => m

/-- Q4 on a context's tables. -/
def tablesQ4 (i : Nat) (m : Mach) : Mach :=
  (tablesOf m i).foldl (fun m id => switchTable i id ((ctxAt m i).step + 1) (ashSwap id (planQ4 i id m))) m

/-- R183: the repeated Q4 before the next S of a context that is not in RUN. -/
def repeatQ4 (i : Nat) (m : Mach) : Mach :=
  (tablesOf m i).foldl (fun m id => switchTable i id (ctxAt m i).step m) m

/-- R191: the snapshot of a table at the end of step n. -/
def snapshotTable (d n : Nat) (t : Table) (m : Mach) : Mach :=
  let keys := sortBy (fun a b => decide (a ≤ b)) t.log
  let h := leBytes 2 1 ++ leBytes 2 (tdId d) ++ leBytes 4 keys.length ++ leBytes 8 n ++ leBytes 4 (tdVersion d) ++ List.replicate 44 0
  onMem (vput (tdSnap d) (h ++ keys.flatMap (fun k => leBytes 8 k ++ leBytes 2 (sketchEst t.sketch k) ++ List.replicate 6 0))) m

/-- Q5 on a table: snapshot (R191), frozen sketch (R190), ages of the caldera (R199), the start of an ash scan (R203). DESIGN CHOICE: a
RefreshSteps of 0, for which (n + 1) mod R has no meaning, takes no snapshot (log entry 96). -/
def tableQ5 (i id : Nat) (m : Mach) : Mach :=
  let t := tabAt m id
  match t.cur with
  | none => m
  | some p =>
    withVersion i p (fun m =>
    let d := p.v
    let n := (ctxAt m i).step
    let r := refreshSteps m (ctxAt m i)
    let snap := tdCounted d && r != 0 && (n + 1) % r == 0
    let m1 := if snap then snapshotTable d n t m else m
    let t1 := if snap then { t with sketch := [], frozen := [], log := [], awaiting := some (n, tdVersion d), plan := none }
      else if tdCounted d then { t with frozen := t.sketch } else t
    let t2 := { t1 with ways := t1.ways.map (fun w => (w.1, { w.2 with
      age := if w.2.hit then w.2.age else min 255 (w.2.age + 1), hit := false })) }
    let first := !t2.scanned && !t2.scanning
    let t3 := if tdAsh d == 2 && (first || (snap && !t2.scanning)) then { t2 with scanning := true, scanRead := false } else t2
    setTab id t3 m1) m

/-- A HOT copy that is not complete starts again (R196). -/
def refetch (t : Table) : Table :=
  { t with plan := t.plan.map (fun pl => { pl with entries := pl.entries.map (fun e => if e.copied then e else { e with fetched := false }) }) }

/-- R196, R190: a replay discard restarts the HOT copies under way and restores sketches and logs. -/
def tablesDiscard (i : Nat) (m : Mach) : Mach :=
  { m with tables := m.tables.map (fun p =>
      let t := if (p.2.cur.toList).any (versionOf i) then refetch p.2 else p.2
      match p.2.saved.find i with
      | some (sk, lg) => (p.1, { t with sketch := sk, log := lg })
      | none => (p.1, t)) }

/-- The reads of lower tiers by the HOT copies and scans of a context's tables, as its pass starts (R195, R203). -/
def startTableReads (i : Nat) (m : Mach) : Mach := (tablesOf m i).foldl (fun m id => startScan id (startHot id m)) m

/-- R184, R190: at S, the versions that a context's step reads, and the values a discard restores. -/
def tablesStart (i : Nat) (m : Mach) : Mach :=
  let mine (v : Nat) : Bool := tdCtx v == i || (match objById m.mem (tdId v) with | some o => oShared o | none => false)
  let snap := m.tables.foldl (fun (acc : SMap Pair) p => match p.2.cur with
    | some v => if mine v.v then acc.put (dkeyOf i p.1) v else acc
    | none => acc) (m.tabSnap.filter (fun x => x.1 / 65536 != i))
  { m with
    tabSnap := snap,
    tables := m.tables.map (fun p => match p.2.cur with
      | some v => if mine v.v then (p.1, { p.2 with
          readers := if p.2.readers.contains i then p.2.readers else p.2.readers ++ [i],
          saved := p.2.saved.put i (p.2.sketch, p.2.log) }) else p
      | none => p) }

/-- R185: a context's step no longer reads a table: an old version that no other step reads is live no more. -/
def readerGone (i : Nat) (t : Table) : Table :=
  let rs := t.oldReaders.filter (· != i)
  { t with readers := t.readers.filter (· != i), oldReaders := rs, saved := t.saved.del i, old := if rs.isEmpty then none else t.old }

/-- R185: a context has completed the quench of the step in which it read its tables. -/
def tablesEnd (i : Nat) (m : Mach) : Mach :=
  { m with
    tabSnap := m.tabSnap.filter (fun x => x.1 / 65536 != i),
    tables := m.tables.map (fun p => (p.1, readerGone i p.2)) }

/-- R197: the wait for a plan reaches its limit, unless the plan has been accepted. -/
def refreshLate (i : Nat) (m : Mach) : Mach :=
  let c := ctxAt m i
  if !c.pass.waitPlan || !planMissing m i then m
  else
    let m1 := timeTo (c.pass.planSince + dnum m 0x4100 0x09 * 10000) m
    failCtx i 0x0605 0x06 255 0 2 (modPass i (fun p => { p with waitPlan := false }) m1)

/-! ### Meanings -/

/-- HOT_COPY_COMPLETE (R195). -/
def execHotCopyComplete (table slot : Nat) (s : State) : Host.Outcome State Fault Refusal := .next (onM (hotCopied table slot) s)

/-- ASH_SCAN_COMPLETE (R203). -/
def execAshScanComplete (table : Nat) (s : State) : Host.Outcome State Fault Refusal := .next (onM (ashScanned table) s)

/-- REFRESH_WAIT_LIMIT (R197). -/
def execRefreshWaitLimit (ctx : Nat) (s : State) : Host.Outcome State Fault Refusal := .next (onM (refreshLate ctx) s)

end Sys2Proof.Machine
end

