-- ==== Sys2Proof/Machine/Repair.lean ====
section
/-!
DEFINITION. Memory errors and their paths (15 R509 to R512), page repair from a replica (15 R514 to R519), and the serving
of READs (15 R516).
-/

namespace Sys2Proof.Machine

/-- Sets the outcome of the record when a repair ends. -/
def errorOutcome (va outcome : Nat) (m : Mach) : Mach :=
  if octs m.lastDataError 0 8 == va then { m with lastDataError := m.lastDataError.set 13 (BitVec.ofNat 8 outcome) } else m

def repairAt (m : Mach) (i j : Nat) : Option Repair := (ctxAt m i).repairs[j]?
def modRepair (i j : Nat) (f : Repair → Repair) (m : Mach) : Mach := modCtx i (fun c => { c with repairs := c.repairs.modify j f }) m
def dropRepair (i j : Nat) (m : Mach) : Mach := modCtx i (fun c => { c with repairs := c.repairs.eraseIdx j }) m

/-- Sends the READ of one chunk of 16 units of 512 octets (R422, R515). -/
def askChunk (i j chunk : Nat) (m : Mach) : Mach :=
  match repairAt m i j with
  | none => m
  | some r =>
    let (tag, m1) := freshTag m
    let t := { mkTxn m1 (ctxAt m1 i) 0x01 r.peer (16 * 2 ^ 56 + r.page * 2 ^ 21 + chunk * 8192) (.raw []) with tag := tag }
    sendTxn t (modRepair i j (fun r => { r with asked := r.asked ++ [(tag, chunk)] }) m1)

/-- Asks for the next chunk while fewer than 32 READs are outstanding (R515). -/
def askNext (i j : Nat) (m : Mach) : Mach :=
  match repairAt m i j with
  | some r => if r.next < 256 && r.asked.length < 32 then
      askChunk i j r.next (modRepair i j (fun r => { r with next := r.next + 1 }) m) else m
  | none => m

def askMore (i j : Nat) (m : Mach) : Mach := iter 32 (askNext i j) m

/-- Begins the repair, or goes on with it at the other peer: RepairTimeout counts from its first beginning (R514, R515, R517). -/
def beginRepair (i j : Nat) (m : Mach) : Mach :=
  askMore i j (modRepair i j (fun r => { r with started := true, since10 := if r.usedOther then r.since10 else m.dev.time10 }) m)

/-- R518: the repairs of a context that may begin now: those before commit at once, those after commit once the device
holds the next BEGIN from the repair peer. -/
def startRepairs (i : Nat) (m : Mach) : Mach :=
  (List.range (ctxAt m i).repairs.length).foldl (fun m j =>
    match repairAt m i j with
    | some r =>
      let c := ctxAt m i
      let held := !c.pass.committed && c.pass.begins.any (fun b => b.coord == r.peer && b.step == c.step && b.replay == c.replay % 65536)
      if !r.started && (!r.after || held) then beginRepair i j m else m
    | none => m) m

/-- R519: a repair fails. -/
def repairFailed (i j : Nat) (m : Mach) : Mach :=
  match repairAt m i j with
  | some r => failCtx i 0 0x04 255 r.va (if afterCommit (ctxAt m i) then 2 else 0) (recStat 3 (errorOutcome r.va 4 (dropRepair i j m)))
  | none => m

/-- R514, R515: the whole repair moves to the other peer, whose next BEGIN one after commit awaits (R518), or fails. -/
def otherPeer (i j : Nat) (m : Mach) : Mach :=
  match repairAt m i j with
  | some r =>
    if r.usedOther then repairFailed i j m
    else startRepairs i (modRepair i j (fun r => { r with
      peer := r.other, usedOther := true, started := false, asked := [], next := 0, retried := [], data := [] }) m)
  | none => m

/-- A page of a REPLICATED object needs repair (R514): the plus neighbour on the data-parallel axis is the peer. -/
def addRepair (i va : Nat) (after : Bool) (m : Mach) : Mach :=
  let c := ctxAt m i
  let n := cutSize m c 0
  let r := cutRank m c 0
  if c.repairs.any (fun x => x.page == vpnOf va) then m
  else startRepairs i (modCtx i (fun c => { c with repairs := c.repairs ++ [{
    page := vpnOf va, peer := cutPeer m c 0 ((r + 1) % n), other := cutPeer m c 0 ((r + n - 1) % n), after := after, va := va }] }) m)

/-- R532: the record of a memory error for which the list has no outcome: nothing has to be done, or a repair has not ended. The octet is a
free value (log entry 91). -/
def dataErrorOpen (i va obj cls source stack frame : Nat) (m : Mach) : Mach :=
  let (o, m1) := freshFree m
  dataError i va obj cls source stack (o % 256) frame m1

/-- R512: a memory error of an object whose content it does not rebuild, or of one that it does, with the code that the unit raises or 0.
One in octets that a plan's copy or re-encode reads in Q1 or Q3 is TBL_REENCODE_ERROR (R205). -/
def objectError (code source va stack v : Nat) (m : Mach) : Mach :=
  let i := oCtx v
  let c := ctxAt m i
  let cls := recoveryClass m i v
  let p := errorPlace m va stack
  let note (o : Nat) (m : Mach) : Mach := dataError i va (oId v) cls source p.1 o p.2 m
  let openNote (m : Mach) : Mach := dataErrorOpen i va (oId v) cls source p.1 p.2 m
  let before := c.st == .run && !afterCommit c
  let replay (m : Mach) : Mach := abortPass i 1 true (modPass i (fun p => { p with pendingErr := true, errCode := code }) m)
  if c.st == .free || c.st == .halt then note 4 m
  else if reencodeRead m i va then failCtx i 0x0606 0x06 255 va 2 (note 4 m)
  else if cls == 0 then (if before then replay (note 2 m) else openNote m)
  else if cls == 2 && tbit (dnum m 0x8100 0x01) (if before then 0 else 1) then
    addRepair i va (!before) (openNote (if before then replay m else m))
  else failCtx i code 0x03 255 va (if afterCommit c then 2 else 0) (note 4 m)

/-- R512, last row: an error while Q1 reads the update set is classed by the object of the rows that it would write; one before that is an
error in the gradient buffer. `k` is the write of context `i`. -/
def updateError (source i k : Nat) (m : Mach) : Mach :=
  let c := ctxAt m i
  match c.upd[k]? with
  | none => dataErrorOpen i 0 0 0 source 0 0 m
  | some u =>
    let v := (objAt m.mem u.va).getD 0
    let cls := recoveryClass m i v
    let p := errorPlace m u.va 0
    if c.pass.committed && cls == 2 && tbit (dnum m 0x8100 0x01) 1 then
      addRepair i u.va true (dataErrorOpen i u.va (oId v) cls source p.1 p.2 m)
    else if c.pass.committed then failCtx i 0 0x03 255 u.va 2 (dataError i u.va (oId v) cls source p.1 4 p.2 m)
    else if afterCommit c then dataErrorOpen i u.va (oId v) cls source p.1 p.2 m
    else dataParity i (dataError i u.va (oId v) cls source p.1 2 p.2 m)

/-- R63: an accepted response that carries poison. It is a memory error of its tier, in the object that it reads (R509, R512, R532; log
entry 91); what waits for it goes on as after a time-out. -/
def readPoisoned (r : TierRead) (m : Mach) : Mach :=
  let m1 := recStat 1 m
  match objAt m.mem r.va with
  | none => ctxError 0x0704 r.ctx (dataErrorOpen r.ctx r.va 0 0 (r.tier + 1) 0 (errorPlace m r.va 0).2 m1)
  | some v =>
    if oCtx v == r.ctx then
      readFailed r (objectError 0x0704 (r.tier + 1) r.va 0 v (notifyCode 0x0704 r.ctx (if afterCommit (ctxAt m r.ctx) then 2 else 0) m1))
    else readFailed r (ctxError 0x0704 r.ctx (objectError 0x0704 (r.tier + 1) r.va 0 v m1))

/-- R60, R62, R63, R75: a lower-tier response. The octets that a tier holds are part of memory, so a response brings the octets
of the page (R45), whatever tier holds it. -/
def tierResponse (id : Nat) (poison : Bool) (m : Mach) : Mach :=
  match readById m id with
  | none => m
  | some r =>
    if r.lost then m
    else if !readCurrent m r || r.substituted then entryFreed r (count 0x6700 0x06 (dropRead id m))
    else if poison then readPoisoned r (dropRead id m)
    else readArrived r (vget m.mem r.va r.len) (dropRead id m)

/-- LOWER_TIER_RESPONSE (R60, R62, R63). -/
def execLowerTierResponse (id : Nat) (_data : List Byte) (poison : Bool) (s : State) : Host.Outcome State Fault Refusal :=
  .next (onM (tierResponse id poison) s)

/-- The reserve's header octet that says Valid (R528): halves of ⌊frames / 2⌋ frames. -/
def reserveHalf (m : Mach) (h : Nat) : List Nat := (m.mem.reserve.drop (h * (m.mem.reserve.length / 2))).take (m.mem.reserve.length / 2)

/-- The place of an octet of a half. -/
def reservePlace (m : Mach) (h off : Nat) : Nat := placeOf 0 ((reserveHalf m h).getD (off / 2 ^ 21) 0) (off % 2 ^ 21)
def reserveGet (m : Mach) (h off n : Nat) : List Byte :=
  (List.range n).map (fun k => cellGet m.mem.phys (reservePlace m h (off + k)))
def reservePut (h off : Nat) (bs : List Byte) (m : Mach) : Mach :=
  onMem (fun mm => { mm with phys := (bs.zip (List.range bs.length)).foldl (fun l b => cellPut l (reservePlace m h (off + b.2)) b.1) mm.phys }) m
def halfValid (m : Mach) (h : Nat) : Bool := m.mem.reserve.length ≥ 2 && octs (reserveGet m h 24 1) 0 1 == 1

/-- R509, R512: the second read of a burst has passed, or has failed; errors of other sources than HBM have no second read. `place` 0: `va`
is a VA; 1: a set of the caldera, `va` = table × 2^32 + set; 2: the half `va` of the neighbour-checkpoint reserve; 3: a write of an update
set, `va` = context × 2^32 + write; 4: the device's own frames. -/
def memoryError (source place va stack : Nat) (passed0 : Bool) (m : Mach) : Mach :=
  let owner := (objAt m.mem va).getD 0
  let passed := passed0 && source == 0
  if m.dev.st == .off || m.dev.st == .reset || m.dev.st == .fault then m
  else match place with
  | 1 =>
    if passed then recStat 0 (dataError 0 0 (va / 2 ^ 32) 0 source stack 1 0 m)
    else dataError 0 0 (va / 2 ^ 32) 0 source stack 5 0 (recStat 1
      { m with tables := m.tables.map (fun p =>
          if p.1 == va / 2 ^ 32 then (p.1, { p.2 with ways := p.2.ways.filter (fun w => w.1 / 16 != va % 2 ^ 32) }) else p) })
  | 2 =>
    if passed then recStat 0 (dataError 0 0 0 0 source stack 1 0 m)
    else dataErrorOpen 0 0 0 0 source stack 0 (recStat 1 (if m.mem.reserve.isEmpty then m else reservePut (va % 2) 24 [0] m))
  | 3 =>
    if passed then recStat 0 (dataError (va / 2 ^ 32) 0 0 0 source stack 1 0 m)
    else updateError source (va / 2 ^ 32) (va % 2 ^ 32) (recStat 1 m)
  | 4 =>
    if passed then recStat 0 (dataError 0 0 0 0 source stack 1 0 m) else dataErrorOpen 0 0 0 0 source stack 0 (recStat 1 m)
  | _ =>
    if passed then recStat 0 (dataError (oCtx owner) va (oId owner) (recoveryClass m (oCtx owner) owner) source
      (errorPlace m va stack).1 1 (errorPlace m va stack).2 m)
    else
      let m1 := match place? m.mem va with
        | some q => if source == 0 then onMem (fun x => { x with failing := dedupKeep (q / 32 :: x.failing) }) m else m
        | none => m
      match objAt m.mem va with
      | none => dataErrorOpen 0 va 0 0 source stack 0 (recStat 1 m1)
      | some v => objectError 0 source va stack v (recStat 1 m1)

/-! ### Serving and receiving (R515, R516) -/

/-- R516: whether a span may be served: within an object that RecoveryMap marks REPLICATED, or the named CKPT object; no burst of it fails
its CRC. -/
def servable (m : Mach) (i va n : Nat) : Bool :=
  let ck := (ctxAt m i).ckpt.va
  match objHolding m.mem va n with
  | none => false
  | some v => decide (readCheck m.mem va n = 0) && !spanFails va n m.mem && (mapClass m (oId v) == 2 ||
      (oClass v == 7 && ck != 0 && decide ((objSpan v).1 ≤ ck) && decide (ck < (objSpan v).2)))

/-- R516: a page of a span is being written by a Q1: lower-tier writes of a quench to its frame are outstanding. -/
def q1Writes (m : Mach) (va n : Nat) : Bool :=
  (spanVpns va n).any (fun p => match walkVpn m.mem p with
    | .entry v => pTier v != 0 && m.mem.writes.any (fun w => w.mig.isNone && w.frame == pFrame v && writeCurrent m w)
    | .bad _ => false)

/-- The octets of an answer by READ_DATA: the digest of 32 units follows in a transaction of its own, since a Length ends at 16,384 (R420;
log entry 21). -/
def answerParts (b : List Byte) : List (List Byte) := if b.length ≤ 16384 then [b] else [b.take 16384, b.drop 16384]

/-- READ on machine state: 512-octet units from a VA, followed by their digest. A page entry that fails its check is found by the walk
(R53). -/
def takeRead (t : Txn) (m : Mach) : Mach :=
  match ctxOfTag m t.jobTag with
  | none => count 0x6900 0x0C m
  | some i =>
    let va := fld t.detail 55 0
    let n := fld t.detail 63 56 * 512
    let ok := decide (512 ≤ n) && decide (n ≤ 16384) && servable m i va n
    if ok && q1Writes m va n then onMem (fun x => { x with heldReads := x.heldReads ++ [t] }) m
    else
      let data := if ok then vget m.mem va n else []
      let body := if ok then data ++ shake256 data 32 else []
      let m1 := if ok then onMem (vtouch va n) m else if readCheck m.mem va n == 0x0701 then memFault 0x0701 i m else m
      (answerParts body).foldl (fun m b =>
        sendTxn { mkTxn m (ctxAt m i) 0x81 t.src 0 (.raw b) with tag := t.tag, err := !ok } m) m1

/-- R75, R516: a lower-tier write completes; the READs that waited for it are served. -/
def tierWriteEnds (id : Nat) (err : Bool) (m : Mach) : Mach :=
  let m1 := tierWritten id err m
  m1.mem.heldReads.foldl (fun m t => takeRead t m) (onMem (fun x => { x with heldReads := [] }) m1)

/-- LOWER_TIER_WRITE_COMPLETE (R75, R516). -/
def execLowerTierWriteComplete (id : Nat) (error : Bool) (s : State) : Host.Outcome State Fault Refusal :=
  .next (onM (tierWriteEnds id error) s)

/-- The repair and chunk that a tag belongs to. -/
def repairOf (c : Ctx) (tag : Nat) : Option (Nat × Nat) :=
  (List.range c.repairs.length).findSome? (fun j =>
    match c.repairs[j]? with
    | some r => (r.asked.find? (fun a => a.1 == tag)).map (fun a => (j, a.2))
    | none => none)

/-- READ_DATA of a repair: the digests are compared (R515). -/
def repairData (i j chunk tag : Nat) (t : Txn) (m : Mach) : Mach :=
  match repairAt m i j with
  | none => m
  | some r =>
    let d := slice (rawOf t) 0 8192
    let m1 := modRepair i j (fun r => { r with asked := r.asked.filter (fun a => a.1 != tag) }) m
    if t.err then otherPeer i j m1
    else if shake256 d 32 == slice (rawOf t) 8192 32 then
      askMore i j (modRepair i j (fun r => { r with data := r.data.put chunk d }) m1)
    else if r.retried.contains chunk then otherPeer i j m1
    else askMore i j (askChunk i j chunk (modRepair i j (fun r => { r with retried := r.retried ++ [chunk] }) m1))

/-- R517: writes a page into the frame that holds it; a Migrating page's blocks all become dirty. -/
def writePage (vpn : Nat) (bs : List Byte) (m : Mem) : Mem :=
  match walkVpn m vpn with
  | .bad _ => m
  | .entry v =>
    let m1 := touchPage vpn { m with
      phys := cellsPut m.phys (placeOf (pTier v) (pFrame v) 0) bs, failing := goodBursts (placeOf (pTier v) (pFrame v) 0) bs.length m.failing }
    if pMig v then { m1 with migs := m1.migs.map (fun g => if g.vpn == vpn then { g with dirty := List.range 512 } else g) } else m1

/-- The frame of a page, retired from now on when it lies in HBM (R517). -/
def retireFrame (vpn : Nat) (m : Mem) : Mem :=
  match walkVpn m vpn with
  | .entry v => if pTier v == 0 && !m.retired.contains (pFrame v) then { m with retired := m.retired ++ [pFrame v] } else m
  | .bad _ => m

/-- R517: the page whose chunks have all arrived is written and read back. -/
def repairWritten (i : Nat) (ok : Bool) (m : Mach) : Mach :=
  let c := ctxAt m i
  match (List.range c.repairs.length).find? (fun j => match c.repairs[j]? with | some r => r.data.length == 256 | none => false) with
  | none => m
  | some j => match repairAt m i j with
    | none => m
    | some r =>
      let m1 := writeLower i (r.page * 2 ^ 21) (2 ^ 21) (onMem (writePage r.page (r.data.flatMap Prod.snd)) m)
      if ok then recStat 2 (errorOutcome r.va 3 (dropRepair i j m1))
      else repairFailed i j (onMem (retireFrame r.page) m1)

/-- R517: a repair does not finish within RepairTimeout. -/
def repairLate (i : Nat) (m : Mach) : Mach :=
  let c := ctxAt m i
  match (List.range c.repairs.length).find? (fun j => match c.repairs[j]? with | some r => r.started || r.usedOther | none => false) with
  | none => m
  | some j => match repairAt m i j with
    | some r => repairFailed i j (timeTo (r.since10 + dlatB m c 0x8100 0x03 * 10000) m)
    | none => m

end Sys2Proof.Machine
end

