-- ==== Sys2Proof/Machine/Ckpt.lean ====
section
/-!
DEFINITION. Checkpoints (15 R523 to R530): the state record, the checkpoint commands, and fast checkpoints to a neighbour's
reserve.
-/

namespace Sys2Proof.Machine

/-! ### The state record (R524) -/

/-- R510: the class of an object: RECOMPUTE counts as PERSISTENT where the content outlives the step. -/
def listClass (m : Mach) (v : Nat) : Nat :=
  let k := mapClass m (oId v)
  if k == 0 && [0, 1, 2, 3, 4, 7].contains (oClass v) then 1 else k

/-- The CKPT object of a context, when `0x8100.0C` names one of its own of at least 8 MiB from its first octet. -/
def ckptObj (m : Mach) (i : Nat) : Option Nat :=
  let va := (ctxAt m i).ckpt.va
  match objAt m.mem va with
  | some v => if oClass v == 7 && oCtx v == i && (objSpan v).1 == va && decide (4 ≤ oSize v) then some v else none
  | none => none

/-- The objects that a checkpoint of a context lists, ascending; the CKPT object itself is left out (log entry 41). -/
def listedObjects (m : Mach) (i : Nat) : List Nat :=
  (m.mem.objects.filter (fun p =>
    oValid p.2.v && oCtx p.2.v == i && (listClass m p.2.v == 1 || listClass m p.2.v == 2) &&
    ckptObj m i != some p.2.v)).map (fun p => p.2.v)

/-- The octets of an object, in VA order. -/
def objBytes (m : Mach) (v : Nat) : List Byte := vget m.mem (objSpan v).1 (oSize v * 2 ^ 21)

/-- R524: a digest entry. -/
def digestEntry (m : Mach) (v : Nat) : List Byte :=
  leBytes 2 (oId v) ++ leBytes 1 (listClass m v) ++ leBytes 5 0 ++ leBytes 4 (oSize v) ++ leBytes 4 0 ++ shake256 (objBytes m v) 32

/-- The tables of a context with a live version. -/
def ckptTables (m : Mach) (i : Nat) : List Nat := (tablesOf m i).filter (fun id => !(liveVersions (tabAt m id)).isEmpty)

/-- R524: the state record. -/
def stateRecord (m : Mach) (i : Nat) : List Byte :=
  let c := ctxAt m i
  let ts := ckptTables m i
  let os := listedObjects m i
  leBytes 2 1 ++ leBytes 1 i ++ leBytes 1 c.mb ++ leBytes 4 0 ++ leBytes 8 c.step ++ leBytes 8 c.gey.steerN ++
  leBytes 1 (if c.gey.steerSet then 1 else 0) ++ leBytes 7 0 ++ c.margins.flatMap (leBytes 4) ++ leBytes 4 ts.length ++
  leBytes 28 0 ++
  slice (ts.flatMap (fun id =>
    let t := tabAt m id
    leBytes 2 id ++ leBytes 1 (t.bank + (if t.awaiting.isSome then 2 else 0)) ++ leBytes 13 0)) 0 4096 ++
  leBytes 4 os.length ++ leBytes 60 0 ++ os.flatMap (digestEntry m)

/-- The entries of a record's digest list. -/
def recordDigests (rec : List Byte) : List (List Byte) :=
  (List.range (octs rec 4416 4)).map (fun k => slice rec (4480 + 48 * k) 48)

/-- The record in the CKPT object. -/
def readRecord (m : Mach) (va : Nat) : List Byte := vget m.mem va (4480 + 48 * vnum m.mem (va + 4416) 4)

/-! ### The commands (R523, R525) -/

/-- Whether the refresh period lets a checkpoint be taken at the present step number (R523, R527). -/
def refreshEven (m : Mach) (i : Nat) : Bool :=
  let c := ctxAt m i
  let counted := (ckptTables m i).any (fun id => (liveVersions (tabAt m id)).any (fun p => tdCounted p.v))
  !counted || refreshSteps m c == 0 || c.step % refreshSteps m c == 0

/-- The conditions of a command. A context that holds after a pass has come there through a Q7 (R484). -/
def ckptAllowed (m : Mach) (i cmd : Nat) : Bool :=
  let c := ctxAt m i
  (ckptObj m i).isSome && octs c.ckpt.status 1 1 != 1 && (match cmd with
  | 1 => c.st == .held && c.everRan && (tablesOf m i).all (fun id => (tabAt m id).pend.isNone) && refreshEven m i
  | 2 => c.st == .idle && !c.everRan && c.grant == 0
  | 3 => c.st == .idle || c.st == .held
  | 4 => c.ckpt.digested && loaded c
  | _ => false)

/-- CkptStatus (R532). -/
def ckptStatus (cmd result first failing next : Nat) : List Byte :=
  leBytes 1 cmd ++ leBytes 1 result ++ leBytes 2 first ++ leBytes 4 failing ++ leBytes 8 next
def setStatus (i : Nat) (st : List Byte) (m : Mach) : Mach := modCtx i (fun c => { c with ckpt := { c.ckpt with status := st } }) m

/-- The current list's entries that VERIFY compares: index and entry of each REPLICATED object. -/
def verifyList (m : Mach) (i : Nat) : List (Nat × List Byte) :=
  let va := (ctxAt m i).ckpt.va
  let n := vnum m.mem (va + 4416) 4
  ((List.range n).map (fun k => (k, vget m.mem (va + 4194304 + 48 * k) 48))).filter (fun e => octs e.2 2 1 == 2)

/-- VERIFY reads the neighbour's current-list entries (R523), one unit of 512 octets each. -/
def askVerify (i : Nat) (m : Mach) : Mach :=
  let c := ctxAt m i
  let n := cutSize m c 0
  if n == 1 then m
  else (verifyList m i).foldl (fun m e =>
    let (tag, m1) := freshTag m
    let peer := cutPeer m1 c 0 ((cutRank m1 c 0 + 1) % n)
    let t := { mkTxn m1 c 0x01 peer (2 ^ 56 + (c.ckpt.va + 4194304 + 48 * e.1)) (.raw []) with tag := tag }
    sendTxn t (modCtx i (fun c => { c with ckpt := { c.ckpt with verifying := c.ckpt.verifying ++ [(tag, e.2)] } }) m1)) m

/-- The octets whose digests RECORD and DIGEST form. -/
def digestSpans (m : Mach) (i cmd : Nat) : List (Nat × Nat) :=
  (match cmd with
    | 1 => listedObjects m i
    | 3 => (recordDigests (readRecord m (ctxAt m i).ckpt.va)).filterMap (fun d => objById m.mem (octs d 0 2))
    | _ => []).map (fun v => ((objSpan v).1, oSize v * 2 ^ 21))

/-- Those of them that lie in lower tiers are read before the command completes (R59). -/
def digestReads (m : Mach) (i : Nat) : Bool := m.mem.reads.any (fun r => r.who == .digest i && readTagged m r)

/-- A checkpoint command begins (R523): it is busy until CHECKPOINT_COMMAND_COMPLETE. -/
def ckptBegin (i cmd : Nat) (m : Mach) : Except Nat Mach :=
  if !ckptAllowed m i cmd then .error 0x0E200007
  else
    let next := if cmd == 1 then (ctxAt m i).step else vnum m.mem ((ctxAt m i).ckpt.va + 8) 8
    let m1 := setStatus i (ckptStatus cmd 1 0 0 next) m
    let m2 := modCtx i (fun c => { c with ckpt := { c.ckpt with verifying := [], verifyBad := [] } }) m1
    .ok (if cmd == 4 then askVerify i m2 else fetchSpans i (.digest i) (digestSpans m2 i cmd) m2)

/-- READ_DATA for VERIFY. -/
def verifyData (i tag : Nat) (t : Txn) (m : Mach) : Mach :=
  modCtx i (fun c => match c.ckpt.verifying.find? (fun e => e.1 == tag) with
    | none => c
    | some e =>
      let same := !t.err && slice (rawOf t) 0 48 == e.2
      { c with ckpt := { c.ckpt with
        verifying := c.ckpt.verifying.filter (fun x => x.1 != tag)
        verifyBad := if same then c.ckpt.verifyBad else c.ckpt.verifyBad ++ [octs e.2 0 2] } }) m

/-- R525: RESTORE applies a record. -/
def applyRecord (i : Nat) (rec : List Byte) (m : Mach) : Mach :=
  let next := octs rec 8 8
  let m1 := modCtx i (fun c => { c with
    step := next, stepC := cpl 64 next, mb := octs rec 3 1, margins := (List.range 64).map (fun l => octs rec (32 + 4 * l) 4)
    gey := { c.gey with steerN := octs rec 16 8, steerSet := tbit (octs rec 24 1) 0 } }) m
  (List.range (octs rec 288 4)).foldl (fun m k =>
    let f := octs rec (320 + 16 * k + 2) 1
    modTab (octs rec (320 + 16 * k) 2) (fun t => { t with
      bank := f % 2
      awaiting := if tbit f 1 then some (next - 1, (t.cur.map (fun p => tdVersion p.v)).getD 0) else t.awaiting }) m) m1

/-- R523: DIGEST: the current list, and the objects whose digest differs. -/
def digestAll (m : Mach) (i : Nat) : List (List Byte) × List Nat :=
  let ds := recordDigests (readRecord m (ctxAt m i).ckpt.va)
  let cur := ds.map (fun d => match objById m.mem (octs d 0 2) with
    | some v => digestEntry m v
    | none => slice d 0 16 ++ List.replicate 32 0)
  (cur, ((ds.zip cur).filter (fun p => slice p.1 16 32 != slice p.2 16 32)).map (fun p => octs p.1 0 2))

/-- R52: the CKPT object may be written: its context is in no step, and the object is still there. -/
def ckptWritable (m : Mach) (i cmd : Nat) : Bool :=
  let c := ctxAt m i
  (ckptObj m i).isSome && (c.st == .held || (cmd == 3 && c.st == .idle))

/-- CHECKPOINT_COMMAND_COMPLETE on machine state. A RECORD or DIGEST whose context has left HELD or IDLE meanwhile writes nothing and
fails (R52, R523). -/
def ckptEnd (i : Nat) (m : Mach) : Mach :=
  let c := ctxAt m i
  let cmd := octs c.ckpt.status 0 1
  let next := octs c.ckpt.status 8 8
  let va := c.ckpt.va
  if octs c.ckpt.status 1 1 != 1 || !c.ckpt.verifying.isEmpty || digestReads m i then m
  else if (cmd == 1 || cmd == 3) && !ckptWritable m i cmd then setStatus i (ckptStatus cmd 3 0 0 next) m
  else match cmd with
    | 1 => setStatus i (ckptStatus 1 2 0 0 next) (onMem (vput va (stateRecord m i)) m)
    | 2 =>
      let rec' := readRecord m va
      if octs rec' 0 2 == 1 && c.st == .idle && !c.everRan then setStatus i (ckptStatus 2 2 0 0 next) (applyRecord i rec' m)
      else setStatus i (ckptStatus 2 3 0 0 next) m
    | 3 =>
      let (cur, bad) := digestAll m i
      setStatus i (ckptStatus 3 (if bad.isEmpty then 2 else 3) (bad.headD 0) bad.length next)
        (modCtx i (fun c => { c with ckpt := { c.ckpt with digested := true } }) (onMem (vput (va + 4194304) cur.flatten) m))
    | _ =>
      let bad := c.ckpt.verifyBad
      let m1 := setStatus i (ckptStatus 4 (if bad.isEmpty then 2 else 3) (bad.headD 0) bad.length next) m
      if bad.isEmpty then recStat 7 m1 else m1

/-! ### Fast checkpoints (R527 to R529) -/

/-- The VA at which a neighbour's reserve begins: root index 0xFFFF (R528). -/
def reserveVa : Nat := 0xFFFF * 2 ^ 40

/-- Octets of half a reserve, by the device's own `0x8100.10` (log entry 42). -/
def halfBytes (m : Mach) : Nat := dnum m 0x8100 0x10 / 2 * 2 ^ 21

/-- The neighbour on a port. -/
def portPeer (m : Mach) (p : Nat) : Nat :=
  let a := p / 2
  let n := max 1 (ringSize m a)
  withAxis (ownCoord m) a ((axisOf (ownCoord m) a + (if p % 2 == 0 then 1 else n - 1)) % n)

/-- Octets cut into chunks of at most `k`: (offset, octets). -/
def cutChunks (k : Nat) (off : Nat) (bs : List Byte) : List (Nat × List Byte) :=
  (List.range (ceilDiv bs.length k)).map (fun j => (off + j * k, (bs.drop (j * k)).take k))

/-- R528: what a fast checkpoint writes behind the header: the record, then every listed object on a 2 MiB boundary. -/
def fastParts (m : Mach) (i : Nat) : List (Nat × List Byte) :=
  let r := stateRecord m i
  let start := ceilDiv (4096 + r.length) (2 ^ 21) * 2 ^ 21
  let objs := (listedObjects m i).foldl (fun (acc : Nat × List (Nat × List Byte)) v =>
    (acc.1 + oSize v * 2 ^ 21, acc.2 ++ [(acc.1, objBytes m v)])) (start, [])
  (4096, r) :: objs.2

/-- R528: the header of a half. -/
def fastHeader (m : Mach) (c : Ctx) (valid : Bool) : List Byte :=
  if valid then leBytes 2 1 ++ leBytes 4 (dnum m 0x5000 0x02) ++ leBytes 2 0 ++ leBytes 8 c.ckpt.fastStep ++
    leBytes 8 c.ckpt.fastBytes ++ leBytes 1 1 ++ List.replicate 4071 0
  else List.replicate 4096 0

/-- Sends one WRITE of a fast checkpoint. -/
def sendWrite (i off : Nat) (bs : List Byte) (m : Mach) : Mach :=
  let c := ctxAt m i
  let (tag, m1) := freshTag m
  let va := reserveVa + c.ckpt.fastHalf * halfBytes m + off
  let t := { mkTxn m1 c 0x02 (portPeer m1 (dnum m 0x8100 0x0F)) va (.raw bs) with tag := tag }
  sendTxn t (modCtx i (fun c => { c with ckpt := { c.ckpt with fastTags := c.ckpt.fastTags ++ [tag] } }) m1)

/-- The copy starts from its first octet: the half's header is cleared, then the record and the objects follow (R528,
R529). -/
def fastSend (i : Nat) (m : Mach) : Mach :=
  if !(ctxAt m i).ckpt.fast then m
  else
    let ps := (fastParts m i).flatMap (fun p => cutChunks 16384 p.1 p.2)
    let bytes := ps.foldl (fun a p => max a (p.1 + p.2.length)) 0
    let m1 := modCtx i (fun c => { c with ckpt := { c.ckpt with fastTags := [], fastHead := false, fastBytes := bytes } }) m
    ((0, fastHeader m (ctxAt m i) false) :: ps).foldl (fun m p => sendWrite i p.1 p.2 m) m1

/-- R527: at Q7, whether step `c.step` (already advanced) begins with a fast checkpoint. -/
def fastDue (m : Mach) (i : Nat) : Bool :=
  let c := ctxAt m i
  let k := dlat m c 0x8100 0x0E
  k != 0 && c.step % k == 0 && refreshEven m i

/-- Begins a fast checkpoint into the half that is not valid, as the owner's own writes leave them: the other than that of the last complete
one; where both are valid, the older (log entry 42). -/
def fastBegin (i : Nat) (m : Mach) : Mach :=
  if !fastDue m i then m
  else fastSend i (modCtx i (fun c => { c with ckpt := { c.ckpt with
    fast := true, fastHalf := 1 - c.ckpt.fastHalf, fastStep := c.step } }) m)

/-- The copy ends as failed (R529). -/
def fastFail (i : Nat) (m : Mach) : Mach :=
  recStat 6 (modCtx i (fun c => { c with ckpt := { c.ckpt with fast := false, fastTags := [], fastHalf := 1 - c.ckpt.fastHalf } }) m)

/-- WRITE_ACK on machine state: the last header follows the last of the data. -/
def takeWriteAck (t : Txn) (m : Mach) : Mach :=
  match ctxOfTag m t.jobTag with
  | none => count 0x6900 0x0C m
  | some i =>
    let c := ctxAt m i
    if !c.ckpt.fast || !c.ckpt.fastTags.contains t.tag then m
    else if t.err then fastFail i m
    else
      let tags := c.ckpt.fastTags.filter (· != t.tag)
      let m1 := modCtx i (fun c => { c with ckpt := { c.ckpt with fastTags := tags } }) m
      if tags.isEmpty && !c.ckpt.fastHead then
        sendWrite i 0 (fastHeader m1 (ctxAt m1 i) true) (modCtx i (fun c => { c with ckpt := { c.ckpt with fastHead := true } }) m1)
      else m1

/-- FAST_CKPT_COPY_COMPLETE on machine state: every WRITE, the header's too, is acknowledged. -/
def fastEnd (i : Nat) (m : Mach) : Mach :=
  let c := ctxAt m i
  if c.ckpt.fast && c.ckpt.fastHead && c.ckpt.fastTags.isEmpty then
    recStat 5 (modCtx i (fun c => { c with ckpt := { c.ckpt with fast := false, fastHead := false } }) m)
  else m

/-- The source of a WRITE is the neighbour on the port that it arrived by; one that comes without a port may be any neighbour's (R528, log
entry 42). -/
def fromNeighbour (m : Mach) (port : Option Nat) (src : Nat) : Bool :=
  (match port with | some p => [p] | none => List.range 8).any (fun p => portPeer m p == src && ringSize m (p / 2) != 1)

/-- WRITE on machine state (R528). -/
def takeWrite (port : Option Nat) (t : Txn) (m : Mach) : Mach :=
  match ctxOfTag m t.jobTag with
  | none => count 0x6900 0x0C m
  | some i =>
    let va := fld t.detail 55 0
    let bs := rawOf t
    let half := m.mem.reserve.length / 2 * 2 ^ 21
    let off := va - reserveVa
    let ok := decide (reserveVa ≤ va) && decide (off + bs.length ≤ 2 * half) && fromNeighbour m port t.src
    let m1 := if ok then (List.range 2).foldl (fun m h =>
        let a := max off (h * half)
        let z := min (off + bs.length) ((h + 1) * half)
        if a < z then reservePut h (a - h * half) ((bs.drop (a - off)).take (z - a)) m else m) m else m
    sendTxn { mkTxn m1 (ctxAt m1 i) 0x82 t.src 0 (.raw []) with tag := t.tag, err := !ok } m1

/-- READ_DATA on machine state: a repair's chunk, or VERIFY's entry. -/
def takeReadData (t : Txn) (m : Mach) : Mach :=
  match ctxOfTag m t.jobTag with
  | none => count 0x6900 0x0C m
  | some i => match repairOf (ctxAt m i) t.tag with
    | some (j, chunk) => repairData i j chunk t.tag t m
    | none => verifyData i t.tag t m

end Sys2Proof.Machine
end

