-- ==== Sys2Proof/Machine/Sinter.lean ====
section
/-!
DEFINITION. The sinter unit (10 R361 to R369): PRUNE, PRUNE_AUTO and PACK_ROWS. A command's octets are written when the
unit runs it; its completion entry is posted by SINTER_COMMAND_COMPLETE.
-/

namespace Sys2Proof.Machine

/-- The sinter rings of a cluster as (core × 8 + ring within the cluster), in ascending order. A descriptor that names a sinter ring in
its value or in its complement is one to look at: the check at its use stops it where the two differ (R383). -/
def sinterRings (m : Mach) (cl : Nat) : List Nat :=
  (List.range 128).filter (fun q =>
    match (coreAt m (cl * 16 + q / 8)).rings.find (q % 8) with
    | some r => rdKind r == 3 || cpl 8 ((r.desc.c >>> 24) % 256) == 3
    | none => false)

/-- R367: the next ring with a committed slot, or whose counts or descriptor fail their complements, round robin from the pointer. -/
def nextSinter (m : Mach) (cl : Nat) : Option Nat :=
  let p := (m.sinters.get cl {}).ptr
  let has (q : Nat) : Bool :=
    let r := ringAt (coreAt m (cl * 16 + q / 8)) (q % 8)
    !ringOk r || ringFilled r
  let l := sinterRings m cl
  ((l.filter (fun q => decide (p ≤ q))) ++ (l.filter (fun q => decide (q < p)))).find? has

/-- R130, R361: an address below 0x40_0000 is a cluster staging offset. -/
def spanRead (m : Mach) (cl addr n : Nat) : List Byte :=
  if addr < 0x400000 then cellsGet m.mem.staging (stagAddr cl addr) n else vget m.mem addr n

/-- Writes a span of staging or of a VA. -/
def spanWrite (cl addr : Nat) (bs : List Byte) (m : Mach) : Mach :=
  if addr < 0x400000 then { m with mem := stagPut cl addr bs m.mem }
  else { m with mem := vput addr bs m.mem }

/-- The fault code of a span, or 0: outside StagingBytes, or outside its object, as every address from 2^56 on is (R369); unmapped; or
not writable (R52). -/
def spanFault (m : Mach) (i addr n : Nat) (write : Bool) : Nat :=
  if n == 0 then 0
  else if addr < 0x400000 then (if addr + n ≤ stagingOf m i then 0 else 0x0205)
  else if addr ≥ 2 ^ 56 then 0x0205
  else
    let first := readCheck m.mem addr 1
    if first != 0 then first
    else if entryBad m.mem addr then objCheck
    else match objHolding m.mem addr n with
      | none => 0x0205
      | some _ => if write then writeCheck m.mem i addr n else readCheck m.mem addr n

/-- R363: `a` is of larger magnitude than `b`. -/
def magLarger (a b : FVal) : Bool := (a.isNan && !b.isNan) || (!a.isNan && b.abs.lt a.abs)

/-- The n positions of largest magnitude of a group, ties to the lower position, ascending. -/
def keepLargest (x : Nat → FVal) (nonzero : Bool) (g m n : Nat) : List Nat :=
  let l := (rangeFrom g m).filter (fun p => !nonzero || !(x p).isZero)
  let kept := (sortBy (fun a b => !(magLarger (x b) (x a))) l).take n
  (rangeFrom g m).filter kept.contains

/-- R363: the positions of a column that are kept. -/
def chooseCol (pat blocks : Nat) (x : Nat → FVal) : List Nat :=
  if pat == 4 then (List.range blocks).flatMap (fun b => keepLargest x true (16 * b) 16 (16 / blocks))
  else
    let (n, mm) := patKeep pat
    (List.range (16 * blocks / mm)).flatMap (fun g => keepLargest x false (g * mm) mm n)

/-- Packs codes of w bits into octets, from bit 0 upwards. -/
def packCodes (w : Nat) (l : List Nat) : List Byte :=
  let n := l.foldr (fun x acc => x % 2 ^ w + acc * 2 ^ w) 0
  leBytes (ceilDiv (l.length * w) 8) n

/-- R349: the header of a tile. -/
def tileHeader (fmt blocks : Nat) (dense : Bool) (pat payload : Nat) : List Byte :=
  let lo := fmt * 4096 + blocks * 512 + (if dense then 256 else 0) + pat
  leBytes 8 (cpl 16 lo * 2 ^ 48 + payload * 2 ^ 32 + lo)

/-- R350: the octets of a tile from the kept positions of its columns and the element codes. -/
def tileBytes (fmt blocks : Nat) (dense : Bool) (pat : Nat) (keep : Nat → List Nat) (code : Nat → Nat → Nat) : List Byte :=
  let w := codeBits fmt
  let cols := List.range 32
  let body :=
    if dense then packCodes w ((List.range 16).flatMap (fun r => cols.map (fun c => code r c)))
    else if pat == 4 then
      let maps := cols.flatMap (fun c => (List.range blocks).map (fun b =>
        ((keep c).filter (fun p => p / 16 == b)).foldl (fun acc p => acc + 2 ^ (p % 16)) 0))
      padTo 8 (packCodes 16 maps ++ packCodes w (cols.flatMap (fun c => (keep c).map (fun p => code p c))))
    else
      let s := patStored pat blocks
      let mm := (patKeep pat).2
      let cells := (List.range s).flatMap (fun j => cols.map (fun c => ((keep c).getD j 0, c)))
      packCodes w (cells.map (fun q => code q.1 q.2)) ++ packCodes (patBits pat) (cells.map (fun q => q.1 % mm))
  tileHeader fmt blocks dense pat body.length ++ body

/-- R364: a fresh BM16 tile of one block takes the dense form when that is not larger. -/
def freshDense (fmt blocks pat : Nat) (keep : Nat → List Nat) : Bool :=
  let n := ((List.range 32).map (fun c => (keep c).length)).foldl (· + ·) 0
  pat == 4 && blocks == 1 && decide (64 * codeBits fmt ≤ a8 (64 + ceilDiv (n * codeBits fmt) 8))

/-- A column's kept positions in a stored tile. -/
def storedCol (t : SpTile) (c : Nat) : List Nat :=
  (List.range 16).filterMap (fun j => t.pos.find (32 * j + c))

/-- Fields of a sinter command (R361). -/
structure SntCmd where
  op : Nat
  pat : Nat
  blocks : Nat
  fmt : Nat
  count : Nat
  src : Nat
  dst : Nat
  sstr : Nat
  dstr : Nat
  done : Nat
deriving DecidableEq, Repr

def sntOf (b : List Byte) : SntCmd :=
  ⟨octs b 0 1, octs b 1 1, octs b 2 1, octs b 3 1, octs b 4 4, octs b 8 8, octs b 16 8, octs b 24 2, octs b 26 2, octs b 28 1⟩

/-- R369: a reserved field or value (0x0207). -/
def sntBad (m : Mach) (b : List Byte) (q : SntCmd) : Bool :=
  q.op == 0 || decide (q.op > 3) || decide (q.pat > 4) || !blocksOk q.pat q.blocks || !tileFmt q.fmt ||
  q.count == 0 || decide (q.count > 65536) || (q.op == 3 && q.pat != 4) || (q.op != 3 && q.dstr != 0) ||
  fld q.done 6 3 != 0 || !zeroOcts b 29 3 ||
  (q.op == 2 && (decide (q.dst < 0x400000) || (match objAt m.mem q.dst with | some v => oClass v != 5 | none => false)))

/-- One tile of PRUNE or PRUNE_AUTO: none where a stored header differs (R365). -/
def pruneTile (fresh : Bool) (cl : Nat) (q : SntCmd) (t : Nat) (m : Mach) : Option Mach :=
  let w := codeBits q.fmt
  let kl := 16 * q.blocks
  let code (p c : Nat) : Nat := packedAt (spanRead m cl (q.src + (t * kl + p) * q.sstr) (rowBytes q.fmt 32)) 0 w c
  let dst := q.dst + t * tileSlot q.pat q.blocks w
  if fresh then
    let keep (c : Nat) : List Nat := chooseCol q.pat q.blocks (fun p => elemVal q.fmt (code p c))
    let dense := freshDense q.fmt q.blocks q.pat keep
    let m1 := spanWrite cl dst (tileBytes q.fmt q.blocks dense q.pat keep code) m
    some (count 0x6200 0x22 (count 0x6200 0x24 (if dense then count 0x6200 0x23 m1 else m1)))
  else
    match readTile (spanRead m cl dst (tileSlot q.pat q.blocks w)) with
    | none => none
    | some old =>
      if old.pattern != q.pat || old.blocks != q.blocks || old.fmt != q.fmt then none
      else
        let m1 := spanWrite cl dst (tileBytes q.fmt q.blocks old.dense q.pat (storedCol old) code) m
        some (count 0x6200 0x22 (if old.dense then count 0x6200 0x23 m1 else m1))

/-- One row of PACK_ROWS (R362, R366). -/
def packRow (cl : Nat) (q : SntCmd) (i : Nat) (m : Mach) : Mach :=
  let w := codeBits q.fmt
  let l := spanRead m cl (q.src + i * q.sstr) (rowBytes q.fmt (16 * q.blocks))
  let code (p : Nat) : Nat := packedAt l 0 w p
  let keep := (List.range (16 * q.blocks)).filter (fun p => !(elemVal q.fmt (code p)).isZero)
  let maps := (List.range q.blocks).map (fun b => (keep.filter (fun p => p / 16 == b)).foldl (fun acc p => acc + 2 ^ (p % 16)) 0)
  count 0x6200 0x25 (spanWrite cl (q.dst + i * q.dstr) (padTo 8 (packCodes 16 maps) ++ padTo 8 (packCodes w (keep.map code))) m)

/-- Octets of the command's source and destination spans. -/
def sntSpans (q : SntCmd) : Nat × Nat :=
  let w := codeBits q.fmt
  if q.op == 3 then
    ((q.count - 1) * q.sstr + rowBytes q.fmt (16 * q.blocks), (q.count - 1) * q.dstr + a8 (2 * q.blocks) + a8 (rowBytes q.fmt (16 * q.blocks)))
  else ((q.count * 16 * q.blocks - 1) * q.sstr + rowBytes q.fmt 32, q.count * tileSlot q.pat q.blocks w)

/-- The rows of its source that a command reads, as offset from the first and length. -/
def sntRows (q : SntCmd) : List (Nat × Nat) :=
  let n := if q.op == 3 then q.count else q.count * 16 * q.blocks
  (List.range n).map (fun j => (j * q.sstr, rowBytes q.fmt (if q.op == 3 then 16 * q.blocks else 32)))

/-- R369: the unit's read of a source in staging meets a parity error. -/
def sourceParity (m : Mach) (cl : Nat) (q : SntCmd) : Bool :=
  !m.mem.stagingBad.isEmpty && decide (q.src < 0x400000) && (sntRows q).any (fun r => stagParBad m.mem cl (q.src + r.1) r.2)

/-- Runs a command of core k: a fault code, or the machine with every octet written. -/
def runSinter (k : Nat) (b : List Byte) (m : Mach) : Except Nat Mach :=
  let q := sntOf b
  let i := (coreAt m k).ctx
  let cl := clusterOf k
  if sntBad m b q then .error 0x0207
  else
    let f1 := spanFault m i q.src (sntSpans q).1 false
    let f2 := spanFault m i q.dst (sntSpans q).2 true
    if f1 != 0 then .error f1
    else if f2 != 0 then .error f2
    else if sourceParity m cl q then .error 0x0201
    else if q.op == 3 then .ok ((List.range q.count).foldl (fun m t => packRow cl q t m) m)
    else
      let x := ctxAt m i
      let fresh := q.op == 1 || (x.reprune != 0 && x.step % x.reprune == 0)
      (List.range q.count).foldl (fun (acc : Except Nat Mach) t =>
        match acc with
        | .error e => .error e
        | .ok m => match pruneTile fresh cl q t m with | some m1 => .ok m1 | none => .error 0x0207) (.ok m)

/-- R369: the unit's read of a command's slot meets a parity error. -/
def slotParity (m : Mach) (k off : Nat) (inStaging : Bool) : Bool :=
  if inStaging then stagParBad m.mem (clusterOf k) off 32 else opcParBad (coreAt m k) [(off, 32)]

/-- SINTER_COMMAND on machine state. -/
def sinterTake (cl : Nat) (m : Mach) : Mach :=
  let u := m.sinters.get cl {}
  if posting m (.sinter cl) then m
  else match u.run, nextSinter m cl with
  | none, some q =>
    let k := cl * 16 + q / 8
    let c := coreAt m k
    let r := ringAt c (q % 8)
    let pc := r.posted.headD c.pc
    if !issues m c then m
    else if !ringOk r then count 0x6800 0x09 (coreError k 0x0801 255 false pc (q % 8) m)
    else
      let off := slotOffset r r.racq
      let b := if rdWhere r == 1 then cellsGet m.mem.staging (stagAddr cl off) 32 else opcGet c off 32
      let m1 := count 0x6800 0x02 (setCore k (setRing (q % 8) (releaseSlot (rAcquire { r with posted := r.posted.drop 1 })) c) m)
      let idle (m : Mach) : Mach := { m with sinters := m.sinters.put cl { u with ptr := q + 1 } }
      let acc (a n : Nat) (m : Mach) : Mach := if a < 0x400000 then m else access (coreXl k) a n m
      let m2 := acc (sntOf b).src (sntSpans (sntOf b)).1 (acc (sntOf b).dst (sntSpans (sntOf b)).2 m1)
      if slotParity m k off (rdWhere r == 1) then mxError k 0x0201 pc off (idle m1)
      else match runSinter k b m2 with
      | .error code =>
        if code == 0x0201 then mxError k code pc (octs b 8 8) (idle m2)
        else if isDescCheck code then memFault code c.ctx (recordFault k (code % 65536) 255 false false pc (octs b 16 8) (idle m1))
        else coreFault k code 255 false pc (octs b 16 8) (idle m1)
      | .ok m3 => { m3 with sinters := m3.sinters.put cl { ptr := q + 1, run := some ⟨k, pc, b⟩ } }
  | _, _ => m

/-- SINTER_COMMAND_COMPLETE on machine state (R367). -/
def sinterDone (cl : Nat) (m : Mach) : Mach :=
  let u := m.sinters.get cl {}
  match u.run with
  | none => m
  | some ⟨k, pc, b⟩ =>
    let q := sntOf b
    let m1 := { m with sinters := m.sinters.put cl { u with run := none } }
    if tbit q.done 7 then postEntry (.sinter cl) pc k (q.done % 8) (4 * 2 ^ 60 + q.dst % 2 ^ 56) m1 else m1

end Sys2Proof.Machine
end

