-- ==== Sys2Proof/Machine/Transfer.lean ====
section
/-!
DEFINITION. Transfer entries (14 R488 to R493) and shard receipts (12 R441 to R443): what an entry does when it fires, and
what PIPE_SLOT and SHARD transactions do on arrival.
-/

namespace Sys2Proof.Machine

def teId (v : Nat) : Nat := fld v 511 496
def teDir (v : Nat) : Nat := fld v 488 488
def teCore (v : Nat) : Nat := fld v 487 475
def teLayer (v : Nat) : Nat := fld v 474 459
def teSource (v : Nat) : Nat := fld v 458 403
def teDest (v : Nat) : Nat := fld v 402 347
def teBytes (v : Nat) : Nat := fld v 346 315
def teNoticeCore (v : Nat) : Nat := fld v 314 302
def teNoticeRing (v : Nat) : Nat := fld v 301 299
def teReceipt (v : Nat) : Nat := fld v 282 227

def entryAt (m : Mach) (i k : Nat) : Xfer := (ctxAt m i).gey.entries.getD k {}
def modEntry (i k : Nat) (f : Xfer → Xfer) (m : Mach) : Mach :=
  modGey i (fun g => { g with entries := g.entries.modify k f }) m

/-- The axis of an entry's kind, as a cut: 1 tensor, 2 pipeline. -/
def entryCut (v : Nat) : Nat := if teKind v == 0 then 2 else 1

/-- The offsets of an entry's chunks of at most 16,320 octets (R492). -/
def chunkOffs (bytes : Nat) : List Nat := (List.range (ceilDiv bytes 16320)).map (· * 16320)

/-- R492: the Detail of a chunk. -/
def chunkDetail (kind id off : Nat) : Nat := kind * 2 ^ 60 + id * 2 ^ 44 + off * 2 ^ 8

/-- R441, R442: the receipt that the owner of a shard forms. -/
def ownReceipt (m : Mach) (i obj : Nat) : List Byte :=
  let s := m.shards.get obj (mkPair 32 0, mkPair 32 0)
  leBytes 2 obj ++ leBytes 2 (cutRank m (ctxAt m i) 1) ++ leBytes 4 s.1.v ++ leBytes 4 s.2.v ++ leBytes 4 0

/-- The pair of an owned shard's values agrees (R441). -/
def shardOk (m : Mach) (obj : Nat) : Bool :=
  match m.shards.find obj with
  | some s => pairOk 32 s.1.v s.1.c && pairOk 32 s.2.v s.2.c
  | none => true

/-- The parts that must land before an entry's notice: (rank, offset). -/
def wantedParts (m : Mach) (i v : Nat) : List (Nat × Nat) :=
  let n := cutSize m (ctxAt m i) 1
  let offs := chunkOffs (teBytes v)
  match teKind v with
  | 1 => (List.range n).flatMap (fun q => offs.map (fun o => (q, o)))
  | 2 => (List.range n).flatMap (fun q => offs.map (fun o => (q, o)))
  | _ => offs.map (fun o => (0, o))

/-- R493: a part lands; the notice follows when every part has. -/
def landPart (i k q off : Nat) (m : Mach) : Mach :=
  let e := entryAt m i k
  let l := if e.landed.contains (q, off) then e.landed else e.landed ++ [(q, off)]
  let m1 := modEntry i k (fun e => { e with landed := l }) m
  if !e.noticed && (wantedParts m i e.desc.v).all l.contains then
    postEntry .notice 0 (teNoticeCore e.desc.v) (teNoticeRing e.desc.v) (noticeEntry (teNoticeRing e.desc.v))
      (modEntry i k (fun e => { e with noticed := true }) m1)
  else m1

/-- Writes octets of the context's own areas (R53, R55). -/
def areaPut (i va : Nat) (bs : List Byte) (m : Mach) : Mach := ownPut i va bs m

/-- The plus or minus neighbour of the device on an entry's axis. -/
def entryPeer (m : Mach) (i v dir : Nat) : Nat :=
  let c := ctxAt m i
  let k := entryCut v
  let n := cutSize m c k
  cutPeer m c k ((cutRank m c k + (if dir == 0 then 1 else n - 1)) % n)

/-- Sends a SHARD chunk in the plus direction and counts its data. -/
def sendShard (i v off : Nat) (receipt data : List Byte) (m : Mach) : Mach :=
  countN 0x6B00 0x0B data.length
    (sendFrom (16 + homeDie m.mem (vpnOf (teSource v))) (mkTxn m (ctxAt m i) 0x09 (entryPeer m i v 0) (chunkDetail (teKind v) (teId v) off) (.raw (receipt ++ data))) m)

/-- The chunks of a span of a context's data: (offset, octets). -/
def chunksOf (m : Mach) (va bytes : Nat) : List (Nat × List Byte) :=
  (chunkOffs bytes).map (fun o => (o, vget m.mem (va + o) (min 16320 (bytes - o))))

/-- A PIPE chunk reaches the device (R490, R493). -/
def pipeLands (i k off : Nat) (data : List Byte) (m : Mach) : Mach :=
  landPart i k 0 off (areaPut i (teDest (entryAt m i k).desc.v + off) data m)

/-- R490: PIPE. -/
def firePipe (i k : Nat) (m : Mach) : Mach :=
  let v := (entryAt m i k).desc.v
  let peer := entryPeer m i v (teDir v)
  (chunksOf m (teSource v) (teBytes v)).foldl (fun m ch =>
    let m1 := countN 0x6B00 0x0A ch.2.length m
    if peer == ownCoord m then pipeLands i k ch.1 ch.2 m1
    else sendFrom (16 + homeDie m.mem (vpnOf (teSource v + ch.1))) (mkTxn m (ctxAt m i) 0x07 peer (chunkDetail 0 (teId v) ch.1) (.raw ch.2)) m1) m

/-- R490, R491: GATHER and REGATHER: the own shard and its receipt land here and travel plus. -/
def fireGather (i k : Nat) (m : Mach) : Mach :=
  let v := (entryAt m i k).desc.v
  let c := ctxAt m i
  let n := cutSize m c 1
  let r := cutRank m c 1
  if !shardOk m (teShard v) then ctxError 0x0B07 i m
  else
    let rc := ownReceipt m i (teShard v)
    (chunksOf m (teSource v) (teBytes v)).foldl (fun m ch =>
      let m1 := areaPut i (teDest v + r * teBytes v + ch.1) ch.2 m
      let m2 := if n == 1 then m1 else sendShard i v ch.1 rc ch.2 m1
      landPart i k r ch.1 m2) (areaPut i (teReceipt v + 16 * r) rc m)

/-- Octet-wise groups of four summed in binary32 RNE. -/
def addF32 (a b : List Byte) : List Byte :=
  ((groupsOf (a.length / 4) 4 a).zip (groupsOf (b.length / 4) 4 b)).flatMap (fun p => leBytes 4 (F32.addC .rne false p.1 p.2))

/-- R490, R491: a partial sum of part q meets this rank's own part: it is forwarded, or it is final. -/
def addPart (i k pos : Nat) (data : List Byte) (m : Mach) : Mach :=
  let v := (entryAt m i k).desc.v
  let c := ctxAt m i
  let r := cutRank m c 1
  let q := pos / teBytes v
  let f := readCheck m.mem (teSource v + pos) data.length
  if f != 0 then memFault f i m
  else
    let sum := addF32 data (vget m.mem (teSource v + pos) data.length)
    let m1 := onMem (vtouch (teSource v + pos) data.length) m
    if q == r then landPart i k 0 (pos % teBytes v) (areaPut i (teDest v + pos % teBytes v) sum m1)
    else sendShard i v pos (List.replicate 16 0) sum m1

/-- R490, R491: RSCATTER: this rank's part for its minus neighbour starts the ring; waiting sums go on. -/
def fireScatter (i k : Nat) (m : Mach) : Mach :=
  let e := entryAt m i k
  let v := e.desc.v
  let c := ctxAt m i
  let n := cutSize m c 1
  let q := (cutRank m c 1 + n - 1) % n
  let m1 := modEntry i k (fun e => { e with parts := [] }) m
  let m2 := (chunksOf m (teSource v + q * teBytes v) (teBytes v)).foldl (fun m ch =>
    if n == 1 then landPart i k 0 ch.1 (areaPut i (teDest v + ch.1) ch.2 m)
    else sendShard i v (q * teBytes v + ch.1) (List.replicate 16 0) ch.2 m) m1
  e.parts.foldl (fun m p => addPart i k p.1 p.2 m) m2

/-- The octets of SourceVa that an entry reads. -/
def sourceBytes (m : Mach) (i v : Nat) : Nat := if teKind v == 3 then cutSize m (ctxAt m i) 1 * teBytes v else teBytes v

/-- R488, R489: an entry fires. -/
def fireEntry (i k : Nat) (m : Mach) : Mach :=
  let e := entryAt m i k
  let v := e.desc.v
  let c := ctxAt m i
  if e.fired || c.st != .run || c.pass.aborted then m
  else
    let f := readCheck m.mem (teSource v) (sourceBytes m i v)
    if f != 0 then memFault f i m
    else
      let m1 := modEntry i k (fun e => { e with fired := true }) (onMem (vtouch (teSource v) (sourceBytes m i v)) m)
      match teKind v with
      | 0 => firePipe i k m1
      | 3 => fireScatter i k m1
      | _ => fireGather i k m1

/-- R489: the entries that a layer drain of a core fires, or (layer 0xFFFF) the begin barrier. -/
def fireEntries (i : Nat) (core : Option Nat) (layer : Nat) (m : Mach) : Mach :=
  let es := (ctxAt m i).gey.entries
  if !entriesOk m i then ctxError 0x0B07 i m
  else (List.range es.length).foldl (fun m k =>
    let v := (es.getD k {}).desc.v
    if teLayer v == layer && (match core with | some c => teCore v == c | none => true) then fireEntry i k m else m) m

/-! ### Arrival -/

/-- The entry that a chunk names (R492). -/
def chunkEntry (m : Mach) (i : Nat) (t : Txn) : Option Nat :=
  let es := (ctxAt m i).gey.entries
  (List.range es.length).find? (fun k => teId (es.getD k {}).desc.v == fld t.detail 59 44)

/-- The context and the entry that a PIPE_SLOT or SHARD transaction names; stale ones are counted (R494, R425). -/
def withEntry (t : Txn) (f : Nat → Nat → Mach → Mach) (m : Mach) : Mach :=
  match ctxOfTag m t.jobTag with
  | none => count 0x6900 0x0C m
  | some i =>
    let c := ctxAt m i
    if !sameTag c t || c.st != .run then count 0x6B00 0x0C m
    else if !entriesOk m i then ctxError 0x0B07 i m
    else
      match chunkEntry m i t with
      | none => m
      | some k =>
        if teKind (entryAt m i k).desc.v != fld t.detail 63 60 then m
        else f i k m

/-- PIPE_SLOT on machine state: the receiver's own entry of that EntryId gives the place (log entry 34). -/
def takePipe (t : Txn) (m : Mach) : Mach := withEntry t (fun i k m => pipeLands i k (fld t.detail 39 8) (rawOf t) m) m

/-- R443: an arriving receipt differs from the stored one in Generation or CommitStep. -/
def receiptDiffers (m : Mach) (va : Nat) (rc : List Byte) : Bool := vget m.mem (va + 4) 8 != slice rc 4 8

/-- R443, R506: the shard-version check trips. -/
def shardTrip (i : Nat) (m : Mach) : Mach :=
  let m1 := notifyCode 0x0B03 i (if afterCommit (ctxAt m i) then 2 else 0) (count 0x6B00 0x08 m)
  abortPass i 4 true (modPass i (fun p => { p with errCode := 0x0B03 }) m1)

/-- A GATHER or REGATHER shard chunk arrives (R490, R491, R443). -/
def takeGatherShard (i k off : Nat) (rc data : List Byte) (m : Mach) : Mach :=
  let v := (entryAt m i k).desc.v
  let c := ctxAt m i
  let n := cutSize m c 1
  let q := octs rc 2 2
  let m1 := if (cutRank m c 1 + 1) % n == q then m else sendShard i v off rc data m
  if decide (q ≥ n) then m1
  else
    let slot := teReceipt v + 16 * q
    let f := readCheck m.mem slot 16
    if f != 0 then memFault f i m1
    else if teKind v == 2 && receiptDiffers m slot rc then shardTrip i m1
    else
      let m2 := if teKind v == 1 then areaPut i slot rc m1 else m1
      landPart i k q off (areaPut i (teDest v + q * teBytes v + off) data m2)

/-- SHARD on machine state. -/
def takeShard (t : Txn) (m : Mach) : Mach :=
  withEntry t (fun i k m =>
    let rc := slice (rawOf t) 0 16
    let data := (rawOf t).drop 16
    let off := fld t.detail 39 8
    if teKind (entryAt m i k).desc.v == 3 then
      (if (entryAt m i k).fired then addPart i k off data m
       else modEntry i k (fun e => { e with parts := e.parts ++ [(off, data)] }) m)
    else takeGatherShard i k off rc data m) m

/-- What entries hold is dropped before the BEGIN of a pass. -/
def entriesPass (i : Nat) (m : Mach) : Mach :=
  modGey i (fun g => { g with entries := g.entries.map (fun e => { desc := e.desc }) }) m

/-- PIPE_SLOT (R492). -/
def execPipeSlot (t : Txn) (s : State) : Host.Outcome State Fault Refusal := .next (onM (tagged t (takePipe t)) s)

/-- SHARD (R492). -/
def execShard (t : Txn) (s : State) : Host.Outcome State Fault Refusal := .next (onM (tagged t (takeShard t)) s)

/-- The layer drain of a core ends: its queues are empty (R34), and the entries of the layer fire (R489). -/
def layerDrained (k : Nat) (m : Mach) : Mach :=
  let c := coreAt m k
  if c.st != .layer || !issues m c || !drainQuiet c || !layerLanded m c then m
  else match brokenRing m c with
    | some r => coreError k 0x0801 255 false c.pc r (count 0x6800 0x09 m)
    | none => fireEntries c.ctx (some k) (c.layer - 1) (layerDrain k m)

/-- LAYER_DRAIN_COMPLETE (R34, R489). -/
def execLayerDrainComplete (core : Nat) (s : State) : Host.Outcome State Fault Refusal := .next (onM (layerDrained core) s)

end Sys2Proof.Machine
end

