-- ==== Sys2Proof/Machine/StepCtl.lean ====
section
/-!
DEFINITION. Step control (14 R483 to R505, 01 R21 to R29): the begin barrier, READY and the commit point, aborts and the
replay discard, HALT, and the context commands.
-/

namespace Sys2Proof.Machine

/-! ### The loader's copies (R512, R513) -/

/-- The key of a descriptor's copy. -/
def copyKey (kind key : Nat) : Nat := kind * 2 ^ 40 + key

/-- A descriptor, rewritten from its copy where it fails its complement. -/
def mend (m : Mach) (w kind key : Nat) (p : Pair) : Pair :=
  if pairOk w p.v p.c then p
  else match m.copies.find (copyKey kind key) with
    | some v => mkPair w v
    | none => p

/-- R512: every descriptor of a context that fails its complement is rewritten from the loader's copy: before a replay's
BEGIN, and before the next BEGIN after an error was detected after commit. -/
def rewriteDescs (i : Nat) (m : Mach) : Mach :=
  let mine (kind key : Nat) : Bool := match m.copies.find (copyKey kind key) with
    | some v => kind != 0 || oCtx v == i
    | none => false
  let fix (kind : Nat) (l : SMap Pair) : SMap Pair := l.map (fun p =>
    if (kind == 0 || p.1 / 65536 == i) && mine kind p.1 then (p.1, mend m (if kind == 0 then 256 else 512) kind p.1 p.2) else p)
  let m1 := { m with
    streams := fix 1 m.streams, smpDescs := fix 2 m.smpDescs, gsDescs := fix 3 m.gsDescs,
    targets := m.targets.map (fun p => if p.1 / 65536 == i then (p.1, { p.2 with desc := mend m 512 4 p.1 p.2.desc }) else p),
    mem := { m.mem with objects := fix 0 m.mem.objects },
    cores := m.cores.map (fun p => if p.2.ctx == i then (p.1, { p.2 with
      rings := p.2.rings.map (fun r => (r.1, { r.2 with desc := mend m 256 5 (p.1 * 8 + r.1) r.2.desc })) }) else p) }
  modGey i (fun g => { g with
    header := mend m 512 6 i g.header,
    buckets := (g.buckets.zip (List.range g.buckets.length)).map (fun b => { b.1 with desc := mend m 256 7 (dkeyOf i b.2) b.1.desc }),
    entries := (g.entries.zip (List.range g.entries.length)).map (fun e => { e.1 with desc := mend m 512 8 (dkeyOf i e.2) e.1.desc }) }) m1

/-! ### Beginning a pass (R496, R497, R501) -/

/-- R495: the data of a BEGIN. -/
def beginData (c : Ctx) : List Byte :=
  leBytes 8 c.seed ++ leBytes 2 c.devCount ++ (List.range 4).flatMap (fun k => leBytes 1 (c.axes.getD k 255)) ++ leBytes 2 0

/-- The BEGINs held for the context's present step and replay count. -/
def currentBegins (c : Ctx) : List BeginRec :=
  c.pass.begins.filter (fun b => b.step == c.step && b.replay == c.replay % 65536)

/-- R482: a core without instructions has no work in the step. -/
def beginCore (c : Core) : Core :=
  let c1 := startCore c
  if c.resident.isEmpty then { c1 with st := .ended } else c1

/-- R292: the streams of instruction rings restart from their first slot. -/
def startStreams (i : Nat) (m : Mach) : Mach :=
  (coresOf m i).foldl (fun m k => issueFetches k (coreAt m k).iringRing m) m

/-- What passing the barrier starts: S of the pass (R496). -/
def enterPass (i u : Nat) (m : Mach) : Mach :=
  let c := ctxAt m i
  let strict := dnum m 0x2100 0x03 == 1
  let first := c.pass.passes == 0
  let m1 := modCtx i (fun c => { c with
    everRan := true,
    predMiss := if first then dlat m c 0x2240 0x02 else c.predMiss,
    predAudits := if first then dlat m c 0x2240 0x05 else c.predAudits,
    pass := { c.pass with
    running := true, startAt := m.dev.time10, stepCauses := (c.pass.stepCauses ||| u), passes := c.pass.passes + 1,
    strict := if c.pass.passes == 0 then strict else c.pass.strict,
    begins := c.pass.begins.filter (fun b => !(b.step == c.step && b.replay == c.replay % 65536)) } }) (waitEnds i m)
  let m2 := count 0x6B00 0x02 m1
  let m3 := if first then copyWorking i (tablesStart i m2) else m2
  let m4 := c.claims.engines.foldl (fun m e => advanceEngine e m) m3
  let m5 := geyserStart i (u != 0 && u &&& 7 == 0) m4
  fireEntries i none 0xFFFF (startStreams i (eachCore i beginCore (startTableReads i (startCopies i m5))))

/-- R462, R463: a pass that repeats the last one for a saturation, a calibration or both is counted as such. -/
def countRepeat (i u : Nat) (m : Mach) : Mach :=
  let m1 := if tbit u 3 then count 0x6A00 0x04 (modPass i (fun p => { p with satRepeats := p.satRepeats + 1 }) m) else m
  if tbit u 4 then count 0x6A00 0x05 m1 else m1

/-- R496, R501: the barrier is passed once a BEGIN of every device of the group is held; U decides what follows. -/
def tryBarrier (i : Nat) (m : Mach) : Mach :=
  let c := ctxAt m i
  let bs := currentBegins c
  if c.st != .run || !c.pass.sentBegin || c.pass.running || c.pass.aborted ||
      !(groupOf m c).all (fun d => bs.any (fun b => b.coord == d)) then m
  else
    let u := bs.foldl (fun a b => a ||| b.causes) 0
    if u &&& 7 == 0 then enterPass i u (countRepeat i u m)
    else
      let trips := c.pass.shardTrips + (if tbit u 2 then 1 else 0)
      let m1 := count 0x6B00 0x03 (modPass i (fun p => { p with counted := p.counted + 1, shardTrips := trips, stepCauses := (p.stepCauses ||| u) }) m)
      if tbit u 2 && decide (trips ≥ 2) then failCtx i 0x0B03 0x09 255 0 0 m1
      else if decide (c.pass.counted + 1 > dlatB m c 0x8100 0x02) then failCtx i c.pass.errCode 0x02 255 0 0 m1
      else enterPass i u m1

/-- The context may send the BEGIN of its next pass: of a first pass when a step is granted, of a replay when its
discard is complete; every repair has ended (R484, R496, R518). -/
def mayBegin (m : Mach) (c : Ctx) : Bool :=
  m.dev.st == .run && c.repairs.isEmpty &&
    ((c.st == .idle && c.grant != 0 && !c.holdReq) ||
     (c.st == .run && !c.pass.sentBegin && !c.pass.running && !c.pass.aborted && !c.pass.committed))

/-- R496, R501, R504: sends BEGIN and waits at the barrier. -/
def sendBegin (i : Nat) (m : Mach) : Mach :=
  let c := ctxAt m i
  let own : BeginRec := ⟨ownCoord m, c.step, c.replay % 65536, c.pass.causes⟩
  let early := c.pass.early.filter (fun b => b.step == c.step && b.replay == c.replay % 65536)
  let m1 := modCtx i (fun c => { c with
    latB := latch m beginEntries
    pass := { c.pass with
      sentBegin := true, waitSince := m.dev.time10, deadlineUs := c.deadlineUs, commitUs := c.commitUs, readies := [],
      sentCauses := 0, sentReady := false, committed := false, xDone := false, oDone := false, pendingErr := false, causes := 0,
      ashSubs := 0, begins := c.pass.begins ++ [own], early := [] } }) m
  let m2 := sendCtrl 0x1 c.pass.causes (beginData c) i m1
  if early.isEmpty then tryBarrier i m2 else abortPass i (early.foldl (fun a b => a ||| b.causes) 0) false m2

/-- Begins a pass if the context may (R183, R484, R496). -/
def startPass (i : Nat) (m : Mach) : Mach :=
  let c := ctxAt m i
  if !mayBegin m c then m
  else if !stepPairOk c then stepFault i m
  else
    let m0 := if c.st == .run || c.mendDue then modCtx i (fun c => { c with mendDue := false }) (rewriteDescs i m) else m
    let m1 := if c.st == .idle then
        repeatQ4 i (modCtx i (fun c => { c with
          st := .run, replay := 0, pass := { begins := c.pass.begins, early := c.pass.early } }) m0)
      else m0
    sendBegin i (entriesPass i (geyserPass i m1))

/-- Every context begins what it may. -/
def startAll (m : Mach) : Mach := (List.range 16).foldl (fun m i => startPass i (startRepairs i m)) m

/-- The pass of a STEP_CTRL transaction lies before the context's (R499). -/
def stalePass (c : Ctx) (t : Txn) : Bool :=
  decide (t.step < c.step) || (t.step == c.step && decide (t.replay < c.replay % 65536))

/-- Takes a STEP_CTRL transaction to its context; HALT is final (R425, R484). -/
def withCtrl (t : Txn) (f : Nat → Mach → Mach) (m : Mach) : Mach :=
  match ctxOfTag m t.jobTag with
  | none => count 0x6900 0x0C m
  | some i => if (ctxAt m i).st == .halt then m else f i m

/-- BEGIN (R496, R497). -/
def takeBegin (t : Txn) (m : Mach) : Mach :=
  withCtrl t (fun i m =>
    let c := ctxAt m i
    if stalePass c t then count 0x6B00 0x0C m
    else if slice (rawOf t) 0 16 != beginData c then progFault 0x0B08 i m
    else
      let b : BeginRec := ⟨t.src, t.step, t.replay, fld t.detail 59 52⟩
      let keep := c.pass.begins.filter (fun x => !(x.coord == b.coord && x.step == b.step && x.replay == b.replay))
      tryBarrier i (startRepairs i (modPass i (fun p => { p with begins := keep ++ [b] }) m))) m

/-! ### Ready and commit (R21 to R24, R498) -/

/-- R296, R498: every core of the context has completed its step work. -/
def coresDone (m : Mach) (i : Nat) : Bool :=
  m.cores.all (fun p => p.2.ctx != i || (p.2.st == .ended && coreQuiet p.2)) &&
  m.engines.all (fun e => (e.2.queue ++ e.2.running).all (fun o => o.key / 65536 != i)) &&
  m.samplers.all (fun s => s.2.queue.all (fun k => k / 65536 != i) && (match s.2.run with | some r => r.key / 65536 != i | none => true)) &&
  m.sinters.all (fun u => match u.2.run with | some ⟨k, _, _⟩ => (coreAt m k).ctx != i | none => true)

/-- R498: O is complete. -/
def oReady (m : Mach) (i : Nat) : Bool :=
  let c := ctxAt m i
  c.st == .run && c.pass.running && !c.pass.aborted && !c.pass.sentReady && !c.pass.pendingErr && c.pass.xDone &&
  m.targets.all (fun t => t.1 / 65536 != i || t.2.closed) && coresDone m i

/-- R21: the commit point: the step is committed on this device. -/
def tryCommit (i : Nat) (m : Mach) : Mach :=
  let c := ctxAt m i
  if c.pass.sentReady && !c.pass.committed && !c.pass.aborted && (groupOf m c).all c.pass.readies.contains then
    count 0x6B00 0x01 ((if c.pass.nonStrict then count 0x6B00 0x06 else id) ((if c.pass.strict then count 0x2100 0x0A else id)
      (modCtx i (fun c => { c with lastCommitted := c.step, pass := { c.pass with committed := true, commitAt := nowNs m } }) m)))
  else m

/-- O_COMPLETE: READY is sent. -/
def oComplete (i : Nat) (m : Mach) : Mach :=
  if !oReady m i then m
  else stepUsed i (fun m => tryCommit i (sendCtrl 0x2 0 [] i (modPass i (fun p => { p with
    oDone := true, sentReady := true, readyAt := m.dev.time10, readies := p.readies ++ [ownCoord m] }) m))) m

/-- READY of another device (R21). -/
def takeReady (t : Txn) (m : Mach) : Mach :=
  withCtrl t (fun i m =>
    let c := ctxAt m i
    if !sameTag c t || c.st != .run || !c.pass.sentBegin then count 0x6B00 0x0C m
    else tryCommit i (modPass i (fun p => { p with readies := if p.readies.contains t.src then p.readies else p.readies ++ [t.src] }) m)) m

/-- R24, R498, R520: the commit wait exceeds its limit. -/
def commitLate (i : Nat) (m : Mach) : Mach :=
  let c := ctxAt m i
  if c.st != .run || !c.pass.sentReady || c.pass.committed || c.pass.aborted then m
  else failCtx i 0x0B05 0x05 255 0 2 (timeTo (c.pass.readyAt + c.pass.commitUs * 10000) m)

/-- R497, R467: no READY by the step deadline. -/
def stepLate (i : Nat) (m : Mach) : Mach :=
  let c := ctxAt m i
  if c.st != .run || !c.pass.running || c.pass.sentReady || c.pass.aborted then m
  else
    let m1 := count 0x6B00 0x09 (timeTo (c.pass.startAt + c.pass.deadlineUs * 10000) m)
    let m2 := abortPass i 2 true (modPass i (fun p => { p with errCode := 0x0B04 }) (notifyCode 0x0B04 i 0 m1))
    if !bucketsOk m2 i then scaleCheck i m2 else if c.gey.buckets.all bucketDone then m2 else ctxError 0x0A02 i m2

/-- R520: the wait at a begin barrier exceeds StepDeadline. -/
def barrierLate (i : Nat) (m : Mach) : Mach :=
  let c := ctxAt m i
  if c.st != .run || !c.pass.sentBegin || c.pass.running || c.pass.aborted then m
  else failCtx i 0 0x07 255 0 0 (timeTo (c.pass.waitSince + c.pass.deadlineUs * 10000) m)

/-! ### Abort and replay (R25 to R28, R499, R500) -/

/-- ABORT of another device. -/
def takeAbort (t : Txn) (m : Mach) : Mach :=
  withCtrl t (fun i m =>
    let c := ctxAt m i
    let u := fld t.detail 59 52
    if decide (t.step < c.step) || (sameTag c t && c.pass.committed) then count 0x6B00 0x05 m
    else if t.step == c.step && c.st == .run && !c.pass.sentBegin && !c.pass.running && t.replay + 1 == c.replay % 65536 then
      modPass i (fun p => { p with causes := (p.causes ||| u) }) m
    else if stalePass c t then count 0x6B00 0x0C m
    else if sameTag c t && c.st == .run && (c.pass.sentBegin || c.pass.running) then abortPass i u false m
    else modPass i (fun p => { p with early := p.early ++ [⟨t.src, t.step, t.replay, u⟩] }) m) m

/-- R26, R27: what a replay discard drops of a context, without completing it. -/
def discardWork (i : Nat) (m : Mach) : Mach :=
  let mine (key : Nat) : Bool := key / 65536 == i
  let core (k : Nat) : Bool := (coreAt m k).ctx == i
  let m1 := { m with
    samplers := m.samplers.map (fun s => (s.1, { s.2 with
      queue := s.2.queue.filter (fun k => !mine k),
      incoming := s.2.incoming.filter (fun w => ctxOfTag m w.t.jobTag != some i),
      run := match s.2.run with | some r => if mine r.key then none else some r | none => none })),
    engines := m.engines.map (fun e => (e.1, { e.2 with
      queue := e.2.queue.filter (fun o => !mine o.key), running := e.2.running.filter (fun o => !mine o.key),
      ordinals := e.2.ordinals.filter (fun x => !mine (x.1 / 16)), issuers := e.2.issuers.filter (fun x => !mine x.1) })),
    served := m.served.filter (fun v => ctxOfTag m v.t.jobTag != some i),
    targets := m.targets.map (fun t => if mine t.1 then (t.1, t.2.fresh) else t),
    sinters := m.sinters.map (fun u => match u.2.run with
      | some ⟨k, _, _⟩ => if core k then (u.1, {}) else u
      | none => if (ctxAt m i).claims.clusters.contains u.1 then (u.1, {}) else u),
    mem := { m.mem with
      readCounts := m.mem.readCounts.filter (fun x => pageCtx m.mem x.1 != some i),
      xfersStalled := m.mem.xfersStalled.filter (fun x => !core (x / 8)) } }
  stopCopies i (eachCore i discardCore (modCtx i (fun c => { c with upd := [], layersOff := [] }) m1))

/-- R26 to R28, R529: the replay discard ends; the next pass of the step follows. -/
def discardDone (i : Nat) (m : Mach) : Mach :=
  let c := ctxAt m i
  if c.st != .run || !c.pass.discarding then m
  else
    let m1 := resetPointers (tablesDiscard i (discardWork i m))
    let m2 := modCtx i (fun c => { c with
      replay := c.replay + 1,
      pass := { c.pass with aborted := false, discarding := false, waitX := false, running := false, sentBegin := false,
                            sentReady := false, xDone := false, oDone := false, readies := [] } }) m1
    startPass i (startRepairs i (fastSend i m2))

/-- HALT of another device (R500). -/
def takeHalt (t : Txn) (m : Mach) : Mach := withCtrl t (fun i m => failCtx i 0x0B06 0x08 255 0 0 m) m

/-! ### Context commands (R484, R505, R32) -/

/-- A write of `0x8000.03` for a context: HOLD, RELEASE, HALT, clear the grant. -/
def ctxControl (i v : Nat) (m : Mach) : Except Nat Mach :=
  let c := ctxAt m i
  let dead := c.st == .free || c.st == .halt
  match v with
  | 1 =>
    if dead then .error 0x0B200001
    else .ok (deviceAuto (modCtx i (fun c => { c with
      holdReq := true, st := if c.st == .idle then .held else c.st }) m))
  | 2 =>
    if c.st != .held then .error 0x0B200001
    else .ok (startPass i (startRepairs i (repeatQ4 i (modCtx i (fun c => { c with holdReq := false, st := .idle }) m))))
  | 3 => if dead then .error 0x0B200001 else .ok (deviceAuto (haltCtx i m))
  | 4 => if c.st == .free then .error 0x0B200001 else .ok (modCtx i (fun c => { c with grant := 0 }) m)
  | _ => .error 0x0E200007

/-- Lifts the outcome of a write of the machine. -/
def liftM (s : State) : Except Nat Mach → WR
  | .ok m => .ok { s with m := m }
  | .error c => .error c

/-! ### Meanings -/

/-- O_COMPLETE (R498). -/
def execOComplete (ctx : Nat) (s : State) : Host.Outcome State Fault Refusal := .next (onM (oComplete ctx) s)

/-- READY (R21, R495). -/
def execReady (t : Txn) (s : State) : Host.Outcome State Fault Refusal := .next (onM (tagged t (takeReady t)) s)

/-- COMMIT_WAIT_LIMIT (R24). -/
def execCommitWaitLimit (ctx : Nat) (s : State) : Host.Outcome State Fault Refusal := .next (onM (commitLate ctx) s)

/-- STEP_DEADLINE (R497). -/
def execStepDeadline (ctx : Nat) (s : State) : Host.Outcome State Fault Refusal := .next (onM (stepLate ctx) s)

/-- BARRIER_WAIT_TIMEOUT (R520). -/
def execBarrierWaitTimeout (ctx : Nat) (s : State) : Host.Outcome State Fault Refusal := .next (onM (barrierLate ctx) s)

/-- BEGIN (R496). -/
def execBegin (t : Txn) (s : State) : Host.Outcome State Fault Refusal := .next (onM (tagged t (takeBegin t)) s)

/-- ABORT (R499, R500). -/
def execAbort (t : Txn) (s : State) : Host.Outcome State Fault Refusal := .next (onM (tagged t (takeAbort t)) s)

/-- REPLAY_DISCARD_COMPLETE (R26, R27). -/
def execReplayDiscardComplete (ctx : Nat) (s : State) : Host.Outcome State Fault Refusal := .next (onM (discardDone ctx) s)

/-- HALT (R500). -/
def execHalt (t : Txn) (s : State) : Host.Outcome State Fault Refusal := .next (onM (tagged t (takeHalt t)) s)

/-- NOTIFY (R422, R425): the manual gives a received fault notice no effect beyond R425. -/
def takeNotify (t : Txn) (m : Mach) : Mach := if (ctxOfTag m t.jobTag).isNone then count 0x6900 0x0C m else m

/-- NOTIFY (R422). -/
def execNotify (t : Txn) (s : State) : Host.Outcome State Fault Refusal := .next (onM (tagged t (takeNotify t)) s)

/-- HOLD (R484, R505). -/
def execHold (ctx : Nat) (s : State) : Host.Outcome State Fault Refusal := .next (answerIn s (liftM s (ctxControl ctx 1 s.m)))

/-- RELEASE (R484, R505). -/
def execRelease (ctx : Nat) (s : State) : Host.Outcome State Fault Refusal := .next (answerIn s (liftM s (ctxControl ctx 2 s.m)))

/-- CONTEXT_HALT (R484, R505). -/
def execContextHalt (ctx : Nat) (s : State) : Host.Outcome State Fault Refusal := .next (answerIn s (liftM s (ctxControl ctx 3 s.m)))

/-- CLEAR_GRANT (R504, R505). -/
def execClearGrant (ctx : Nat) (s : State) : Host.Outcome State Fault Refusal := .next (answerIn s (liftM s (ctxControl ctx 4 s.m)))

/-- SINTER_COMMAND (R361 to R365). -/
def execSinterCommand (cluster : Nat) (s : State) : Host.Outcome State Fault Refusal := .next (onM (sinterTake cluster) s)

/-- SINTER_COMMAND_COMPLETE (R367). -/
def execSinterCommandComplete (cluster : Nat) (s : State) : Host.Outcome State Fault Refusal := .next (onM (sinterDone cluster) s)

end Sys2Proof.Machine
end

