-- ==== Sys2Proof/Machine/LoadCheck.lean ====
section
/-!
DEFINITION. The loader's checks in the order of 08 R312 (with 02 R46 to R51, R64, R665; 03 R105, R106, R114, R119; 04
R128, R129, R133, R134, R149, R155, R162, R166, R671; 08 R279, R288, R291, R294, R304; 11 R401; 13 R448 to R451; 14
R478 to R480, R494). Each check answers the abort code of R312's row.
-/

namespace Sys2Proof.Machine

/-- A check with its abort code. -/
def need (ok : Bool) (code : Nat) : Except Nat Unit := if ok then .ok () else .error code

/-- Replaces bits hi:lo of a value. -/
def setFld (x hi lo v : Nat) : Nat := x - fld x hi lo * 2 ^ lo + (v % 2 ^ (hi + 1 - lo)) * 2 ^ lo

/-- No value occurs twice. -/
def distinct (l : List Nat) : Bool := (dedupKeep l).length == l.length

/-- The set bits of a map of n bits. -/
def bitsOf (n x : Nat) : List Nat := (List.range n).filter (tbit x)

/-! ### Orders 1 to 3: header, contexts, clusters (R478 to R481, R311) -/

def hdrAxes (h : List Byte) : List Nat := (List.range 4).map (fun k => octs h (22 + k) 1)
def hdrCount (h : List Byte) : Nat := octs h 3 1

/-- "PY-DV32A" padded with 0x00. -/
def partNumber : List Byte := [0x50#8, 0x59#8, 0x2D#8, 0x44#8, 0x56#8, 0x33#8, 0x32#8, 0x41#8, 0#8, 0#8, 0#8, 0#8]

/-- The product of the ring sizes of the assigned axes. -/
def axesProduct (m : Mach) (axes : List Nat) : Nat :=
  (axes.filter (fun a => decide (a ≤ 3))).foldl (fun p a => p * max 1 (ringSize m a)) 1

/-- R478, R480: the header. -/
def headerOk (m : Mach) (img : JobImage) : Bool :=
  let h := img.header
  let axes := hdrAxes h
  h.length == 64 && octs h 0 2 == 1 && decide (octs h 2 1 ≤ 1) && decide (1 ≤ hdrCount h) && decide (hdrCount h ≤ 16) &&
  hdrCount h == img.contexts.length && slice h 4 12 == partNumber && octs h 16 2 == dnum m 0x2200 0x08 &&
  octs h 18 2 == dnum m 0x2100 0x09 && decide (1 ≤ octs h 20 2) && decide (octs h 20 2 ≤ 16384) &&
  axes.all (fun a => decide (a ≤ 3) || a == 255) && distinct (axes.filter (· != 255)) && zeroOcts h 26 6 &&
  zeroOcts h 40 24 && (ownCoord? m).isSome && octs h 20 2 == axesProduct m axes

def ctxRec (img : JobImage) (k : Nat) : List Byte := (img.contexts.find? (fun r => octs r 0 1 == k)).getD []
def claimRec (img : JobImage) (k : Nat) : List Byte := (img.claims.find? (fun r => octs r 0 2 == k)).getD []
def collSec (img : JobImage) (k : Nat) : Option CollSec := (img.colls.find? (fun s => s.1 == k)).map Prod.snd

/-- A span lies in a pinned SCRATCH object of a context of the image (R479). -/
def imgScratch (img : JobImage) (k va n : Nat) : Bool :=
  img.objects.any (fun p => oCtx p.v == k && oClass p.v == 5 && oPin p.v &&
    decide ((objSpan p.v).1 ≤ va) && decide (va + n ≤ (objSpan p.v).2))

/-- A span lies in a pinned object of a context of the image. -/
def imgPinned (img : JobImage) (k va n : Nat) : Bool :=
  img.objects.any (fun p => oCtx p.v == k && oPin p.v && decide ((objSpan p.v).1 ≤ va) && decide (va + n ≤ (objSpan p.v).2))

/-- R479: a context record. -/
def ctxRecOk (m : Mach) (img : JobImage) (k : Nat) : Bool :=
  let r := ctxRec img k
  let maxMb := match collSec img k with | some s => (s.header.v >>> 24) % 256 | none => 255
  r.length == 64 && decide (1 ≤ octs r 1 1) && decide (octs r 1 1 ≤ maxMb) && decide (1 ≤ octs r 2 2) &&
  (ctxOfTag m (octs r 2 2)).isNone && decide (1 ≤ octs r 4 4) && decide (octs r 4 4 ≤ 60000000) &&
  decide (1 ≤ octs r 8 4) && decide (octs r 8 4 ≤ 1000000) && decide (octs r 12 2 ≤ 4096) && decide (1 ≤ octs r 14 2) &&
  decide (octs r 14 2 ≤ 512) && imgScratch img k (octs r 16 8) (4 * octs r 14 2) && decide (1 ≤ octs r 32 4) &&
  imgScratch img k (octs r 24 8) (32 * octs r 32 4) && zeroOcts r 36 28

/-- Order 1. -/
def checkHeader (m : Mach) (img : JobImage) : Except Nat Unit :=
  need (headerOk m img && (List.range (hdrCount img.header)).all (ctxRecOk m img) &&
    distinct (img.contexts.map (fun r => octs r 2 2))) 0x0B02

/-- The free hardware contexts, ascending. -/
def freeCtxs (m : Mach) : List Nat := (List.range 16).filter (fun i => (ctxAt m i).st == .free)

/-- R481: the hardware context of each context of the image. -/
def hwOf (m : Mach) (k : Nat) : Nat := (freeCtxs m).getD k 16

def claimClusters (r : List Byte) : List Nat := bitsOf 288 (octs r 4 36)
def claimSamplers (r : List Byte) : List Nat := bitsOf 128 (octs r 40 16)
def claimEngines (r : List Byte) : List Nat := bitsOf 128 (octs r 56 16)

/-- The contexts of an image. -/
def imgCtxs (img : JobImage) : List Nat := List.range (hdrCount img.header)

/-- The context of the image whose claim holds a core's cluster. -/
def coreOwner (img : JobImage) (core : Nat) : Option Nat :=
  (imgCtxs img).find? (fun k => (claimClusters (claimRec img k)).contains (clusterOf core))

/-- R311: a claims record. -/
def claimOk (img : JobImage) (k : Nat) : Bool :=
  let r := claimRec img k
  r.length == 96 && (img.claims.filter (fun x => octs x 0 2 == k)).length == 1 && decide (1 ≤ octs r 2 2) &&
  (claimClusters r).length == octs r 2 2 && zeroOcts r 82 14

/-- Order 3. -/
def checkClusters (m : Mach) (img : JobImage) : Except Nat Unit :=
  let all := (imgCtxs img).flatMap (fun k => claimClusters (claimRec img k))
  let held := (m.ctxs.list.filter loaded).flatMap (fun c => c.claims.clusters)
  need (img.claims.length == hdrCount img.header && (imgCtxs img).all (claimOk img) && distinct all &&
    all.all (fun x => !held.contains x) &&
    img.cores.all (fun c => decide (octs c.head 0 2 < 4608) && (coreOwner img (octs c.head 0 2)).isSome) &&
    distinct (img.cores.map (fun c => octs c.head 0 2))) 0x0113

/-! ### Orders 4 to 9: instruction memory, rings, staging, encodings, ring targets -/

/-- R291. -/
def imemOk (c : CoreRec) : Bool :=
  let n := octs c.head 6 1
  decide (octs c.head 4 2 + 32 * n ≤ 2048) && (n == 0 || decide (3 ≤ n)) && decide (n ≤ 32)

def ringDesc (p : Pair) : Ring := { desc := p }
def ringCore (p : Pair) : Nat := rdOct (ringDesc p) 0 2
def ringNum (p : Pair) : Nat := rdOct (ringDesc p) 2 1

/-- The core record of a core. -/
def coreRecOf (img : JobImage) (core : Nat) : Option CoreRec := img.cores.find? (fun c => octs c.head 0 2 == core)

/-- R383: the fields of a ring descriptor. -/
def ringFieldsOk (img : JobImage) (p : Pair) : Bool :=
  let r := ringDesc p
  let kind := rdKind r
  let src := rdOct r 5 1
  let place := rdWhere r
  let prod := rdProducer r
  let iring := match coreRecOf img (ringCore p) with
    | some c => decide (kind == 2) && octs c.head 6 1 == rdSlots r && octs c.head 7 1 == ringNum p
    | none => false
  pairOk 256 p.v p.c && decide (ringCore p < 4608) && (coreOwner img (ringCore p)).isSome && decide (ringNum p ≤ 7) &&
  (img.rings.filter (fun q => ringCore q == ringCore p && ringNum q == ringNum p)).length == 1 && r.desc.v >>> 144 == 0 &&
  match kind with
  | 0 => src == 0 && decide (place ≤ 1) && decide (prod ≤ 1) && rdBuffer r % 64 == 0 && rdSlotBytes r % 64 == 0 &&
      decide (64 ≤ rdSlotBytes r) && decide (rdSlotBytes r ≤ 1048576) && (if prod == 0 then decide (1 ≤ rdPeriod r) else rdPeriod r == 0)
  | 1 => decide (1 ≤ src) && decide (src ≤ 5) && place == 3 && prod == 0 && rdBuffer r == 0 && rdSlotBytes r == 0 && rdPeriod r == 0
  | 2 => src == 0 && place == 2 && prod == 0 && rdBuffer r == (2048 - 32 * rdSlots r) * 16 && rdSlotBytes r == 512 &&
      decide (1 ≤ rdPeriod r) && iring
  | 3 => src == 0 && decide (place ≤ 1) && prod == 0 && rdBuffer r % 64 == 0 && rdSlotBytes r % 64 == 0 &&
      decide (64 ≤ rdSlotBytes r) && decide (rdSlotBytes r ≤ 1048576) && rdPeriod r == 0
  | _ => false

/-- The buffer of a DATA or SINTER ring: where it lies (a core's operand cache or a cluster's staging) and its span. -/
def ringSpan (p : Pair) : Option (Nat × Nat × Nat) :=
  let r := ringDesc p
  if rdKind r == 0 || rdKind r == 3 then
    some (if rdWhere r == 0 then ringCore p else 2 ^ 16 + clusterOf (ringCore p), rdBuffer r, rdBuffer r + rdSlots r * rdSlotBytes r)
  else none

/-- R401: the slot buffers. -/
def ringBuffersOk (img : JobImage) : Bool :=
  let spans := img.rings.filterMap ringSpan
  let stag (p : Pair) : Nat := match coreOwner img (ringCore p) with | some k => octs (claimRec img k) 76 4 | none => 0
  img.rings.all (fun p => match ringSpan p with
    | some (w, a, z) => decide (z ≤ (if w < 2 ^ 16 then 262144 else stag p)) &&
        (spans.filter (fun q => q.1 == w && decide (a < q.2.2) && decide (q.2.1 < z))).length == 1
    | none => true)

/-- R392, R401: a stream descriptor. -/
def streamOk (img : JobImage) (p : Pair) : Bool :=
  let v := p.v
  let k := fld v 495 492
  pairOk 512 v p.c && decide (k < hdrCount img.header) && v % 2 ^ 293 == 0 && stVa v % 64 == 0 && decide (1 ≤ stSlots v) &&
  decide (1 ≤ stRows v) && decide (1 ≤ stUnits v) && decide (stUnits v ≤ 16384) && stStride v % 64 == 0 && stSlotStride v % 64 == 0 &&
  (img.streams.filter (fun q => fld q.v 511 492 == fld v 511 492)).length == 1 &&
  img.rings.any (fun r => ringCore r == stCore v && ringNum r == stRing v && rdKind (ringDesc r) == 0 &&
    rdProducer (ringDesc r) == 0 && decide (stRows v * stUnits v * 64 ≤ rdSlotBytes (ringDesc r)))

/-- Orders 5 to 7. -/
def checkRings (img : JobImage) : Except Nat Unit := do
  need (img.rings.all (fun p => decide ((img.rings.filter (fun q => ringCore q == ringCore p)).length ≤ 8))) 0x0111
  need (img.rings.all (fun p => decide (3 ≤ rdSlots (ringDesc p)) && decide (rdSlots (ringDesc p) ≤ 64))) 0x0810
  need (img.rings.all (ringFieldsOk img)) 0x0811
  need (ringBuffersOk img) 0x0812
  need (img.streams.all (streamOk img)) 0x0813
  need ((imgCtxs img).all (fun k => octs (claimRec img k) 76 4 % 65536 == 0 && decide (octs (claimRec img k) 76 4 ≤ 4194304))) 0x0114

/-- A bundle's number. -/
def bundleNat (b : List Byte) : Nat := octs b 0 16

/-- The bundles of the ring contents of a core record. -/
def ringBundles (c : CoreRec) : List Nat := groupsOf (c.ring.length / 16) 16 c.ring

/-- R279, R266: a bundle's four slot words. -/
def bundleOk (debug : Bool) (b : Nat) : Bool :=
  [0, 1, 2, 3].all (fun s => slotLegal s (slotWord b s)) && !writesClash b &&
    (debug || !(swOp (slotWord b 1) == 0x0C || swOp (slotWord b 1) == 0x0D))

/-- The S-slot opcodes that transfer control. -/
def isTransfer (op : Nat) : Bool := [0x30, 0x31, 0x32, 0x34, 0x35].contains op
def sTargetOf (w : Nat) : Nat := fld w 21 11

/-- R288, R294: the flow rules of resident code. -/
def flowOk (bundles : List Nat) : Bool :=
  let ws := bundles.map (fun b => slotWord b 0)
  let ix := ws.zip (List.range ws.length)
  let n := ws.length
  let loops := (ix.filter (fun p => swOp p.1 == 0x33)).map (fun p => (p.2, sTargetOf p.1))
  let within (a : Nat) (l : Nat × Nat) : Bool := decide (l.1 < a) && decide (a ≤ l.2)
  ix.all (fun p =>
    let op := swOp p.1
    let inside := loops.filter (within p.2)
    (!(op == 0x30 || op == 0x31 || op == 0x33) || decide (sTargetOf p.1 < n)) && op != 0x35 &&
    (op != 0x33 || (decide (p.2 < sTargetOf p.1) && inside.all (fun l => decide (sTargetOf p.1 ≤ l.2)) && decide (inside.length ≤ 1))) &&
    (!loops.any (fun l => l.2 == p.2) || !(isTransfer op || op == 0x33 || op == 0x37)) &&
    (inside.isEmpty || !(op == 0x31 || op == 0x32 || op == 0x37)) &&
    (op != 0x30 || inside.all (within (sTargetOf p.1)))) &&
  match ws.getLast? with
  | some w => [0x30, 0x32, 0x37].contains (swOp w) && swPred w == 0 && !swNeg w
  | none => false

/-- R294: ring code. -/
def ringCodeOk (bundles : List Nat) : Bool :=
  bundles.all (fun b => !([0x30, 0x31, 0x32, 0x33, 0x34, 0x37].contains (swOp (slotWord b 0))))

/-- R290: a core record. -/
def coreRecOk (c : CoreRec) : Bool :=
  let n := octs c.head 6 1
  c.head.length == 32 && decide (1 ≤ octs c.head 4 2) && c.resident.length == octs c.head 4 2 &&
  decide (octs c.head 2 2 < octs c.head 4 2) && zeroOcts c.head 20 12 &&
  (if n == 0 then octs c.head 7 1 == 255 && octs c.head 8 8 == 0 && octs c.head 16 4 == 0 && c.ring.isEmpty
   else decide (octs c.head 7 1 ≤ 7) && decide (1 ≤ octs c.head 16 4) && c.ring.length == 512 * octs c.head 16 4)

/-- Order 8. -/
def checkCode (img : JobImage) : Except Nat Unit :=
  let debug := tbit (octs img.header 2 1) 0
  need (img.cores.all (fun c =>
    let rs := c.resident.map bundleNat
    let ns := ringBundles c
    coreRecOk c && (rs ++ ns).all (bundleOk debug) && flowOk rs && ringCodeOk ns &&
      (octs c.head 6 1 == 0 || imgPinned img ((coreOwner img (octs c.head 0 2)).getD 16) (octs c.head 8 8) (512 * octs c.head 16 4)))) 0x0110

/-- A ring of a kind is declared on a core of a context. -/
def ringIs (img : JobImage) (k core ring : Nat) (kind : Option Nat) : Bool :=
  coreOwner img core == some k && img.rings.any (fun p => ringCore p == core && ringNum p == ring &&
    (match kind with | some x => rdKind (ringDesc p) == x | none => true))

/-- The rings that a bundle of a core names, with the kind each needs. -/
def bundleRings (b : Nat) : List (Nat × Option Nat) :=
  let s := slotWord b 0
  let t := slotWord b 3
  (if swOp s == 0x34 then [(fld s 5 3, some 2)] else []) ++
  (if swOp t == 0x04 then [(fld t 5 3, some 1)]
   else if [0x08, 0x09, 0x0A, 0x0B].contains (swOp t) then [(fld t 21 19, none)] else [])

/-- Order 9 (R304): every ring that the image names is declared, of the right kind, and of the context that names it. -/
def checkTargets (img : JobImage) : Except Nat Unit :=
  need (img.cores.all (fun c =>
      let core := octs c.head 0 2
      let k := (coreOwner img core).getD 16
      (c.resident.map bundleNat ++ ringBundles c).all (fun b => (bundleRings b).all (fun r => ringIs img k core r.1 r.2)) &&
      (octs c.head 6 1 == 0 || ringIs img k core (octs c.head 7 1) (some 2))) &&
    img.streams.all (fun p => coreOwner img (stCore p.v) == some (fld p.v 495 492)) &&
    img.samplers.all (fun p => ringIs img (fld p.v 495 492) (sdCore p.v) (sdRing p.v) (some 1)) &&
    img.gathers.all (fun p => ringIs img (fld p.v 495 492) (gdCore p.v) (gdRing p.v) (some 1)) &&
    img.targets.all (fun p => ringIs img (fld p.v 495 492) (sgCore p.v) (sgRing p.v) (some 1))) 0x0115

/-! ### Orders 10 to 12: objects and their placement -/

/-- The job objects of the table. -/
def jobObjects (m : Mach) : List Nat :=
  (m.mem.objects.filter (fun p => decide (4096 ≤ p.1) && pairOk 256 p.2.v p.2.c && oValid p.2.v)).map (fun p => p.2.v)

/-- Some job's entry of the object table fails its check (R49). -/
def tableBad (m : Mach) : Bool := m.mem.objects.any (fun p => decide (4096 ≤ p.1) && !pairOk 256 p.2.v p.2.c)

/-- R46, R47, R75: an object overlaps another, the first two pages, or root index 0xFFFF; its number is in use. -/
def objOverlaps (others : List Nat) (v : Nat) : Bool :=
  let (a, z) := (oBase v, oBase v + oSize v)
  decide (a < 2) || decide (z > 0xFFFF * 2 ^ 19) ||
  (others.filter (fun w => oId w == oId v || (decide (oBase w < z) && decide (a < oBase w + oSize w)))).length != 1

/-- R50, R51. -/
def objFieldsOk (img : JobImage) (p : Pair) : Bool :=
  let v := p.v
  pairOk 256 v p.c && v % 2 ^ 122 == 0 && oValid v && decide (4096 ≤ oId v) && decide (oCtx v < hdrCount img.header) &&
  decide (oClass v ≤ 7) && decide (1 ≤ oSize v) && oHome v != 3 && decide (fld v 159 157 ≤ 4) && oFirst v % oWays v == 0 &&
  [0, 1, 2, 3, 4, 7].contains (oWidth v) && decide (oPolicy v ≤ 4) &&
  (!(oClass v == 5 || oClass v == 6) || (oPin v && oHome v == 0))

/-- A tier has a region declared. -/
def tierDeclared (m : Mach) (tier : Nat) : Bool := (List.range 8).any (fun k => (regionAt m k).kind == tier)

/-- R74: PoolFrames: the frames of HBM less the device's own, the reserve, the caldera's and the retired ones. -/
def poolFrames (m : Mach) : Nat :=
  1048576 - calderaFrames m - (dedupKeep (m.mem.ownFrames ++ m.mem.retired)).length

/-- R74: the frames that pinned job pages hold. -/
def pinnedFrames (m : Mach) : Nat := ((jobObjects m).filter oPin).foldl (fun a v => a + oSize v) 0

/-- R311: the pinned pages that the claims of an image name. No check of R312 compares them with those of its objects: order 12 counts
the greater (DESIGN CHOICE, log entry 38). -/
def claimedPins (img : JobImage) : Nat := (imgCtxs img).foldl (fun a k => a + octs (claimRec img k) 72 4) 0

/-- Orders 10, 11 and the count of order 12 (R64). -/
def checkObjects (m : Mach) (img : JobImage) : Except Nat Unit := do
  let olds := jobObjects m
  let news := img.objects.map (fun p => p.v)
  need (decide (olds.length + news.length ≤ 61440)) 0x0713
  need (news.all (fun v => !objOverlaps (olds ++ news) v)) 0x0711
  need (news.all (fun v => oHome v == 0 || oHome v == 3 || tierDeclared m (oHome v))) 0x0712
  need (img.objects.all (objFieldsOk img)) 0x0714
  let pins := max ((news.filter oPin).foldl (fun a v => a + oSize v) 0) (claimedPins img)
  need (decide (pinnedFrames m + pins ≤ poolFrames m - dnum m 0x4000 0x04)) 0x0710

/-- R50, R665, R666: the place of page i of an object, as tier and frame. The manual orders the lower tiers for evicted pages
only; a page that finds no free HBM frame at load takes the same order here: its home tier if that is below HBM, else CXL memory
and then flash (log entry 80). -/
def pagePlace (m : Mach) (g : FrameMap) (v i : Nat) : Option (Nat × Nat) :=
  match g.inSet v i with
  | some f => some (0, f)
  | none =>
    if oPin v then (g.outside v).map (fun f => (0, f))
    else (if oHome v == 2 then [2, 1] else [1, 2]).findSome? (fun t => (g.inTier m t).map (fun f => (t, f)))

/-- The places of an object's pages from page i on, each of a frame that no earlier page took. -/
def placePages (m : Mach) (v : Nat) : Nat → Nat → FrameMap → Option (List (Nat × Nat))
  | 0, _, _ => some []
  | n + 1, i, g =>
    match pagePlace m g v i with
    | none => none
    | some p => (placePages m v n (i + 1) (g.mark p)).map (p :: ·)

/-- Maps the pages of one object; refused when a page finds no frame. -/
def mapObject (v : Nat) (m : Mach) : Except Nat Mach :=
  match placePages m v (oSize v) 0 (frameMap m) with
  | none => .error 0x0710
  | some ps =>
    let new := ps.zipIdx.map (fun x => (oBase v + x.2, mkPair 64 (pageVal x.1.1 (oPin v) false (oId v) x.1.2)))
    let keep (f : Nat → Bool) : SMap Pair := m.mem.pages.filter (fun q => f q.1)
    let all := keep (fun k => decide (k < oBase v)) ++ new ++ keep (fun k => decide (oBase v + oSize v ≤ k))
    .ok (onMem (fun x => { x with pages := all }) m)

/-- The root indices that an object uses. -/
def objRoots (v : Nat) : List Nat := rangeFrom (oBase v / 2 ^ 19) ((oBase v + oSize v - 1) / 2 ^ 19 + 1 - oBase v / 2 ^ 19)

/-- Frames of the device's own objects come before the pages of the job; refused where HBM has too few (log entry 80). -/
def takeOwn (n : Nat) (put : List Nat → Mem → Mem) (m : Mach) : Except Nat Mach :=
  let fs := freeFrames n m
  if fs.length < n then .error 0x0710 else .ok (onMem (put fs) m)

/-- A leaf of the directory, four frames, for each root index that an object of the image uses first (R47). -/
def takeLeaves (img : JobImage) (m : Mach) : Except Nat Mach :=
  (dedupKeep (img.objects.flatMap (fun p => objRoots p.v))).foldl (fun (acc : Except Nat Mach) r => do
    let m1 ← acc
    if m1.mem.leaves.has r then return m1
    else takeOwn 4 (fun fs x => { x with leaves := x.leaves.put r fs }) m1) (.ok m)

/-- Octets of a context in the sections 0x02 to 0x08 of an image, each descriptor with its complement (R39, R310, R513). -/
def sectionOctets (img : JobImage) (k : Nat) : Nat :=
  let own := img.cores.filter (fun r => (claimClusters (claimRec img k)).contains (octs r.head 0 2 / 16))
  let wide (l : List Pair) : Nat := 128 * (l.filter (fun p => fld p.v 495 492 == k)).length
  (claimRec img k).length + (own.map (fun r => r.head.length + 16 * r.resident.length + r.ring.length)).foldl (· + ·) 0 +
  64 * (img.rings.filter (fun p => coreOwner img (rdOct (ringDesc p) 0 2) == some k)).length + wide img.streams +
  64 * (img.objects.filter (fun p => oCtx p.v == k)).length + wide img.samplers + wide img.gathers + wide img.targets +
  (match collSec img k with | some s => 128 + 64 * s.buckets.length + 128 * s.entries.length | none => 0)

/-- The pinned device object that keeps the copies of a context's sections (R310, R513). -/
def takeCopies (img : JobImage) (m : Mach) : Except Nat Mach :=
  (imgCtxs img).foldl (fun (acc : Except Nat Mach) k => do
    let m1 ← acc
    takeOwn (ceilDiv (sectionOctets img k) (2 ^ 21)) (fun fs x => { x with copyFrames := x.copyFrames.put (hwOf m k) fs }) m1) (.ok m)

/-- Enters the image's objects under their hardware contexts and maps them (R481, R665). DESIGN CHOICE (log entry 80): their pages take
frames in the order in which the image lists the objects, so that a later pinned page can find no HBM frame left. -/
def mapObjects (m : Mach) (img : JobImage) : Except Nat Mach := do
  let m0 ← takeCopies img (← takeLeaves img m)
  img.objects.foldl (fun (acc : Except Nat Mach) p => do
    let m1 ← acc
    let v := setFld p.v 239 236 (hwOf m (oCtx p.v))
    mapObject v (onMem (fun x => { x with objects := x.objects.put (oId v) (mkPair 256 v) }) m1)) (.ok m0)

/-! ### Orders 13 to 17: samplers, gather programs, targets, descriptor store -/

/-- Claims of a kind of unit: none held by a loaded context or claimed twice; every program's unit is claimed. -/
def unitsClaimed (m : Mach) (img : JobImage) (bits : List Byte → List Nat) (held : Ctx → List Nat) (progs : List (Nat × Nat)) : Bool :=
  let all := (imgCtxs img).flatMap (fun k => bits (claimRec img k))
  let taken := (m.ctxs.list.filter loaded).flatMap held
  distinct all && all.all (fun x => !taken.contains x) && progs.all (fun p => (bits (claimRec img p.1)).contains p.2)

/-- R105, and that the program's number is the context's only one. DESIGN CHOICE (log entry 83): RestartProb under
METAPATH and LayerNodes of hops that LAYERWISE does not use count as fields the method does not use; a complement that
disagrees and a Context not below the image's context count fail here too (R105 lists neither). -/
def samplerFieldsOk (img : JobImage) (p : Pair) : Bool :=
  let d := p.v
  let meth := sdMethod d
  let hops := sdHops d
  let walk := isWalk meth
  pairOk 512 d p.c && d % 2 ^ 69 == 0 && decide (meth ≤ 7) && decide (1 ≤ hops) && decide (hops ≤ 4) && (!walk || hops == 1) &&
  decide (fld d 495 492 < hdrCount img.header) && (img.samplers.filter (fun q => fld q.v 511 492 == fld d 511 492)).length == 1 &&
  (List.range 4).all (fun j =>
    let h := j + 1
    let used := decide (h ≤ hops)
    (!(used && meth ≤ 4) || sdFanout d h != 0) && (!(used && meth == 7) || sdLayer d h != 0) &&
    (!(!used || meth == 7) || sdFanout d h == 0) && (!(!used || meth != 7) || sdLayer d h == 0)) &&
  (if walk then sdWalk d != 0 else sdWalk d == 0) && (meth == 5 || sdRestart d == 0) && (meth != 6 || sdFilter d != 0) &&
  sdSeedVa d % 16 == 0 && sdOut d % 64 == 0 && sdFilter d % 32 == 0

/-- R100: the flags that a method needs, as bits of the graph header's Flags (R84). -/
def methodNeeds (meth : Nat) (f : Nat) : Bool :=
  match meth with
  | 1 => tbit f 0 && tbit f 3
  | 2 => tbit f 0
  | 3 => tbit f 2 && tbit f 4
  | 4 => tbit f 2 && tbit f 4
  | 6 => tbit f 1
  | _ => true

/-- R106. DESIGN CHOICE (log entry 83): a GraphObject that names no valid object fails here, at load (0x0411); at run
time the same raises 0x0702. -/
def samplerGraphOk (m : Mach) (d : Nat) : Bool :=
  match objBase m (sdGraph d) with
  | .error _ => false
  | .ok root => match graphFlags m root with
    | .error _ => false
    | .ok f =>
      methodNeeds (sdMethod d) f && (tbit f 2 || (!sdTimeMode d && sdTime d == 0xFFFFFFFF)) &&
      (sdMethod d != 1 || (sdFilter d == 0 && !sdTimeMode d && sdTime d == 0xFFFFFFFF))

/-- The sampler program that a gather program names, if its context has one. -/
def sampleProgOf (img : JobImage) (g : Nat) : Option Nat :=
  (img.samplers.find? (fun p => fld p.v 495 492 == fld g 495 492 && fld p.v 511 496 == gdSample g)).map (fun p => p.v)

/-- R128, R129, R155. DESIGN CHOICE (log entry 83): a complement mismatch, a ProgramId or TargetId that its context has twice and a Context
that the image does not have are refused with 0x0510 too, which R170 does not list for them. -/
def gatherFieldsOk (img : JobImage) (p : Pair) : Bool :=
  let d := p.v
  let scatter := gdOp d == 1
  let reduce := gdReduce d
  let wsum := reduce && gdRed d == 4
  pairOk 512 d p.c && d % 2 ^ 331 == 0 && decide (gdOp d ≤ 1) && decide (fld d 495 492 < hdrCount img.header) &&
  (img.gathers.filter (fun q => fld q.v 511 492 == fld d 511 492)).length == 1 &&
  decide (16 ≤ gdWidth d) && decide (gdWidth d ≤ 4096) && gdWidth d % 16 == 0 && decide (dataRow d ≤ gdStride d) &&
  (match sampleProgOf img d with | some s => decide (1 ≤ gdHop d) && decide (gdHop d ≤ sdHops s) | none => false) &&
  (if scatter then !reduce && gdItems d == 0 && gdRed d == 0 && !gdList d && gdKind d == 0 && gdObj d == 0 && gdPathBytes d == 0
   else (if reduce then (gdItems d == 1 || gdItems d == 3) && decide (gdRed d ≤ 4) else gdRed d == 0) && (wsum || !gdList d) &&
     gdKind d != 3 && !gdWGrad d && gdTarget d == 0 && gdSeq d == 0)

/-- R155: a target's fields. -/
def targetFieldsOk (img : JobImage) (p : Pair) : Bool :=
  let d := p.v
  pairOk 512 d p.c && d % 2 ^ 446 == 0 && decide (1 ≤ sgPerMb d) && decide (fld d 495 492 < hdrCount img.header) &&
  decide (16 ≤ sgWidth d) && decide (sgWidth d ≤ 4096) && sgWidth d % 16 == 0 &&
  (img.targets.filter (fun q => fld q.v 511 492 == fld d 511 492)).length == 1

/-- R133, R134: the source of a GATHER. -/
def gatherSourceOk (m : Mach) (d : Nat) : Bool :=
  gdOp d == 1 || (match objById m.mem (gdObj d) with
  | none => false
  | some v =>
    let base := (objSpan v).1
    if gdKind d == 1 then oClass v == 2
    else if gdKind d == 2 then oClass v == 5
    else oClass v == 4 && decide (1 ≤ vnum m.mem (base + 6) 1) && decide (vnum m.mem (base + 6) 1 ≤ 4) && vnum m.mem (base + 6) 1 == oWidth v)

/-- R149: the item bound n and the segment bound s of a program, from the sampler's bounds (f, e, u). -/
def itemBound (img : JobImage) (g : Nat) : Nat :=
  match sampleProgOf img g with
  | some s => let b := hopBounds s (gdHop g); if gdItems g == 0 then b.2.2 else b.2.1
  | none => 0

def pathBound (img : JobImage) (g : Nat) : Nat :=
  match sampleProgOf img g with
  | none => 0
  | some s =>
    let (f, e, u) := hopBounds s (gdHop g)
    let sorted := sdMethod s == 7 || isWalk (sdMethod s)
    let segs := if sorted then u else f
    128 + a64 (8 * itemBound img g) + (if gdReduce g && (gdRed g == 2 || gdRed g == 3) then a64 (2 * segs * gdWidth g) else 0) +
      (if sorted then a64 (4 * e) + a64 (4 * (segs + 1)) else 0)

/-- The SCATTER programs that name a target of the image. -/
def targetProgs (img : JobImage) (d : Nat) : List Nat :=
  (img.gathers.filter (fun g => fld g.v 495 492 == fld d 495 492 && gdOp g.v == 1 && gdTarget g.v == fld d 511 496)).map (fun g => g.v)

/-- B of R162: the item bounds of a target's programs, times the most micro-batches, times the devices on the graph axis. -/
def targetBound (m : Mach) (img : JobImage) (d : Nat) : Nat :=
  let k := fld d 495 492
  let mb := match collSec img k with | some s => max ((s.header.v >>> 24) % 256) (octs (ctxRec img k) 1 1) | none => octs (ctxRec img k) 1 1
  let gx := (hdrAxes img.header).getD 3 255
  let n := if gx ≤ 3 then max 1 (ringSize m gx) else 1
  ((targetProgs img d).foldl (fun a g => a + itemBound img g) 0) * mb * n

/-- R671, R162: a target's object and its SCATTERs. -/
def targetOk (m : Mach) (img : JobImage) (p : Pair) : Bool :=
  let d := p.v
  let progs := targetProgs img d
  let w := sgWidth d
  match objById m.mem (fld d 511 496) with
  | none => false
  | some v =>
    oClass v == 5 && progs.all (fun g => gdWidth g == w) &&
    (if sgKind d == 0 then
      decide (targetBound m img d * (a64 (24 + 4 * w) + a64 (8 + 4 * w)) ≤ oSize v * 2 ^ 21)
     else
      decide ((progs.foldl (fun a g => max a (match sampleProgOf img g with | some s => (hopBounds s (gdHop g)).2.2 | none => 0)) 0) *
        a64 (4 * w) ≤ oSize v * 2 ^ 21))

/-- A SCATTER names a target of its context. -/
def scatterTargetOk (img : JobImage) (g : Nat) : Bool :=
  gdOp g == 0 || img.targets.any (fun p => fld p.v 495 492 == fld g 495 492 && fld p.v 511 496 == gdTarget g)

/-- R313: entries of the descriptor store on a die. -/
def storeUse (samplers gathers : List Nat) (targets die : Nat) : Nat :=
  (samplers.filter (fun d => sdSampler d / 16 == die)).length + (gathers.filter (fun d => gdEngine d / 16 == die)).length + targets

/-- Orders 13 to 17. -/
def checkUnits (m0 m : Mach) (img : JobImage) : Except Nat Unit := do
  let ss := img.samplers.map (fun p => p.v)
  let gs := img.gathers.map (fun p => p.v)
  need (unitsClaimed m0 img claimSamplers (fun c => c.claims.samplers) (ss.map (fun d => (fld d 495 492, sdSampler d)))) 0x0413
  need (img.samplers.all (samplerFieldsOk img)) 0x0410
  need (ss.all (samplerGraphOk m)) 0x0411
  need (ss.all (fun d => decide (sampleBound d ≤ sdOutBytes d))) 0x0412
  need (unitsClaimed m0 img claimEngines (fun c => c.claims.engines) (gs.map (fun d => (fld d 495 492, gdEngine d)))) 0x0511
  need (img.gathers.all (gatherFieldsOk img) && img.targets.all (targetFieldsOk img)) 0x0510
  need (gs.all (gatherSourceOk m)) 0x0513
  need (gs.all (fun g => gdOp g == 1 || decide (pathBound img g ≤ gdPathBytes g))) 0x0514
  need (gs.all (scatterTargetOk img) && img.targets.all (targetOk m img)) 0x0512
  let olds := m0.smpDescs.map (fun p => p.2.v)
  let oldg := m0.gsDescs.map (fun p => p.2.v)
  need ((List.range 8).all (fun die =>
    decide (storeUse (olds ++ ss) (oldg ++ gs) (m0.targets.length + img.targets.length) die ≤ 4096))) 0x0116

/-! ### Order 18: buckets and transfer entries (R448 to R451, R494) -/

/-- A span lies in one pinned SCRATCH object of the hardware context. -/
def scratchSpan (m : Mach) (i va n : Nat) : Bool :=
  match objHolding m.mem va n with
  | some v => oClass v == 5 && oCtx v == i && oPin v
  | none => false

/-- Devices on the axis of a cut of the image. -/
def imgSize (m : Mach) (img : JobImage) (cut : Nat) : Nat :=
  let a := (hdrAxes img.header).getD cut 255
  if a ≤ 3 then max 1 (ringSize m a) else 1

/-- R448, R449, R451. -/
def collFieldsOk (m0 m : Mach) (img : JobImage) (k : Nat) (s : CollSec) : Bool :=
  let h := s.header.v
  let o (off n : Nat) : Nat := (h >>> (8 * off)) % 2 ^ (8 * n)
  let i := hwOf m0 k
  let n := imgSize m img 0
  let rising (l : List Nat) : Bool := (l.zip (l.drop 1)).all (fun p => decide (p.1 < p.2))
  pairOk 512 h s.header.c && o 0 2 == 1 && decide (o 2 1 ≤ 1) && decide (1 ≤ o 3 1) && decide (1 ≤ o 4 4) &&
  scratchSpan m i (o 8 8) 64 && decide (1 ≤ o 16 2) && o 18 46 == 0 && rising (s.buckets.map (fun p => bdId p.v)) &&
  s.buckets.all (fun p =>
    let v := p.v
    let b := bdBlocks v
    pairOk 256 v p.c && fld v 231 228 == k && decide (fld v 226 225 ≤ 1) && decide (64 ≤ bdElems v) && decide (bdElems v ≤ 16777216) &&
    bdElems v % 64 == 0 && v % 2 ^ 30 == 0 && scratchSpan m i (bdRecv v) (n * ceilDiv b n * 72) &&
    scratchSpan m i (bdResult v) (if bdF32 v then ceilDiv b n * 256 else bdElems v * 2) && scratchSpan m i (bdScale v) (a64 (4 * b)))

/-- The link die's geyser engine that a bucket uses (R449, R487). -/
def bucketEngine (axis v : Nat) : Nat := (if axis ≤ 3 then 2 * axis else 0) + bdEngine v

/-- The engines of the buckets of loaded contexts. -/
def bucketLoad (m : Mach) (e : Nat) : Nat :=
  (m.ctxs.list.filter loaded).foldl (fun a c => a + (c.gey.buckets.filter (fun b => bucketEngine (c.axes.getD 0 255) b.desc.v == e)).length) 0

/-- R494: a transfer entry. -/
def transferOk (m0 m : Mach) (img : JobImage) (k : Nat) (es : List Pair) (p : Pair) : Bool :=
  let v := p.v
  let i := hwOf m0 k
  let kind := teKind v
  let n := imgSize m img 1
  let cut := if kind == 0 then 2 else 1
  let shards := kind == 1 || kind == 2
  pairOk 512 v p.c && fld v 495 492 == k && decide (kind ≤ 3) && (kind == 0 || teDir v == 0) && decide (teCore v < 4608) &&
  v % 2 ^ 227 == 0 && decide (64 ≤ teBytes v) && teBytes v % 64 == 0 && (shards || (teShard v == 0 && teReceipt v == 0)) &&
  (es.filter (fun q => teId q.v == teId v)).length == 1 && decide ((hdrAxes img.header).getD cut 255 ≤ 3) &&
  scratchSpan m i (teSource v) (if kind == 3 then n * teBytes v else teBytes v) &&
  scratchSpan m i (teDest v) (if shards then n * teBytes v else teBytes v) &&
  (!shards || scratchSpan m i (teReceipt v) (16 * n)) &&
  img.rings.any (fun r => ringCore r == teNoticeCore v && ringNum r == teNoticeRing v && rdKind (ringDesc r) == 1 && rdOct (ringDesc r) 5 1 == 5)

/-- Order 18. -/
def checkColls (m0 m : Mach) (img : JobImage) : Except Nat Unit := do
  let secs := (imgCtxs img).map (fun k => (k, collSec img k))
  need (secs.all (fun s => match s.2 with | some x => collFieldsOk m0 m img s.1 x | none => true)) 0x0A10
  need (secs.all (fun s =>
    let want := octs (claimRec img s.1) 80 2
    match s.2 with
    | some x => want == x.buckets.length && (x.header.v >>> 128) % 65536 == want
    | none => want == 0)) 0x0A11
  let axis := (hdrAxes img.header).getD 0 255
  let news := secs.flatMap (fun s => match s.2 with | some x => x.buckets.map (fun p => bucketEngine axis p.v) | none => [])
  need ((List.range 8).all (fun e => decide (bucketLoad m0 e + (news.filter (· == e)).length ≤ 16384))) 0x0A11
  need (secs.all (fun s =>
    let want := octs (ctxRec img s.1) 12 2
    match s.2 with
    | some x => want == x.entries.length && x.entries.all (transferOk m0 m img s.1 x.entries)
    | none => want == 0)) 0x0B10

/-- R40, R312: every check in order; answers the machine with the image's objects entered and mapped. -/
def loadChecks (m : Mach) (img : JobImage) : Except Nat Mach := do
  checkHeader m img
  need (decide (hdrCount img.header ≤ (freeCtxs m).length)) 0x0B01
  checkClusters m img
  need (img.cores.all imemOk) 0x0112
  checkRings img
  checkCode img
  checkTargets img
  checkObjects m img
  let m1 ← mapObjects m img
  checkUnits m m1 img
  checkColls m m1 img
  return m1

end Sys2Proof.Machine
end

