-- ==== Sys2Proof/Machine/Quench.lean ====
section
/-!
DEFINITION. Quench (01 R30 to R33): the commit write-back Q1, the drain Q2, migration Q3 (02 R65 to R73), versions Q4, policy
Q5 (10 R379, 13 R460, R474), reset Q6, and the step number Q7 (14 R502, R503).
-/

namespace Sys2Proof.Machine

/-! ### Q1: the update set (R20, R30, R673, 05 R174, R200) -/

/-- A W16 element of PARAM and OPTSTATE objects, rounded under user 0x2 (R223, R673). -/
def paramBytes (c : Ctx) (va : Nat) (bs : List Byte) : List Byte :=
  (List.range (bs.length / 4)).flatMap (fun k =>
    leBytes 2 (BF16.narrow (.sr (srKeyParam c.seed c.step (va + 2 * k))) false (F32.decode (octs bs (4 * k) 4))))

/-- R195: a write to a row under a HOT copy sets the row's dirty bit. -/
def dirtyRow (key : Nat) (t : Table) : Table :=
  match t.plan with
  | some p => { t with plan := some { p with entries := p.entries.map (fun e =>
      if e.action == 1 && e.key == key then { e with dirty := true } else e) } }
  | none => t

/-- R200: a cached copy of a row takes the row's new octets. -/
def cacheRow (d key : Nat) (bs : List Byte) (t : Table) : Table :=
  match calderaFind t (calderaSet d key) (tdVersion d) key with
  | some (k, w) => { t with ways := t.ways.put k { w with data := bs } }
  | none => t

/-- One row of a table update in its class (R174). -/
def rowQ1 (i id d key : Nat) (xs : List Nat) (m : Mach) : Mach :=
  let c := ctxAt m i
  match resolveRow m c d key with
  | .error e => gsFault e i m
  | .ok (.there _) => m
  | .ok (.here cls va _) =>
    let bs := encodeRow cls (tdElem d) (srKeyTable c.seed c.step key id) xs
    modTab id (fun t => cacheRow d key bs (dirtyRow key t)) (putQ1 i va bs m)

/-- The elements of a PARAM or OPTSTATE object of class W8, W4, W2 or mixed: each is rounded to `bits` bits (R673). The manual gives their
grid and scale, and the class of a mixed object's element, for rows only, so the octets are free values (log entry 28). -/
def putNarrow (i : Nat) (u : UpdWrite) (bits : Nat) (m : Mach) : Mach :=
  let (bs, m1) := freshOctets (ceilDiv (u.data.length / 4 * bits) 8) m
  putQ1 i u.va bs m1

/-- One write of the update set. -/
def writeUpd (i : Nat) (u : UpdWrite) (m : Mach) : Mach :=
  let c := ctxAt m i
  match u.kind with
  | 0 => putQ1 i u.va u.data m
  | 1 => putQ1 i u.va (paramBytes c u.va u.data) m
  | 3 => putNarrow i u 8 m
  | 4 => putNarrow i u 4 m
  | 5 => putNarrow i u 2 m
  | 6 => putNarrow i u 16 m
  | _ => match stepTable m i u.scratch with
    | .error e => gsFault e i m
    | .ok d =>
      let w := tdWidth d
      let st := a64 (8 + 4 * w)
      (List.range (u.data.length / st)).foldl (fun m n =>
        rowQ1 i u.scratch d (octs u.data (n * st) 8) ((List.range w).map (fun e => octs u.data (n * st + 8 + 4 * e) 4)) m) m

/-- R594: the entries that take effect at the next quench. PredSelect, NormContext and SteerContext are the device's own: they act at the
next quench of any context (log entry 88). -/
def latchQuench (i : Nat) (m0 : Mach) : Mach :=
  let m := { m0 with dev := { m0.dev with predSel := dnum m0 0x2240 0x09, normSel := dnum m0 0x5100 0x09, steerSel := dnum m0 0x9000 0x05 } }
  modCtx i (fun c => { c with lat := quenchEntries.foldl (fun a k => SMap.put a (dkey k.1 k.2) (dval m k.1 k.2)) c.lat }) m

/-- Q1. It looks for the shards that it writes among the transfer entries: one that fails its complement raises 0x0B07 (R488). -/
def quenchQ1 (i : Nat) (m : Mach) : Mach :=
  let m0 := latchQuench i m
  let m1 := (ctxAt m0 i).upd.foldl (fun m u => writeUpd i u m) (if entriesOk m0 i then m0 else ctxError 0x0B07 i m0)
  (tablesOf m1 i).foldl (fun m id => planQ1 i id m) m1

/-! ### Q2: the drain (R30, R378, 04 path records and logs) -/

/-- Q2. -/
def quenchQ2 (i : Nat) (m : Mach) : Mach :=
  let m1 := (coresOf m i).foldl (fun m k => predictorEval k m) m
  let mine (key : Nat) : Bool := key / 65536 == i
  let m2 := { m1 with
    engines := m1.engines.map (fun e => (e.1, { e.2 with
      ordinals := e.2.ordinals.filter (fun x => !mine (x.1 / 16)), issuers := e.2.issuers.filter (fun x => !mine x.1) })),
    served := m1.served.filter (fun v => ctxOfTag m v.t.jobTag != some i),
    targets := m1.targets.map (fun t => if mine t.1 then (t.1, t.2.fresh) else t) }
  eachCore i (fun c => resetArrays (dropWork c)) (modCtx i (fun c => { c with upd := [] }) m2)

/-! ### Q3: migration (R65 to R73, R666) -/

/-- The pages that the directory maps as (VPN, page entry, object). -/
def allPages (m : Mach) : List (Nat × Nat × Nat) :=
  m.mem.pages.filterMap (fun p => match objOfPage m.mem p.2 with
    | some v => some (p.1, p.2.v, v)
    | none => none)

/-- The pages of a context's objects. -/
def ctxPages (m : Mach) (i : Nat) : List (Nat × Nat × Nat) := (allPages m).filter (fun p => oCtx p.2.2 == i)

/-- A quench of context `i` changes the mapping of a page: of its own, and of a context that is in no step (R31). -/
def mayFlip (m : Mach) (i vpn : Nat) : Bool :=
  match pageCtx m.mem vpn with
  | some j => j == i || (ctxAt m j).st != .run
  | none => false

/-- An object-table entry of a context fails its check (R49). -/
def objectsBad (m : Mach) (i : Nat) : Bool :=
  m.mem.objects.any (fun p => !pairOk 256 p.2.v p.2.c && (oCtx p.2.v == i || oCtx (cpl 256 p.2.c) == i))

/-- A page entry of a context fails its check (R53). -/
def pagesBad (m : Mach) (i : Nat) : Bool :=
  m.mem.pages.any (fun p => !pairOk 64 p.2.v p.2.c && vpnOwner m.mem p.1 == some i)

/-- Q3 reads the object table and the directory of every context: an entry that fails its check raises 0x0701 for the context that it
belongs to. -/
def dirFaults (m : Mach) : Mach :=
  (List.range 16).foldl (fun m j =>
    if !loaded (ctxAt m j) then m
    else
      let m1 := if objectsBad m j then memFault objCheck j m else m
      if pagesBad m j then memFault 0x0701 j m1 else m1) m

/-- Writes a page entry with its complement (R53). -/
def putPage (vpn v : Nat) (m : Mem) : Mem := { m with pages := m.pages.put vpn (mkPair 64 v) }

/-- R70, R71: one migration whose copy is complete: dirty blocks again, the entry flips, the source frame is free. -/
def flipPage (i : Nat) (g : Mig) (m : Mach) : Mach :=
  match walkVpn m.mem g.vpn with
  | .bad _ => m
  | .entry v =>
    let m1 := g.dirty.foldl (fun m b =>
      onMem (fun x => { x with
        phys := cellsCopy x.phys (placeOf g.srcTier g.srcFrame (4096 * b)) (placeOf g.dstTier g.dstFrame (4096 * b)) 4096 }) m) m
    let m2 := onMem (fun x => putPage g.vpn (pageVal g.dstTier (pPin v) false (pObj v) g.dstFrame)
      { x with migs := x.migs.filter (fun y => y.vpn != g.vpn) }) m1
    let m3 := if g.dstTier == 0 then m2
      else g.dirty.foldl (fun m b => writeLower i (g.vpn * 2 ^ 21 + 4096 * b) 4096 m) m2
    countN 0x6700 0x0A g.dirty.length
      (if g.srcTier == 0 && g.dstTier != 0 then count 0x6700 0x07 m3
       else if g.srcTier != 0 && g.dstTier == 0 then count 0x6700 0x08 m3 else m3)

/-- Q3.1. -/
def quenchQ31 (i : Nat) (m : Mach) : Mach :=
  let m0 := onMem (fun x => { x with freeLater := [] }) m
  let m1 := (m0.mem.migs.filter (fun g => g.copied && mayFlip m0 i g.vpn)).foldl (fun m g => flipPage i g m) m0
  (tablesOf m1 i).foldl (fun m id => planQ3 i id m) m1

/-- The fields of a descriptor that the runtime may change (R50). -/
def rqFields (v : Nat) : Nat := fld v 162 152 * 2 ^ 152 + fld v 148 122 * 2 ^ 122

/-- R48: a change of RQ fields takes effect; a change of any other field is refused. -/
def rqApply (old new : Nat) : Nat := if old - rqFields old == new - rqFields new then new else old

/-- Q3.2: RQ fields; an eviction of a page newly pinned is cancelled; page entries take their object's Pin. -/
def quenchQ32 (i : Nat) (m : Mach) : Mach :=
  let m1 := onMem (fun x => { x with
    objects := x.rq.foldl (fun os r => match os.find r.1 with
      | some p => if oCtx p.v == i && pairOk 256 p.v p.c then os.put r.1 (mkPair 256 (rqApply p.v r.2)) else os
      | none => os) x.objects
    rq := x.rq.filter (fun r => match x.objects.find r.1 with | some p => oCtx p.v != i | none => false) }) m
  (ctxPages m1 i).foldl (fun m p =>
    let cancel := oPin p.2.2 && m.mem.migs.any (fun g => g.vpn == p.1 && g.dstTier != 0)
    let v := pageVal (pTier p.2.1) (oPin p.2.2) (pMig p.2.1 && !cancel) (pObj p.2.1) (pFrame p.2.1)
    onMem (fun x => putPage p.1 v { x with migs := if cancel then x.migs.filter (fun g => g.vpn != p.1) else x.migs }) m) m1

/-- The age of an HBM frame: the Q3s since the last that found its access flag set, up to 255 (R65). -/
def frameAge (x : Mem) (f : Nat) : Nat := min 255 (x.ageSteps - x.ages.get f 0)

/-- Q3.3: every frame ages but those whose flag is set; every flag clears (R65). -/
def quenchQ33 (m : Mach) : Mach :=
  onMem (fun x => { x with
    ageSteps := x.ageSteps + 1
    ages := x.touched.foldl (fun a f => a.put f (x.ageSteps + 1)) x.ages
    touched := [] }) m

/-- Q3.7 for one page: the destination frame is reserved and the Migrating bit set. -/
def queueMig (vpn v dstTier dstFrame : Nat) (m : Mach) : Mach :=
  onMem (fun x => putPage vpn (pageVal (pTier v) (pPin v) true (pObj v) (pFrame v))
    { x with migs := x.migs ++ [{ vpn := vpn, srcTier := pTier v, srcFrame := pFrame v, dstTier := dstTier, dstFrame := dstFrame }] }) m

/-- R666: the destination of an evicted page, as tier and frame. -/
def evictTo (m : Mach) (v : Nat) : Option (Nat × Nat) :=
  let order := if oHome v == 2 then [2, 1] else [1, 2]
  order.findSome? (fun t => (freeLow m t).map (fun f => (t, f)))

/-- A migration may be queued (R69). -/
def migRoom (m : Mach) : Bool := decide (m.mem.migs.length < dnum m 0x4000 0x07)
def deferMig (m : Mach) : Mach := count 0x6700 0x09 m

/-- Q3.4: eviction selection (R66, R68). -/
def quenchQ34 (i : Nat) (m : Mach) : Mach :=
  let c := ctxAt m i
  let free := freeHbmCount m
  let goal := dnum m 0x4000 0x05
  if free ≥ dnum m 0x4000 0x04 then m
  else
    let open' := (allPages m).filter (fun p =>
      pTier p.2.1 == 0 && !oPin p.2.2 && (oPolicy p.2.2 == 1 || oPolicy p.2.2 == 3) && !pMig p.2.1)
    let aged := (open'.map (fun p => (frameAge m.mem (pFrame p.2.1), p))).filter (fun x => decide (dlat m c 0x4000 0x06 ≤ x.1))
    let order := (sortBy (fun a b => decide (b.1 ≤ a.1)) aged).map Prod.snd
    (order.foldl (fun (acc : Nat × Mach) p =>
      if acc.1 ≥ goal then acc
      else if !migRoom acc.2 then (acc.1, deferMig acc.2)
      else match evictTo acc.2 p.2.2 with
        | none => (acc.1, deferMig acc.2)
        | some (t, f) => (acc.1 + 1, queueMig p.1 p.2.1 t f acc.2)) (free, m)).2

/-- Q3.5: promotion selection (R67, R68). The counts of the pages whose step has ended go back to zero. -/
def quenchQ35 (i : Nat) (m : Mach) : Mach :=
  let low := (allPages m).filter (fun p => pTier p.2.1 != 0 && !pMig p.2.1)
  let pinned := low.filter (fun p => oPin p.2.2)
  let used := low.filter (fun p => !oPin p.2.2 && (oPolicy p.2.2 == 2 || oPolicy p.2.2 == 3) && oThreshold p.2.2 != 0 &&
    decide (oThreshold p.2.2 ≤ m.mem.readCounts.get p.1 0))
  let page (p : Nat × Nat × Nat) : Nat := p.1 - oBase p.2.2
  let take (p : Nat × Nat × Nat) (f : Option Nat) (m : Mach) : Mach :=
    match f with
      | none => m
      | some f => if migRoom m then queueMig p.1 p.2.1 0 f m else deferMig m
  let m1 := pinned.foldl (fun m p => take p ((freeInSet m p.2.2 (page p)).orElse (fun _ => freeOutside m p.2.2)) m) m
  let m2 := used.foldl (fun m p =>
    if decide (freeHbmCount m ≤ dnum m 0x4000 0x04) then m
    else take p (freeInSet m p.2.2 (page p)) m) m1
  onMem (fun x => { x with readCounts := x.readCounts.filter (fun r => !mayFlip m2 i r.1) }) m2

/-- Q3.6: host-directed migrations, in command-ring order. DESIGN CHOICE (log entry 79): one of a page whose object has become pinned is
dropped; no EvictLowWater floor holds one back; one that finds no free frame of its set in HBM waits for the next quench. -/
def quenchQ36 (i : Nat) (m : Mach) : Mach :=
  let mine := m.mem.hostMig.filter (fun h => mayFlip m i h.1)
  let m0 := onMem (fun x => { x with hostMig := x.hostMig.filter (fun h => !mayFlip m i h.1) }) m
  mine.foldl (fun m h =>
    match walkVpn m.mem h.1, objAt m.mem (h.1 * 2 ^ 21) with
    | .entry v, some o =>
      let back (m : Mach) : Mach := onMem (fun x => { x with hostMig := x.hostMig ++ [h] }) m
      if pTier v == h.2 || oPin o then m
      else if pMig v then back m
      else if !migRoom m then deferMig (back m)
      else
        match (if h.2 == 0 then freeInSet m o (h.1 - oBase o) else freeLow m h.2) with
        | some f => queueMig h.1 v h.2 f m
        | none => if h.2 == 0 then back m else deferMig (back m)
    | _, _ => m) m0

/-- Q3 but for its waits. Entries that fail their check are not used (R49, R53); FreeFrames is as of the last quench (R74). -/
def quenchQ3 (i : Nat) (m : Mach) : Mach :=
  let m0 := dirFaults m
  if (ctxAt m0 i).st != .run then m0
  else
    let m1 := xlateClear (quenchQ36 i (quenchQ35 i (quenchQ34 i (quenchQ33 (quenchQ32 i (quenchQ31 i m0))))))
    onMem (fun x => { x with freeAtQuench := freeHbmCount m1 }) m1

/-! ### Q5 to Q7 -/

/-- R379: the Margin of every layer that was disabled on some core rises, never falls; what rose is counted (R381). The step and the
largest Margin are policy that this quench applies (R31). -/
def widenMargins (i : Nat) (m : Mach) : Mach :=
  let c := ctxAt m i
  let mx := dlat m c 0x2240 0x06
  let up (x : Nat) : Nat :=
    let y := F32.addC .rne false x (dlat m c 0x2240 0x03)
    let z := if (F32.decode mx).lt (F32.decode y) then mx else y
    if (F32.decode x).lt (F32.decode z) then z else x
  let rose := c.layersOff.filter (fun l => up (c.margins.getD l 0) != c.margins.getD l 0)
  countN 0x6200 0x2B rose.length (modCtx i (fun c => { c with
    margins := (List.range 64).map (fun l => if c.layersOff.contains l then up (c.margins.getD l 0) else c.margins.getD l 0)
    layerOffSteps := c.layersOff.foldl (fun a l => SMap.put a l (a.get l 0 + 1)) c.layerOffSteps
    layersOff := [] }) m)

/-- Q5. -/
def quenchQ5 (i : Nat) (m : Mach) : Mach :=
  let m1 := geyserQ5 i (widenMargins i m)
  (tablesOf m1 i).foldl (fun m id => tableQ5 i id m) m1

/-- Q6: ring counts, arbiter, channel and sinter pointers (R30, R389, R398, R419). -/
def quenchQ6 (i : Nat) (m : Mach) : Mach :=
  eachCore i emptyRings (resetPointers { m with
    sinters := m.sinters.map (fun u => if (ctxAt m i).claims.clusters.contains u.1 then (u.1, { u.2 with ptr := 0 }) else u) })

/-- R502: the step record; `mb` is the micro-batch count of the step. -/
def stepRecord (c : Ctx) (mb : Nat) : List Byte :=
  leBytes 8 c.step ++ leBytes 4 c.pass.passes ++ leBytes 2 c.pass.counted ++ leBytes 1 c.pass.stepCauses ++
  leBytes 1 ((if c.pass.nonStrict then 1 else 0) + (if c.pass.strict then 2 else 0) + (if c.pass.satPersist then 4 else 0)) ++
  leBytes 2 mb ++ leBytes 2 0 ++ leBytes 4 (min (2 ^ 32 - 1) c.pass.ashSubs) ++ leBytes 8 c.pass.commitAt

/-- Q7: the record, the step number, the grant, the state; then the next step, a hold, or the QUENCH state (R32, R484). A
context that the quench has put into HALT stays there. -/
def quenchQ7 (i mb : Nat) (m : Mach) : Mach :=
  let c := ctxAt m i
  if c.st != .run then m
  else if !stepPairOk c then stepFault i m
  else
    let r := stepRecord c mb
    let m1 := putQ1 i (c.logVa + 32 * (if c.logEntries == 0 then 0 else c.step % c.logEntries)) r m
    let m3 := modCtx i (fun c => { c with
      step := (c.step + 1) % 2 ^ 64, stepC := cpl 64 (c.step + 1), replay := 0, grant := c.grant - 1,
      lastRec := r, st := if c.holdReq then .held else .idle,
      pass := { begins := c.pass.begins, early := c.pass.early } }) m1
    let m4 := fastBegin i (tablesEnd i m3)
    if (ctxAt m1 i).st != .run then m1
    else deviceAuto (startPass i (startRepairs i m4))

/-! ### The whole quench -/

/-- The lower-tier writes of a context are all complete. -/
def writesDone (m : Mach) (i : Nat) : Bool := m.mem.writes.all (fun w => w.ctx != i || w.mig.isSome || !writeCurrent m w)
def stillQuench (i : Nat) (m : Mach) : Bool := (ctxAt m i).st == .run && (ctxAt m i).pass.committed
def setStage (i k : Nat) (m : Mach) : Mach := modPass i (fun p => { p with quench := k }) m

/-- The quench's own reads of lower tiers, but for HOT copies: of the rows that a plan's Q1 or Q3.1 encodes anew (R59, R195). -/
def planFetch (i : Nat) (applies : Bool) (m : Mach) : Mach :=
  (tablesOf m i).foldl (fun m id =>
    match (tabAt m id).cur, (tabAt m id).plan with
    | some p, some pl =>
      if skipsPlan m i (tabAt m id) || (applies && !appliesNow m i pl.n) then m
      else fetchSpans i (.recopy 0) (planReads m p.v applies { pl with entries := pl.entries.filter (fun e => !applies || e.action != 1) }) m
    | _, _ => m) m

/-- Reads of a quench of the context are outstanding. -/
def recopyWaits (m : Mach) (i : Nat) : Bool :=
  m.mem.reads.any (fun r => r.ctx == i && readTagged m r && (match r.who with | .recopy _ => true | _ => false))

/-- Q1, once no plan is awaited, no fast checkpoint is being copied, and its plan's rows have been read (R197, R529). -/
def stageQ1 (i : Nat) (m : Mach) : Mach :=
  let c := ctxAt m i
  if planMissing m i then
    (if c.pass.waitPlan then m
     else count 0x6600 0x0B (modPass i (fun p => { p with waitPlan := true, planSince := m.dev.time10 }) m))
  else if c.ckpt.fast then m
  else
    let m1 := if c.pass.planRead then m else planFetch i true (modPass i (fun p => { p with waitPlan := false, planRead := true }) m)
    if recopyWaits m1 i then m1 else stepUsed i (fun m => setStage i 1 (quenchQ1 i m)) m1

/-- Q3.1's reads of dirty blocks whose source lies in a lower tier (R59, R71). -/
def recopyReads (i : Nat) (m : Mach) : Mach :=
  (m.mem.migs.filter (fun g => g.copied && g.srcTier != 0 && mayFlip m i g.vpn)).foldl (fun m g =>
    g.dirty.foldl (fun m b =>
      sendTierRead i (.recopy g.vpn) (g.vpn * 2 ^ 21 + 4096 * b) 4096 g.srcTier g.srcFrame none m) m) (planFetch i false m)

/-- Q2, the reads of Q3.1, and Q3, once Q1's lower-tier writes, those reads and the plan's copies are complete (R75, R195). -/
def stageQ3 (i : Nat) (m : Mach) : Mach :=
  if !writesDone m i then m
  else
    let m1 := if (ctxAt m i).pass.quench == 1 then recopyReads i (setStage i 2 (quenchQ2 i m)) else m
    if copiesMissing m1 i || recopyWaits m1 i then m1 else setStage i 3 (quenchQ3 i m1)

/-- Q4 to Q7, once Q3's lower-tier writes are complete. -/
def stageQ7 (i : Nat) (m : Mach) : Mach :=
  if !writesDone m i then m
  else
    let mb := (ctxAt m i).mb
    quenchQ7 i mb (quenchQ6 i (quenchQ5 i (tablesQ4 i m)))

/-- QUENCH on machine state: the quench runs as far as it may (R30). -/
def quenchRun (i : Nat) (m : Mach) : Mach :=
  let step (k : Nat) (f : Mach → Mach) (m : Mach) : Mach :=
    if stillQuench i m && (ctxAt m i).pass.quench == k then f m else m
  step 3 (stageQ7 i) ((fun m => if stillQuench i m && decide (1 ≤ (ctxAt m i).pass.quench) && decide ((ctxAt m i).pass.quench ≤ 2) then stageQ3 i m else m)
    (step 0 (stageQ1 i) m))

/-- QUENCH (R30). -/
def execQuench (ctx : Nat) (s : State) : Host.Outcome State Fault Refusal := .next (onM (quenchRun ctx) s)

end Sys2Proof.Machine
end

