-- ==== Sys2Proof/Machine/Loader.lean ====
section
/-!
DEFINITION. The loader's acceptance (01 R40, 14 R481, R482, 13 R458, 15 R310, R513) and the unloading of a context (17
R563, 02 R73). The loader is atomic: a refused image leaves the machine as it was.
-/

namespace Sys2Proof.Machine

/-- Keeps the value of a descriptor for the replay discard (R513). -/
def keepCopy (kind key v : Nat) (m : Mach) : Mach := { m with copies := m.copies.put (copyKey kind key) v }

/-- R481: a 512-bit descriptor under its hardware context. -/
def renumber (m0 : Mach) (p : Pair) : Pair := mkPair 512 (setFld p.v 495 492 (hwOf m0 (fld p.v 495 492)))

/-- The key of a 512-bit descriptor: its hardware context and number. -/
def descKey (v : Nat) : Nat := dkeyOf (fld v 495 492) (fld v 511 496)

/-- A core as loading leaves it: its resident bundles and their copy (R310), its instruction ring; its fault record
stays. -/
def loadedCore (old : Core) (i : Nat) (r : CoreRec) : Core :=
  let code := r.resident.map bundleNat
  { ctx := i, aclk := old.aclk, fault := old.fault, entry := octs r.head 2 2, resident := code, pristine := code,
    iringSlots := octs r.head 6 1, iringRing := octs r.head 7 1, iringVa := octs r.head 8 8, iringCount := octs r.head 16 4 }

/-- R482: every core of a claimed cluster, with the image's record where it has one. -/
def loadCores (i k : Nat) (img : JobImage) (m : Mach) : Mach :=
  ((claimClusters (claimRec img k)).flatMap (fun cl => rangeFrom (16 * cl) 16)).foldl (fun m n =>
    match coreRecOf img n with
    | some r =>
      let m1 := setCore n (loadedCore (coreAt m n) i r) m
      if r.ring.isEmpty then m1 else onMem (vput (octs r.head 8 8) r.ring) m1
    | none => setCore n { ctx := i, aclk := (coreAt m n).aclk, fault := (coreAt m n).fault } m) m

/-- The ring descriptors of a context's cores, with their copies. -/
def loadRings (k : Nat) (img : JobImage) (m : Mach) : Mach :=
  (img.rings.filter (fun p => coreOwner img (ringCore p) == some k)).foldl (fun m p =>
    keepCopy 5 (ringCore p * 8 + ringNum p) p.v (modCore (ringCore p) (setRing (ringNum p) { desc := mkPair 256 p.v }) m)) m

/-- The descriptors of streams, samplers, gather programs and targets, with their copies. -/
def loadDescs (m0 : Mach) (img : JobImage) (m : Mach) : Mach :=
  let m1 := img.streams.foldl (fun m p =>
    let q := renumber m0 p
    keepCopy 1 (descKey q.v) q.v { m with streams := m.streams.put (descKey q.v) q }) m
  let m2 := img.samplers.foldl (fun m p =>
    let q := renumber m0 p
    keepCopy 2 (descKey q.v) q.v { m with smpDescs := m.smpDescs.put (descKey q.v) q }) m1
  let m3 := img.gathers.foldl (fun m p =>
    let q := renumber m0 p
    keepCopy 3 (descKey q.v) q.v { m with gsDescs := m.gsDescs.put (descKey q.v) q }) m2
  img.targets.foldl (fun m p =>
    let q := renumber m0 p
    keepCopy 4 (descKey q.v) q.v { m with targets := m.targets.put (descKey q.v) { desc := q, bound := targetBound m0 img p.v } }) m3

/-- The collective schedule of a context, with its copies. -/
def loadColl (i k : Nat) (img : JobImage) (m : Mach) : Mach :=
  match collSec img k with
  | none => m
  | some s =>
    let bs := s.buckets.map (fun p => mkPair 256 (setFld p.v 231 228 i))
    let es := s.entries.map (fun p => mkPair 512 (setFld p.v 495 492 i))
    let g : Geyser := { header := mkPair 512 s.header.v, buckets := bs.map (fun p => { desc := p }), entries := es.map (fun p => { desc := p }) }
    let m1 := keepCopy 6 i s.header.v (modGey i (fun _ => g) m)
    let m2 := (bs.zip (List.range bs.length)).foldl (fun m b => keepCopy 7 (dkeyOf i b.2) b.1.v m) m1
    (es.zip (List.range es.length)).foldl (fun m e => keepCopy 8 (dkeyOf i e.2) e.1.v m) m2

/-- R458: the agreed exponents of every bucket of a context start at −128. -/
def clearExponents (i : Nat) (m : Mach) : Mach :=
  (ctxAt m i).gey.buckets.foldl (fun m b =>
    (List.range (bdBlocks b.desc.v)).foldl (fun m blk => expPut i b.desc.v 0 blk (-128) m) m) m

/-- A context as loading leaves it: IDLE, at step 0, with what the header, its record and its claims say (R478, R479,
R311), and the values of the entries that act at the next quench (R594). -/
def loadedCtx (m : Mach) (img : JobImage) (k : Nat) : Ctx :=
  let r := ctxRec img k
  let h := img.header
  let cl := claimRec img k
  { st := .idle, jobTag := octs r 2 2, seed := octs h 32 8, devCount := octs h 20 2, axes := hdrAxes h,
    debug := tbit (octs h 2 1) 0, mb := octs r 1 1, deadlineUs := octs r 4 4, commitUs := octs r 8 4,
    noticeCount := octs r 14 2, noticeVa := octs r 16 8, logVa := octs r 24 8, logEntries := octs r 32 4,
    lat := latch m ((0x4100, 0x08) :: quenchEntries), reprune := dnum m 0x2240 0x08,
    margins := List.replicate 64 (dnum m 0x2240 0x04),
    claims := { raw := cl, clusters := claimClusters cl, samplers := claimSamplers cl, engines := claimEngines cl } }

/-- One context of an accepted image. -/
def loadCtx (m0 : Mach) (img : JobImage) (m : Mach) (k : Nat) : Mach :=
  let i := hwOf m0 k
  let m1 := dput (setCtx i (loadedCtx m0 img k) m) 0x5000 (0x20 + i) (leBytes 2 (octs (ctxRec img k) 2 2))
  clearExponents i (loadColl i k img (loadRings k img (loadCores i k img m1)))

/-- R513: the copies of the image's object-table entries. -/
def keepObjects (img : JobImage) (m : Mach) : Mach :=
  img.objects.foldl (fun m p => match m.mem.objects.find (oId p.v) with
    | some q => keepCopy 0 (oId p.v) q.v m
    | none => m) m

/-- R40 to R42: loads an image, whole or not at all; answers the machine and the first hardware context given. -/
def loadImage (img : JobImage) (m : Mach) : Except Nat (Mach × Nat) :=
  match loadChecks m img with
  | .error c => .error c
  | .ok m1 => .ok (loadDescs m img ((imgCtxs img).foldl (loadCtx m img) (keepObjects img m1)), hwOf m 0)

/-! ### Unloading (R73, R563) -/

/-- R73: frees the objects of a context: their entries, pages and frames; the frames of pending migrations become free at
the next quench, and the leaves that no object uses any more with the pages. The tags of its outstanding accesses name no step any
more (R60). -/
def freeObjects (i : Nat) (m : Mem) : Mem :=
  let ids := (m.objects.filter (fun p => decide (4096 ≤ p.1) && oCtx p.2.v == i)).map Prod.fst
  let its (vpn : Nat) : Bool := match m.pages.find vpn with | some p => ids.contains (pObj p.v) | none => false
  let gone := m.migs.filter (fun g => its g.vpn)
  let objs := m.objects.filter (fun p => !ids.contains p.1)
  { m with
    objects := objs, rq := m.rq.filter (fun r => !ids.contains r.1),
    pages := m.pages.filter (fun p => !ids.contains (pObj p.2.v)), readCounts := m.readCounts.filter (fun r => !its r.1),
    migs := m.migs.filter (fun g => !its g.vpn),
    freeLater := m.freeLater ++ gone.flatMap (fun g => [(g.srcTier, g.srcFrame), (g.dstTier, g.dstFrame)]),
    hostMig := m.hostMig.filter (fun h => !its h.1),
    leaves := m.leaves.filter (fun l => objs.any (fun p => (objRoots p.2.v).contains l.1)),
    copyFrames := m.copyFrames.del i,
    reads := m.reads.map (fun r => if r.ctx == i then { r with step := 2 ^ 64, who := .none } else r),
    writes := m.writes.map (fun w => if w.ctx == i then { w with step := 2 ^ 64, mig := none } else w) }

/-- The copies that belong to a context's descriptors. -/
def ownCopy (m : Mach) (i : Nat) (key : Nat) : Bool :=
  let kind := key / 2 ^ 40
  let k := key % 2 ^ 40
  if kind == 0 then (match m.copies.find key with | some v => oCtx v == i | none => false)
  else if kind == 5 then (coreAt m (k / 8)).ctx == i
  else if kind == 6 then k == i
  else k / 65536 == i

/-- UNLOAD of a loaded context: it becomes FREE and gives up all it held. Its records (failure, step, norm) and limits,
which no rule clears, stay readable until a load sets them. -/
def unloadCtx (i : Nat) (m : Mach) : Mach :=
  let mine (key : Nat) : Bool := key / 65536 == i
  let m1 := discardWork i m
  let gone := tablesOf m1 i
  let ids := (m1.mem.objects.filter (fun p => oCtx p.2.v == i)).map Prod.fst
  let m2 := { m1 with
    copies := m1.copies.filter (fun p => !ownCopy m1 i p.1),
    shards := m1.shards.filter (fun p => !ids.contains p.1),
    streams := m1.streams.filter (fun p => !mine p.1), smpDescs := m1.smpDescs.filter (fun p => !mine p.1),
    gsDescs := m1.gsDescs.filter (fun p => !mine p.1), targets := m1.targets.filter (fun p => !mine p.1),
    tabSnap := m1.tabSnap.filter (fun p => !mine p.1),
    tables := (m1.tables.filter (fun p => !gone.contains p.1)).map (fun p => (p.1, readerGone i p.2)),
    cores := m1.cores.map (fun p => if p.2.ctx == i then (p.1, { ctx := 16, aclk := p.2.aclk, fault := p.2.fault }) else p),
    sinters := m1.sinters.filter (fun u => !(ctxAt m1 i).claims.clusters.contains u.1) }
  let c := ctxAt m1 i
  let kept : Ctx := {
    failure := c.failure, deadlineUs := c.deadlineUs, commitUs := c.commitUs, lastRec := c.lastRec,
    gey := { normRec := c.gey.normRec } }
  dput (setCtx i kept (onMem (freeObjects i) m2)) 0x5000 (0x20 + i) (leBytes 2 0)

end Sys2Proof.Machine
end

