-- ==== Sys2Proof/Machine/Cxl.lean ====
section
/-!
DEFINITION. The CXL attachment (17): the register block and the command rings (R561 to R567), the mailbox's standard
commands (R568), the HDM window (R569), configuration requests and the port events (R570 to R572, 20 R658).
-/

namespace Sys2Proof.Machine

/-! ### Ports and rings -/

def cxlPort (m : Mach) (p : Nat) : CxlPort := m.cxl.ports.getD p {}
def setCxlPort (p : Nat) (x : CxlPort) (m : Mach) : Mach := { m with cxl := { m.cxl with ports := m.cxl.ports.set p x } }
def cmdRing (m : Mach) (k : Nat) : CmdRing := m.cxl.rings.getD k {}
def setCmdRing (k : Nat) (r : CmdRing) (m : Mach) : Mach := { m with cxl := { m.cxl with rings := m.cxl.rings.set k r } }

/-- The states in which the functions are served (R570). -/
def cxlServes (s : DevState) : Bool :=
  match s with
  | .preboot | .config | .ready | .run | .quench | .halt => true
  | _ => false

/-- The register block of a port's function can be reached, by CXL.io. -/
def portServes (m : Mach) (p : Nat) : Bool := cxlServes m.dev.st && (cxlPort m p).l0 && decide (p < 2)

/-- A port carries CXL.cache: it has not trained as PCIe only (R559). -/
def portCaches (m : Mach) (p : Nat) : Bool := portServes m p && (cxlPort m p).cxl

/-- Some port can reach host memory, by CXL.cache (R564). -/
def anyPort (m : Mach) : Bool := portCaches m 0 || portCaches m 1

/-- A completion slot is free (R566). -/
def cplRoom (r : CmdRing) : Bool := decide (diff32 r.cplProduced r.cplConsumed < 2 ^ r.cplLog2)

/-! ### The HDM window (R569) -/

/-- The window's octets. -/
def hdmBytes (m : Mach) : Nat := m.cxl.hdmFrames.length * 2 ^ 21

/-- The window offset of a host address, where some port's function decodes it. -/
def hdmOffset (m : Mach) (addr : Nat) : Option Nat :=
  (List.range 2).findSome? (fun p =>
    let b := (cxlPort m p).hdmBase
    if b != 0 && decide (b ≤ addr) && decide (addr < b + hdmBytes m) then some (addr - b) else none)

/-- The physical place of a window octet. -/
def hdmPlace (m : Mach) (off : Nat) : Nat := placeOf 0 (m.cxl.hdmFrames.getD (off / 2 ^ 21) 0) (off % 2 ^ 21)

def hdmGet (m : Mach) (off n : Nat) : List Byte := (List.range n).map (fun i => cellGet m.mem.phys (hdmPlace m (off + i)))

/-- Sets the access flags of the window frames of a span (R65). -/
def hdmTouch (off n : Nat) (m : Mach) : Mach :=
  onMem (fun x =>
    { x with touched := dedupKeep ((spanVpns off n).map (fun p => m.cxl.hdmFrames.getD p 0) ++ x.touched) }) m

def hdmPut (off : Nat) (bs : List Byte) (m : Mach) : Mach :=
  hdmTouch off bs.length
    (onMem (fun x => { x with phys := (bs.zip (List.range bs.length)).foldl (fun l b => cellPut l (hdmPlace m (off + b.2)) b.1) x.phys }) m)

/-- A back-invalidation snoop of the line of a host address. -/
def snoopLine (addr : Nat) (m : Mach) : Mach := count 0x6D00 0x08 (emit (.backInvalidate (addr / 64 * 64)) m)

/-- The lines of a span of host addresses. -/
def hostLines (addr n : Nat) : List Nat := (List.range (n / 64)).map (fun j => addr + 64 * j)

/-- No line of a span lies in the window. -/
def windowFree (m : Mach) (addr n : Nat) : Bool := (hostLines addr n).all (fun a => (hdmOffset m a).isNone)

/-- The device's reads of the lines of a span: from HBM, after a snoop, where a line lies in the window, and from the host by RdCurr where
it does not (R564, R569). -/
def readLines (addr n : Nat) (m : Mach) : Mach :=
  (hostLines addr n).foldl (fun m a => match hdmOffset m a with
    | some off => hdmTouch off 64 (snoopLine a m)
    | none => emit (.hostRead a 64) m) m

/-- The octets of a span: those of the window from HBM, the others as the host gives them. -/
def hostOctets (m : Mach) (addr : Nat) (data : List Byte) (n : Nat) : List Byte :=
  (List.range (n / 64)).flatMap (fun j => match hdmOffset m (addr + 64 * j) with
    | some off => hdmGet m off 64
    | none => slice data (64 * j) 64)

/-- The device's writes of the lines of a span: into HBM, after a snoop, or to the host by WrCur (R564, R569). -/
def writeLines (addr : Nat) (bs : List Byte) (m : Mach) : Mach :=
  if windowFree m addr bs.length then emit (.hostWrite addr bs) m
  else (List.range (bs.length / 64)).foldl (fun m j =>
    let a := addr + 64 * j
    match hdmOffset m a with
    | some off => hdmPut off (slice bs (64 * j) 64) (snoopLine a m)
    | none => emit (.hostWrite a (slice bs (64 * j) 64)) m) m

/-! ### Completions and fetches -/

/-- R562: the place of completion entry and of command entry `i`. -/
def cplPlace (r : CmdRing) (i : Nat) : Nat := r.cplBase + i % 2 ^ r.cplLog2 * 16
def cmdPlace (r : CmdRing) (i : Nat) : Nat := r.cmdBase + i % 2 ^ r.cmdLog2 * 64

/-- R563: writes a completion entry: Tag, Status, Result. One that lies in the window is written in HBM after a snoop (R569). -/
def writeCompletion (k tag status result : Nat) (m : Mach) : Mach :=
  let r := cmdRing m k
  let a := cplPlace r r.cplProduced
  let bs := leBytes 4 tag ++ leBytes 4 status ++ leBytes 8 result
  let m1 := setCmdRing k { r with cplProduced := (r.cplProduced + 1) % 2 ^ 32 } (match hdmOffset m a with
    | some off => hdmPut off bs (snoopLine a m)
    | none => emit (.hostWrite a bs) m)
  let m2 := if r.irq then emit (.msix r.port 0) m1 else m1
  count 0x6D00 0x01 (if status == 0 then m2 else count 0x6D00 0x02 m2)

/-- R566: the entry at a ring's consumer count is read; the next fetch looks at the rings from the following one on. -/
def fetchEntry (k : Nat) (m : Mach) : Mach :=
  let r := cmdRing m k
  let m1 := readLines (cmdPlace r r.consumed) 64 (setCmdRing k { r with consumed := (r.consumed + 1) % 2 ^ 32 } m)
  { m1 with cxl := { m1.cxl with turn := (k + 1) % 4 } }

/-! ### Bulk copies (R565) -/

/-- R528, R530: octets of the reserve at an offset of its object under root index 0xFFFF. -/
def reserveBytes (m : Mach) (off n : Nat) : List Byte :=
  (List.range n).map (fun i => cellGet m.mem.phys (placeOf 0 (m.mem.reserve.getD ((off + i) / 2 ^ 21) 0) ((off + i) % 2 ^ 21)))

/-- Octets of a VA span as a bulk read sees them. -/
def bulkBytes (m : Mach) (va n : Nat) : List Byte :=
  if reserveVa ≤ va then reserveBytes m (va - reserveVa) n else vget m.mem va n

/-- The lower-tier pieces of a bulk copy's span. -/
def bulkLow (m : Mach) (va n : Nat) : List (Nat × Nat) := if reserveVa ≤ va then [] else lowSpans m.mem [(va, n)]

/-- A bulk copy's reads or writes of lower-tier octets, each through its region's port (R560, R575). -/
def bulkTier (write : Bool) (va n : Nat) (m : Mach) : Mach :=
  (bulkLow m va n).foldl (fun m p =>
    let (_, f) := pageTier m.mem p.1
    let id := m.mem.nextId
    let port := (regionAt m (frameRegion f)).port
    let a := hostAddr m f (p.1 % 2 ^ 21)
    onMem (fun x => { x with nextId := id + 1 })
      (if write then count 0x6D00 0x07 (emit (.tierWrite id port a (vget m.mem p.1 p.2)) m)
       else count 0x6D00 0x06 (emit (.tierRead id port a p.2) m))) m

/-- The lower tiers of a span can be reached through their ports. -/
def bulkReach (m : Mach) (va n : Nat) : Bool :=
  (bulkLow m va n).all (fun p =>
    let k := frameRegion (pageTier m.mem p.1).2
    !m.mem.lostRegions.contains k && (cxlPort m (regionAt m k).port).l0)

/-- Moves the first `n` octets of a bulk copy. -/
def bulkMove (b : Bulk) (n : Nat) (m : Mach) : Mach :=
  match b with
  | .write host va data =>
    bulkTier true va n (countN 0x6D00 0x03 n (onMem (vput va (hostOctets m host data n)) (readLines host n m)))
  | .read host va _ =>
    countN 0x6D00 0x03 n (writeLines host (bulkBytes m va n)
      (bulkTier false va n (if reserveVa ≤ va then m else onMem (vtouch va n) m)))

def bulkLen : Bulk → Nat
  | .write _ _ data => data.length
  | .read _ _ n => n

/-- The classes that R52 names. -/
def quietClass (v : Nat) : Bool := !(oClass v == 5 || oClass v == 6)

/-- The object that holds a span whole. -/
def spanObject (m : Mach) (va n : Nat) : Except Nat Nat :=
  match objAt m.mem va with
  | none => .error 0x0D200003
  | some v => if va + n ≤ (objSpan v).2 then .ok v else .error 0x0D200003

/-- A span meets the agreed exponent table of a loaded context, which changes in READY, QUENCH and HALT only (R458). -/
def meetsAgreed (m : Mach) (va n : Nat) : Bool :=
  m.ctxs.list.any (fun c => loaded c && c.gey.buckets.any (fun b =>
    decide (va < bdScale b.desc.v + 2 * bdBlocks b.desc.v) && decide (bdScale b.desc.v < va + n)))

/-- R52, R565: whether octets may be copied now between the host and a span. -/
def bulkAllowed (write : Bool) (va n : Nat) (m : Mach) : Except Nat Unit := do
  if reserveVa ≤ va then
    (if write then .error 0x0D200004
     else if va - reserveVa + n ≤ m.mem.reserve.length * 2 ^ 21 then return () else .error 0x0D200003)
  else
    let v ← spanObject m va n
    need (decide (readCheck m.mem va n = 0)) 0x0D200003
    let st := m.dev.st
    let calm := if write && (quietClass v || meetsAgreed m va n) then st == .ready || st == .quench || st == .halt else (ctxAt m (oCtx v)).st != .run
    need calm 0x0D200002
    need (!(write && (spanVpns va n).any (fun p => m.mem.migs.any (fun g => g.vpn == p)))) 0x0D200003

/-- A copy under way may move octets now: nothing refuses it (R19, R52, R565), and the lower tiers of its span can be reached (R560). -/
def bulkMay (b : Bulk) (m : Mach) : Bool :=
  match b with
    | .write _ va data => (bulkAllowed true va data.length m).toBool && bulkReach m va data.length
    | .read _ va n => (bulkAllowed false va n m).toBool && bulkReach m va n

/-- A bulk copy that stops: how many 64-octet lines it has moved is open; none while it may move none. -/
def bulkStop (b : Bulk) (m : Mach) : Mach :=
  if !bulkMay b m then m
  else
    let (x, m1) := freshFree m
    bulkMove b (x % (bulkLen b / 64 + 1) * 64) m1

/-! ### Beginning, completing and cancelling commands -/

/-- Completes the ring's command, if it is done and a completion slot is free (R566). -/
def finishCmd (k : Nat) (m : Mach) : Mach :=
  let r := cmdRing m k
  match r.current with
  | some c =>
    if c.ready && cplRoom r && anyPort m then
      writeCompletion k c.tag c.status c.result (setCmdRing k { r with current := none } m)
    else m
  | none => m

/-- The completions that a cancelled ring owes are written as its completion ring has room, for none is dropped; then its counts return
to zero (R566, R567). -/
def payOwed (k : Nat) : Nat → Mach → Mach
  | 0, m => m
  | n + 1, m =>
    let r := cmdRing m k
    match r.owed with
    | [] => setCmdRing k { r with produced := 0, consumed := 0, cplProduced := 0, cplConsumed := 0 } m
    | e :: rest => if cplRoom r then payOwed k n (writeCompletion k e.1 e.2.1 e.2.2 (setCmdRing k { r with owed := rest } m)) else m

/-- Goes on with the completions that a cancelled ring owes. -/
def payRing (k : Nat) (m : Mach) : Mach := payOwed k ((cmdRing m k).owed.length + 1) m

/-- Fresh Tags of commands that the device has not fetched: they stand in host memory. -/
def freeTags : Nat → Mach → List Nat × Mach
  | 0, m => ([], m)
  | n + 1, m =>
    let (t, m1) := freshFree m
    let (l, m2) := freeTags n m1
    (t % 2 ^ 32 :: l, m2)

/-- R567: a ring is cancelled: a bulk copy under way stops, every command not yet begun is to complete with CMD_CANCELLED, Enable clears. -/
def cancelRing (k : Nat) (m : Mach) : Mach :=
  let r := cmdRing m k
  let m1 := match r.current with
    | some c => (match c.bulk with | some b => bulkStop b m | none => m)
    | none => m
  if !anyPort m then setCmdRing k (ringCleared r) m1
  else
    let now := match r.current with
      | some c => [(c.tag, if c.ready then c.status else 0x0D200006, if c.ready then c.result else 0)]
      | none => []
    let (tags, m2) := freeTags (min (diff32 r.produced r.consumed) (2 ^ r.cmdLog2)) m1
    payRing k (setCmdRing k { r with
      enable := false, current := none, epoch := r.epoch + 1, consumed := r.produced,
      owed := r.owed ++ now ++ tags.map (fun t => (t, 0x0D200006, 0)) } m2)

/-- Cancels the rings last served on a port. -/
def cancelPort (p : Nat) (m : Mach) : Mach :=
  (List.range 4).foldl (fun m k => if (cmdRing m k).served && (cmdRing m k).port == p then cancelRing k m else m) m

/-! ### Fields of a command entry (R563) -/

def ceOp (e : List Byte) : Nat := octs e 0 1
def ceCtx (e : List Byte) : Nat := octs e 2 1
def ceTag (e : List Byte) : Nat := octs e 4 4
def ceHost (e : List Byte) : Nat := octs e 8 8
def ceVa (e : List Byte) : Nat := octs e 16 8
def ceLen (e : List Byte) : Nat := octs e 24 8
def ceArg (e : List Byte) : Nat := octs e 32 8

/-- The entry has a listed opcode, no reserved field and no misaligned one. -/
def entryOk (e : List Byte) : Bool :=
  e.length == 64 && decide (1 ≤ ceOp e) && decide (ceOp e ≤ 8) && decide (octs e 1 1 ≤ 1) && octs e 3 1 == 0 &&
  (decide (ceCtx e < 16) || ceCtx e == 255) && ceHost e % 64 == 0 && ceVa e % 64 == 0 && ceLen e % 64 == 0 &&
  decide (ceLen e ≤ 2 ^ 30) && zeroOcts e 40 24

/-- What a command answers at once: a status with a result, or that it takes time (with its bulk copy). -/
inductive CmdOut where
  | done (status result : Nat) (s : State)
  | busy (bulk : Option Bulk) (s : State)

/-- A ring has a command that it could begin: enabled, one waits, none is under way, nothing is owed (R566). -/
def ringReady (m : Mach) (k : Nat) : Bool :=
  let r := cmdRing m k
  decide (k < 4) && r.enable && r.produced != r.consumed && r.current.isNone && r.owed.isEmpty && portCaches m r.port

/-- R566: it is a ring's turn: no ring before it, in round-robin order, could be fetched from. -/
def ringTurn (m : Mach) (k : Nat) : Bool :=
  (List.range 4).find? (fun j => let q := (m.cxl.turn + j) % 4; q == k || (ringReady m q && cplRoom (cmdRing m q))) ==
    some ((k + 4 - m.cxl.turn % 4) % 4)

/-- A ring can begin its next command. -/
def ringCan (m : Mach) (k : Nat) : Bool := ringReady m k && ringTurn m k

/-- Fetches the entry of a ring's next command and runs it; `op` is the opcode that the row stands for. A full completion
ring holds the command, or, where the entry has a reserved field, cancels the ring (R566, R574). Poison with an entry that is none is the
entry's own. -/
def ringCommand (k op : Nat) (e : List Byte) (poison : Bool) (f : State → CmdOut) (s : State) : State :=
  if !ringCan s.m k || (decide (1 ≤ ceOp e) && decide (ceOp e ≤ 8) && ceOp e != op) then s
  else if !cplRoom (cmdRing s.m k) then
    (if entryOk e then s else onM (fun m => cancelRing k (raiseDev 0x0D02 m)) s)
  else
    let s0 := onM (fetchEntry k) s
    if poison && !entryOk e then
      onM (fun m => let (t, m1) := freshFree m; writeCompletion k (t % 2 ^ 32) 0x0D200005 0 (raiseDev 0x0D03 m1)) s0
    else
    let out := if entryOk e then f s0 else .done 0x0D200001 0 s0
    match out with
    | .done status result s1 => onM (writeCompletion k (ceTag e) status result) s1
    | .busy b s1 => onM (fun m => setCmdRing k { cmdRing m k with
        current := some { opcode := op, tag := ceTag e, status := 0, result := 0, bulk := b, ready := false } } m) s1

/-- A command without a value that refuses with a status or goes on. -/
def cmdOf (s : State) : Except Nat (Mach × Nat) → CmdOut
  | .ok (m, r) => .done 0 r { s with m := m }
  | .error c => .done c 0 s

/-- R574: poison in a host read. -/
def poisoned (s : State) : CmdOut := .done 0x0D200005 0 (onM (raiseDev 0x0D03) s)

/-- The context that a command names, loaded. -/
def cmdCtx (m : Mach) (e : List Byte) : Except Nat Nat :=
  if decide (16 ≤ ceCtx e) || !loaded (ctxAt m (ceCtx e)) then .error 0x0D200004 else .ok (ceCtx e)

/-! ### The commands -/

/-- What the device does before it takes an image: it reads the image's lines (R564), those in the HDM window after their snoops (R569);
entries of the object table that fail their check are reported and not used (R49). -/
def beforeLoad (e : List Byte) (m : Mach) : Mach :=
  let m1 := readLines (ceHost e) (ceLen e) m
  if tableBad m1 then count 0x6700 0x0C (raiseDev 0x0701 m1) else m1

/-- LOAD. The pointers of the grant points are zero after a load (R398). -/
def cmdLoad (e : List Byte) (img : JobImage) (poison : Bool) (s : State) : CmdOut :=
  if !(s.m.dev.st == .ready || s.m.dev.st == .quench || s.m.dev.st == .run) then .done 0x0D200002 0 s
  else if poison then poisoned s
  else
    let s1 := onM (beforeLoad e) s
    cmdOf s1 (do
      let (m, hw) ← loadImage img s1.m
      return (onMem (fun x => { x with grants := [] }) m, hw))

/-- UNLOAD. -/
def cmdUnload (e : List Byte) (s : State) : CmdOut :=
  cmdOf s (do
    let i ← cmdCtx s.m e
    let st := (ctxAt s.m i).st
    if st == .idle || st == .held || st == .halt then return (unloadCtx i s.m, 0) else .error 0x0D200002)

/-- Adds to a step grant; a sum beyond 32 bits is open. -/
def addGrant (i n : Nat) (m : Mach) : Mach :=
  let g := (ctxAt m i).grant + n
  if g < 2 ^ 32 then modCtx i (fun c => { c with grant := g }) m
  else
    let (x, m1) := freshFree m
    modCtx i (fun c => { c with grant := x % 2 ^ 32 }) m1

/-- STEP_GO. -/
def cmdStepGo (e : List Byte) (s : State) : CmdOut :=
  cmdOf s (do
    let i ← cmdCtx s.m e
    let st := (ctxAt s.m i).st
    if st == .idle || st == .run || st == .held then return (startPass i (addGrant i (ceArg e % 2 ^ 32) s.m), 0)
    else .error 0x0D200002)

/-- R565: whether a bulk command may run. -/
def bulkCheck (write : Bool) (e : List Byte) (m : Mach) : Except Nat Unit := bulkAllowed write (ceVa e) (ceLen e) m

/-- A command that a span's checks refuse: entries of the span that fail their complements are reported (R49, R53). -/
def refusedSpan (e : List Byte) (c : Nat) (s : State) : CmdOut :=
  .done c 0 (if c == 0x0D200003 && decide (ceVa e < reserveVa) then onM (spanCheck 16 (ceVa e) (max 1 (ceLen e))) s else s)

/-- BULK_WRITE. -/
def cmdBulkWrite (e data : List Byte) (poison : Bool) (s : State) : CmdOut :=
  match bulkCheck true e s.m with
  | .error c => refusedSpan e c s
  | .ok _ => if poison then poisoned s else .busy (some (.write (ceHost e) (ceVa e) (slice data 0 (ceLen e)))) s

/-- BULK_READ. -/
def cmdBulkRead (e : List Byte) (s : State) : CmdOut :=
  match bulkCheck false e s.m with
  | .error c => refusedSpan e c s
  | .ok _ => .busy (some (.read (ceHost e) (ceVa e) (ceLen e))) s

/-- MIGRATE. -/
def cmdMigrate (e : List Byte) (s : State) : CmdOut :=
  if ceArg e % 4 != 3 && (pageCheck s.m.mem 16 (vpnOf (ceVa e))).isSome then refusedSpan e 0x0D200003 s
  else cmdOf s (do
    need (ceArg e % 4 != 3) 0x0D200001
    let v ← spanObject s.m (ceVa e) 1
    need (loaded (ctxAt s.m (oCtx v))) 0x0D200004
    need (oPolicy v == 4) 0x0D200002
    need (!s.m.mem.migs.any (fun g => g.vpn == vpnOf (ceVa e))) 0x0D200003
    return (onMem (fun x => { x with hostMig := x.hostMig ++ [(vpnOf (ceVa e), ceArg e % 4)] }) s.m, 0))

/-- FIRMWARE (R631, R632, R635): the image is Length octets; an Arg other than zero delivers the helper block too. -/
def cmdFirmware (k : Nat) (e image helper : List Byte) (poison : Bool) (s : State) : CmdOut :=
  if s.m.dev.st != .preboot || s.boot.fwAccepted then .done 0x0D200002 0 s
  else if poison then poisoned s
  else
    let s0 := onM (readLines (ceHost e) (ceLen e)) s
    let s1 := if ceArg e == 0 then s0 else onB (fun b => { b with helper := some (slice helper 0 4096) }) s0
    .busy none (deliverImage ⟨slice image 0 (ceLen e), 1 + (cmdRing s.m k).port, some (ringRef k s.m)⟩ s1)

/-! ### Meanings of the ring rows -/

/-- LOAD (R40, R563). -/
def execLoad (ring : Nat) (entry : List Byte) (img : JobImage) (poison : Bool) (s : State) : Host.Outcome State Fault Refusal :=
  .next (ringCommand ring 1 entry poison (cmdLoad entry img poison) s)

/-- UNLOAD (R563, R73). -/
def execUnload (ring : Nat) (entry : List Byte) (s : State) : Host.Outcome State Fault Refusal :=
  .next (ringCommand ring 2 entry false (cmdUnload entry) s)

/-- STEP_GO (R563). -/
def execStepGo (ring : Nat) (entry : List Byte) (s : State) : Host.Outcome State Fault Refusal :=
  .next (ringCommand ring 3 entry false (cmdStepGo entry) s)

/-- BULK_WRITE (R565). -/
def execBulkWrite (ring : Nat) (entry data : List Byte) (poison : Bool) (s : State) : Host.Outcome State Fault Refusal :=
  .next (ringCommand ring 4 entry poison (cmdBulkWrite entry data poison) s)

/-- BULK_READ (R565). -/
def execBulkRead (ring : Nat) (entry : List Byte) (s : State) : Host.Outcome State Fault Refusal :=
  .next (ringCommand ring 5 entry false (cmdBulkRead entry) s)

/-- MIGRATE (R563). -/
def execMigrate (ring : Nat) (entry : List Byte) (s : State) : Host.Outcome State Fault Refusal :=
  .next (ringCommand ring 6 entry false (cmdMigrate entry) s)

/-- FIRMWARE (R631). -/
def execFirmware (ring : Nat) (entry image helper : List Byte) (poison : Bool) (s : State) : Host.Outcome State Fault Refusal :=
  .next (ringCommand ring 7 entry poison (cmdFirmware ring entry image helper poison) s)

/-- NOP (R563). -/
def execNop (ring : Nat) (entry : List Byte) (s : State) : Host.Outcome State Fault Refusal :=
  .next (ringCommand ring 8 entry false (fun s => .done 0 0 s) s)

/-- The halves of a doorbell value are complements (R562). -/
def doorbellOk (v : Nat) : Bool := pairOk 32 (v % 2 ^ 32) (v / 2 ^ 32)

/-- CMD_DOORBELL on machine state. -/
def ringDoorbell (k port v : Nat) (m : Mach) : Mach :=
  if !portServes m port || decide (4 ≤ k) then m
  else if !doorbellOk v then count 0x6D00 0x04 m
  else setCmdRing k { cmdRing m k with produced := v % 2 ^ 32, port := port, served := true } m

/-- CPL_DOORBELL on machine state. -/
def cplDoorbell (k port v : Nat) (m : Mach) : Mach :=
  if !portServes m port || decide (4 ≤ k) then m
  else if !doorbellOk v then count 0x6D00 0x04 m
  else
    let m1 := setCmdRing k { cmdRing m k with cplConsumed := v % 2 ^ 32 } m
    if (cmdRing m k).owed.isEmpty then finishCmd k m1 else payRing k m1

/-- CMD_DOORBELL (R562). -/
def execCmdDoorbell (ring port value : Nat) (s : State) : Host.Outcome State Fault Refusal := .next (onM (ringDoorbell ring port value) s)

/-- CPL_DOORBELL (R561, R562). -/
def execCplDoorbell (ring port value : Nat) (s : State) : Host.Outcome State Fault Refusal := .next (onM (cplDoorbell ring port value) s)

/-- A ring size code is one of R561's. -/
def sizesOk (v : Nat) : Bool :=
  decide (4 ≤ fld v 23 20) && decide (4 ≤ fld v 19 16)

/-- R561, R562: a write of RingControl that does not set Reset. -/
def writeControl (v : Nat) (r : CmdRing) : CmdRing :=
  let sized := decide (fld v 23 20 ≤ 15) && decide (fld v 19 16 ≤ 15) && sizesOk v
  if r.enable && tbit v 31 then r
  else if !sized && tbit v 31 then r
  else
    let r1 := if sized then { r with cmdLog2 := fld v 23 20, cplLog2 := fld v 19 16 } else r
    { r1 with enable := tbit v 31, irq := tbit v 15 }

/-- RING_CONTROL_WRITE on machine state: RingControl and the two bases of a ring block. -/
def ringWrite (k port off v : Nat) (m : Mach) : Mach :=
  if !portServes m port || decide (4 ≤ k) then m
  else
    let r := cmdRing m k
    match off with
    | 0x00 => if tbit v 30 then cancelRing k m else setCmdRing k (writeControl v r) m
    | 0x08 => setCmdRing k { r with cmdBase := v % 2 ^ 64 / 4096 * 4096 } m
    | 0x10 => setCmdRing k { r with cplBase := v % 2 ^ 64 / 4096 * 4096 } m
    | _ => m

/-- RING_CONTROL_WRITE (R561, R562). -/
def execRingControlWrite (ring port offset value : Nat) (s : State) : Host.Outcome State Fault Refusal :=
  .next (onM (ringWrite ring port offset value) s)

/-- RING_RESET (R567). -/
def execRingReset (ring : Nat) (s : State) : Host.Outcome State Fault Refusal :=
  .next (if ring < 4 && (portServes s.m 0 || portServes s.m 1) then onM (cancelRing ring) s else s)

/-- FUNCTION_LEVEL_RESET (R567). -/
def execFunctionLevelReset (port : Nat) (s : State) : Host.Outcome State Fault Refusal :=
  .next (if portServes s.m port then onM (cancelPort port) s else s)

/-- COMMAND_COMPLETE on machine state: a bulk copy is carried out; a command that is done writes its completion. A copy that began
while it was allowed and is not now (R19, R52) waits until it is: DESIGN CHOICE (log entry 89). -/
def commandComplete (k : Nat) (m : Mach) : Mach :=
  let r := cmdRing m k
  match r.current with
  | none => m
  | some c =>
    let m1 := match c.bulk with
      | some b => if !bulkMay b m then m
        else setCmdRing k { r with current := some { c with bulk := none, ready := true } } (bulkMove b (bulkLen b) m)
      | none => m
    finishCmd k m1

/-- COMMAND_COMPLETE (R566). -/
def execCommandComplete (ring : Nat) (s : State) : Host.Outcome State Fault Refusal := .next (onM (commandComplete ring) s)

/-- CXL_HOST_TIMEOUT on machine state: the bulk copy under way, or the next command, finds no host read answered. -/
def hostTimeout (k : Nat) (m : Mach) : Mach :=
  let r := cmdRing m k
  match r.current with
  | some c =>
    match c.bulk with
    | some (.write h va d) =>
      let m1 := bulkStop (.write h va d) (timeBy 500000000 m)
      finishCmd k (raiseDev 0x0D04 (setCmdRing k { cmdRing m1 k with
        current := some { c with bulk := none, ready := true, status := 0x0D200005 } } m1))
    | _ => m
  | none =>
    if ringCan m k && cplRoom r then
      let (tag, m1) := freshFree (timeBy 500000000 m)
      writeCompletion k (tag % 2 ^ 32) 0x0D200005 0 (raiseDev 0x0D04 (fetchEntry k m1))
    else m

/-- CXL_HOST_TIMEOUT (R574). -/
def execCxlHostTimeout (ring : Nat) (s : State) : Host.Outcome State Fault Refusal := .next (onM (hostTimeout ring) s)

/-! ### CXL.cache, CXL.mem, the mailbox's standard commands -/

/-- HOST_SNOOP (R564). -/
def execHostSnoop (port _addr : Nat) (s : State) : Host.Outcome State Fault Refusal :=
  .next (if portCaches s.m port then onM (emit (.rspIHitI port)) s else s)

/-- HDM_ACCESS on machine state: a host read or write of window octets. -/
def hdmAccess (port addr len : Nat) (data : Option (List Byte)) (m : Mach) : Mach :=
  let b := (cxlPort m port).hdmBase
  if !(portServes m port && (cxlPort m port).cxl && b != 0 && decide (b ≤ addr) && decide (addr + len ≤ b + hdmBytes m)) then m
  else match data with
    | none => hdmTouch (addr - b) len (emit (.hdmData port (hdmGet m (addr - b) len)) m)
    | some bs => hdmPut (addr - b) (slice bs 0 len) m

/-- HDM_ACCESS (R569). -/
def execHdmAccess (port addr len : Nat) (data : Option (List Byte)) (s : State) : Host.Outcome State Fault Refusal :=
  .next (onM (hdmAccess port addr len data) s)

/-- A standard mailbox command is served. -/
def mailboxServed (port opcode : Nat) (m : Mach) : Mach :=
  if portServes m port then count 0x6D00 0x09 (emit (.mailbox port opcode) m) else m

/-- MAILBOX_IDENTIFY (R568). The manual gives no content of the answer. -/
def execMailboxIdentify (port : Nat) (s : State) : Host.Outcome State Fault Refusal := .next (onM (mailboxServed port 0x0001) s)

/-- MAILBOX_GET_SUPPORTED_LOGS (R568). -/
def execMailboxGetSupportedLogs (port : Nat) (s : State) : Host.Outcome State Fault Refusal := .next (onM (mailboxServed port 0x0400) s)

/-! ### Configuration requests -/

/-- Where the model places the HDM decoder's base in a function's configuration space: low and high half. -/
def hdmBaseLow : Nat := 0x10010
def hdmBaseHigh : Nat := 0x10014

/-- Where the model places the device's serial number, which both functions share (R559): low and high half, read only. -/
def serialLow : Nat := 0x104
def serialHigh : Nat := 0x108

/-- A configuration request (R570): refused for a retry before PREBOOT; afterwards served. A register that nothing has
written reads an open value; the serial number is one open value for both functions (log entry 50). -/
def configRequest (port off : Nat) (v : Option Nat) (m : Mach) : Mach :=
  let x := cxlPort m port
  if !x.l0 || decide (2 ≤ port) then m
  else if !cxlServes m.dev.st then emit (.cfgRetry port) m
  else if off == serialLow || off == serialHigh then
    (if v.isNone then emit (.cfgData port ((Config.freeValue (2 ^ 82 + off)).toNat % 2 ^ 32)) m else m)
  else match v with
    | none => emit (.cfgData port (x.cfg.get off ((Config.freeValue (2 ^ 81 + port * 2 ^ 40 + off)).toNat % 2 ^ 32))) m
    | some w =>
      let cfg := x.cfg.put off (w % 2 ^ 32)
      setCxlPort port { x with cfg := cfg, hdmBase := cfg.get hdmBaseLow 0 / 2 ^ 28 * 2 ^ 28 + cfg.get hdmBaseHigh 0 * 2 ^ 32 } m

/-- CONFIGURATION_REQUEST (R570). -/
def execConfigurationRequest (port offset : Nat) (value : Option Nat) (s : State) : Host.Outcome State Fault Refusal :=
  .next (onM (configRequest port offset value) s)

/-! ### Port events -/

/-- The tier regions that a port serves. -/
def portRegions (m : Mach) (p : Nat) : List Nat :=
  (List.range 8).filter (fun k => (regionAt m k).kind != 0 && (regionAt m k).port == p)

/-- R572: a port leaves L0; `fault` unless a hot reset or the host did it. -/
def cxlDown (p : Nat) (fault : Bool) (m : Mach) : Mach :=
  let m1 := count 0x6D00 0x05 (setCxlPort p { cxlPort m p with l0 := false, training := !(cxlPort m p).perst && tbit m.pwr.refs 2 } m)
  let m2 := cancelPort p (if fault then raiseDev 0x0D01 m1 else m1)
  let ks := portRegions m2 p
  if fault then ks.foldl (fun m k => regionDown k m) m2
  else onMem (loseRegions ks) m2

/-- R570, R571: a port reaches L0; its regions serve again. -/
def cxlUp (p width speed : Nat) (cxl : Bool) (m : Mach) : Mach :=
  let slow := decide (width < 8) || decide (speed < 64)
  let m1 := setCxlPort p { cxlPort m p with l0 := true, training := false, width := width, speed := speed, cxl := cxl, degraded := slow } m
  let m2 := onMem (fun x => { x with lostRegions := x.lostRegions.filter (fun k => !(portRegions m p).contains k) }) m1
  if slow then raiseDev 0x0D05 m2 else m2

/-- A port may train: its reset input is high and reference 2 present; step 6 of start-up has begun. -/
def cxlTrains (m : Mach) : Bool :=
  match m.dev.st with
  | .off | .reset | .selftest | .fault => false
  | .train => m.dev.stepSix
  | _ => true

/-- PERST_N_ASSERT (R658, R572). -/
def execPerstNAssert (port : Nat) (s : State) : Host.Outcome State Fault Refusal :=
  .next (onM (fun m =>
    let up := (cxlPort m port).l0
    let m1 := setCxlPort port { cxlPort m port with perst := true, training := false } m
    if up then cxlDown port false m1 else m1) s)

/-- PERST_N_RELEASE (R658). -/
def execPerstNRelease (port : Nat) (s : State) : Host.Outcome State Fault Refusal :=
  .next (onM (fun m =>
    let x := cxlPort m port
    if x.perst then setCxlPort port { x with perst := false, training := cxlTrains m && tbit m.pwr.refs 2 } m else m) s)

/-- CXL_LINK_L0 (R570, R571): in TRAIN, the second port in L0 ends the state. -/
def execCxlLinkL0 (port width speed : Nat) (cxl : Bool) (s : State) : Host.Outcome State Fault Refusal :=
  .next (if (cxlPort s.m port).training && cxlTrains s.m then
    let s1 := onM (cxlUp port width speed cxl) s
    if s1.m.dev.st == .train && s1.m.cxl.ports.list.all CxlPort.l0 then endTrain s1 else s1
  else s)

/-- CXL_LINK_DOWN (R572). -/
def execCxlLinkDown (port : Nat) (hostRequested : Bool) (s : State) : Host.Outcome State Fault Refusal :=
  .next (onM (fun m => if (cxlPort m port).l0 then cxlDown port (!hostRequested) m else m) s)

end Sys2Proof.Machine
end

