-- ==== Sys2Proof/Machine/Power.lean ====
section
/-!
DEFINITION. Power, heat and clocks (16 R535 to R557): the sustained cap, the peak limiter, throttling, operating
points, the trip and the rails. Readings are in sixteenths of a degree; powers in watts.
-/

namespace Sys2Proof.Machine

/-- A periodic event: the time base reaches its due time, and the next one lies a period later. -/
def tick (key period10 : Nat) (m : Mach) : Mach :=
  let m1 := timeTo (m.pwr.due.get key 0) m
  { m1 with pwr := { m1.pwr with due := m1.pwr.due.put key (m1.dev.time10 + period10) } }

/-- Lifts an operation on the power unit. -/
def onPwr (f : Power → Power) (m : Mach) : Mach := { m with pwr := f m.pwr }

/-- The device is powered and out of reset. -/
def alive (m : Mach) : Bool := m.dev.st != .off && m.dev.st != .reset

/-- The fixed point of `0x3000.08`, if set (R541). -/
def fixedPoint (m : Mach) : Option Nat :=
  let v := dnum m 0x3000 0x08
  if v == 0 then none else some (v - 0x10)

/-- The point a die should run at (R538). -/
def wantedPoint (m : Mach) (d : DieClk) : Nat :=
  let a := min m.pwr.susPoint d.thPoint
  match fixedPoint m with
  | some f => min f d.thPoint
  | none => a

/-- The duty a die runs under (R538). -/
def wantedDuty (m : Mach) (d : DieClk) : Nat := min (min m.pwr.susDuty d.thDuty) d.ceiling

/-- R536, R538: every die takes its duty, and moves one point towards its wanted point at most once per 100 µs; issue
is gated until OPERATING_POINT_SWITCH_DONE. -/
def applyDies (m : Mach) : Mach :=
  (List.range 16).foldl (fun m k =>
    let d := m.pwr.dies.getD k {}
    let w := wantedPoint m d
    let d1 := { d with duty := wantedDuty m d }
    if w != d.point && !d.switching && (d.changedAt == 0 || decide (d.changedAt + 1000000 ≤ m.dev.time10)) then
      let d2 := { d1 with point := (if d.point < w then d.point + 1 else d.point - 1), switching := true, changedAt := max 1 m.dev.time10 }
      count 0x6C00 0x01 (onPwr (fun p => { p with dies := p.dies.set k d2 }) m)
    else onPwr (fun p => { p with dies := p.dies.set k d1 }) m) m

/-- Domain k (0 compute, 1 memory, 2 links) has reached its floor (R540). -/
def atFloor (m : Mach) (k : Nat) : Bool :=
  match k with
  | 0 => ((fixedPoint m).isSome || m.pwr.susPoint == 0) && decide (m.pwr.susDuty ≤ 8)
  | 1 => decide (m.pwr.memRate ≤ 8)
  | _ => decide (m.pwr.linkRate ≤ 8)

/-- One step down in a domain (R540, R541). -/
def stepDown (k : Nat) (m : Mach) : Mach :=
  match k with
  | 0 =>
    if (fixedPoint m).isNone && m.pwr.susPoint != 0 then onPwr (fun p => { p with susPoint := p.susPoint - 1 }) m
    else onPwr (fun p => { p with susDuty := p.susDuty - 4 }) m
  | 1 => onPwr (fun p => { p with memRate := p.memRate - 1 }) m
  | _ => onPwr (fun p => { p with linkRate := p.linkRate - 1 }) m

/-- The boost condition of R539. -/
def boostOk (m : Mach) (avg cap : Nat) : Bool :=
  dnum m 0x3000 0x09 == 1 && (fixedPoint m).isNone && decide (avg + 300 ≤ cap) &&
    (m.pwr.readings.list.take 64).all (fun r => decide (r ≤ 16 * (dnum m 0x3100 0x04 : Int)))

/-- A domain that can rise one step (R539, R540). -/
def canRise (m : Mach) (avg cap k : Nat) : Bool :=
  match k with
  | 0 => decide (m.pwr.susDuty < 64) || ((fixedPoint m).isNone && (decide (m.pwr.susPoint < 3) ||
      (m.pwr.susPoint == 3 && boostOk m avg cap)))
  | 1 => decide (m.pwr.memRate < 16)
  | _ => decide (m.pwr.linkRate < 16)

/-- One step up in a domain. -/
def stepUp (k : Nat) (m : Mach) : Mach :=
  match k with
  | 0 =>
    if m.pwr.susDuty < 64 then onPwr (fun p => { p with susDuty := min 64 (p.susDuty + 4) }) m
    else onPwr (fun p => { p with susPoint := p.susPoint + 1 }) m
  | 1 => onPwr (fun p => { p with memRate := p.memRate + 1 }) m
  | _ => onPwr (fun p => { p with linkRate := p.linkRate + 1 }) m

/-- The average of a list of powers, rounded down (log entry 45). -/
def averageW (l : List Nat) : Nat := if l.isEmpty then 0 else l.foldl (· + ·) 0 / l.length

/-- The device power of the last 10 ms (R534, R539): the average of the samples; `watts` where none is held yet (log entry 45). -/
def measuredW (m : Mach) (watts : Nat) : Nat := if m.pwr.samples.isEmpty then watts else averageW m.pwr.samples

/-- The domains in the order of PowerPriority. -/
def priorityOrder (m : Mach) : List Nat :=
  let v := dnum m 0x3000 0x07
  [fld v 1 0, fld v 3 2, fld v 5 4]

/-- SUSTAINED_EVALUATION (R539 to R541, R544): the average of the last 10 ms stands against the cap. -/
def execSustainedEvaluation (given : Nat) (s : State) : Host.Outcome State Fault Refusal :=
  .next (if alive s.m && s.m.dev.st != .fault then onM (fun m0 =>
    let watts := measuredW m0 given
    let m1 := tick 1 10000000 m0
    let m2 := if m1.pwr.dies.list.any (fun d => d.point == 4) then count 0x6C00 0x02 m1 else m1
    let cap := dnum m2 0x3000 0x01
    let m := onPwr (fun p => { p with avg := watts }) m2
    let order := priorityOrder m
    if cap < watts then
      match order.find? (fun k => !atFloor m k) with
      | some k => applyDies (count 0x6C00 0x03 (stepDown k (onPwr (fun p => { p with under := 0, above := 0, unmet := false }) m)))
      | none =>
        let m3 := onPwr (fun p => { p with under := 0, above := p.above + 1 }) m
        if 100 ≤ m3.pwr.above && !m3.pwr.unmet then raiseDev 0x0C01 (onPwr (fun p => { p with unmet := true }) m3) else m3
    else
      let u := if watts + 200 ≤ cap then m.pwr.under + 1 else 0
      let m3 := onPwr (fun p => { p with under := min u 10, above := 0, unmet := false }) m
      if 10 ≤ u then
        match order.reverse.find? (canRise m3 watts cap) with
        | some k => applyDies (stepUp k m3)
        | none => applyDies m3
      else applyDies m3) s else s)

/-! ### The peak limiter (R546), in binary64 -/

/-- A binary64 code from an exact quotient. -/
def f64q (num den : Nat) : Nat := (F64.roundQ .rne false false num den 0).code

/-- ⌊x⌋ of a binary64 code, none for NaN and infinities. -/
def f64floor (c : Nat) : Option Int :=
  match F64.decode c with
  | .fin n m e =>
    let (k, r, _) := scaleAt m 1 e 0
    some (if n then (if r == 0 then -(k : Int) else -(k : Int) - 1) else k)
  | _ => none

/-- The budget of R546 from the samples, newest first. -/
def peakBudget (samples : List Nat) : Nat :=
  let mul := F64.mulC .rne false
  let sub := F64.subC .rne false
  let micro := f64q 1 1000000
  let e := (samples.take 960).foldl (fun acc p => F64.addC .rne false acc (mul (f64q p 1) micro)) 0
  let reserve := mul (f64q 6000 1) (f64q 20 1000000)
  F64.divC .rne (sub (sub (f64q 56 10) e) reserve) (f64q 20 1000000)

/-- The duty ceiling of R546; none where the quotient is no finite number, whose conversion to an integer has no stated value. -/
def peakCeiling (budget po pc : Nat) : Option Nat :=
  (f64floor (F64.mulC .rne false (F64.divC .rne (F64.subC .rne false budget (f64q po 1)) (f64q pc 1)) (f64q 64 1))).map
    (fun i => (max 0 (min 64 i)).toNat)

/-- The ACLK frequency of a point, MHz (R535). -/
def pointMhz (k : Nat) : Nat := [400, 480, 640, 800, 960].getD k 400

/-- The gated cycles of 1 µs on a die, in sixty-fourths of a cycle (R536, R537): a switch gates them all, a duty d leaves 64 - d of
every 64. -/
def gatedParts (d : DieClk) : Nat := pointMhz d.point * (if d.switching then 64 else 64 - d.duty)

/-- R558: the gated cycles of all dies in 1 µs; the part of a cycle that is left over is carried to the next sample (log entry 45). -/
def countGated (m : Mach) : Mach :=
  let parts := m.pwr.dies.list.foldl (fun a d => a + gatedParts d) m.pwr.gatedRem
  countN 0x6C00 0x06 (parts / 64) (onPwr (fun p => { p with gatedRem := parts % 64 }) m)

/-- POWER_SAMPLE (R534, R546, R557): domain powers, the compute power projected to duty 64, and the device's draw at
duty 0 with memory held at half. -/
def execPowerSample (domains : List Nat) (fullDuty zeroDuty : Nat) (s : State) : Host.Outcome State Fault Refusal :=
  .next (if alive s.m then onM (fun m0 =>
    let mt := tick 0 10000 m0
    let dom := (List.range 4).map (fun k => domains.getD k 0)
    let total := dom.foldl (· + ·) 0
    let po := total - dom.getD 0 0
    let samples := (total :: mt.pwr.samples).take 10000
    let b := peakBudget samples
    let (ceil, m) := match peakCeiling b po fullDuty with
      | some c => (c, mt)
      | none => let (x, m1) := freshFree mt; (x % 65, m1)
    let hold := (F64.decode b).lt (F64.decode (f64q po 1))
    let floorHit := (F64.decode b).lt (F64.decode (f64q zeroDuty 1))
    let m1 := onPwr (fun p => { p with samples := samples, domains := (dom :: p.domains).take 10000, peakHold := hold,
                                       dies := p.dies.map (fun d => { d with ceiling := ceil }) }) m
    let m2 := if ceil < 64 then count 0x6C00 0x04 m1 else m1
    let m3 := if hold then count 0x6C00 0x05 m2 else m2
    let m4 := if floorHit then raiseDev 0x0C02 m3 else m3
    countGated (applyDies m4)) s else s)

/-- OPERATING_POINT_SWITCH_DONE (R536): issue gating of the die ends. -/
def execOperatingPointSwitchDone (die : Nat) (s : State) : Host.Outcome State Fault Refusal :=
  .next (if (s.m.pwr.dies.getD die {}).switching && alive s.m then onM (fun m =>
    let d := m.pwr.dies.getD die {}
    applyDies (onPwr (fun p => { p with dies := p.dies.set die { d with switching := false } }) (timeTo (d.changedAt + 10000) m))) s
  else s)

/-- PowerNow and DomainPower of a domain: averages of the last 1 ms. -/
def powerNow (m : Mach) : Nat := averageW (m.pwr.samples.take 1000)
def domainPower (m : Mach) (k : Nat) : Nat := averageW ((m.pwr.domains.take 1000).map (fun d => d.getD k 0))

/-! ### Heat (R547 to R549) -/

/-- The unit a sensor lies in: 0 to 15 compute dies, 16 to 23 memory dies, 24 to 31 link dies, 32 to 63 stacks. -/
def sensorUnit (k : Nat) : Nat :=
  if k < 64 then k / 4 else if k < 80 then 16 + (k - 64) / 2 else if k < 88 then 24 + (k - 80) else 32 + (k - 88)

/-- The sensors of a unit. -/
def unitSensors (u : Nat) : List Nat := (List.range 120).filter (fun k => sensorUnit k == u)

/-- A unit is hot, or has been cool, by the readings now held. -/
def unitHot (m : Mach) (u : Nat) : Bool :=
  (unitSensors u).any (fun k => decide (16 * (dnum m 0x3100 0x01 : Int) ≤ m.pwr.readings.getD k 0))
def unitCool (m : Mach) (u : Nat) : Bool :=
  (unitSensors u).all (fun k => decide (m.pwr.readings.getD k 0 + 48 ≤ 16 * (dnum m 0x3100 0x01 : Int)))

/-- One sensor's reading (R547). -/
def takeReading (k : Nat) (r : Option Int) (m : Mach) : Mach :=
  let thr : Int := 16 * (dnum m 0x3100 0x01 : Int)
  let set (v : Int) (m : Mach) : Mach := onPwr (fun p => { p with readings := p.readings.set k v }) m
  let fail (m : Mach) : Mach :=
    set thr (raiseDev 0x0C08 (count 0x6C00 0x08 (onPwr (fun p => { p with failed := k :: p.failed }) m)))
  if m.pwr.failed.contains k then set thr m
  else match r with
    | none => fail m
    | some v => if v < -640 || 2400 < v then fail m else set v m

/-- SENSOR_READ (R547, R548). -/
def execSensorRead (readings : List (Option Int)) (s : State) : Host.Outcome State Fault Refusal :=
  .next (if alive s.m then onM (fun m0 =>
    let m1 := (List.range 120).foldl (fun m k => takeReading k (readings.getD k none) m) (tick 2 1000000 m0)
    (List.range 64).foldl (fun m u =>
      if unitHot m u then
        if m.pwr.throttled.contains u then onPwr (fun p => { p with coolSince := p.coolSince.del u }) m
        else raiseDev 0x0C03 (onPwr (fun p => { p with
          throttled := p.throttled ++ [u], releasing := p.releasing.filter (· != u), coolSince := p.coolSince.del u }) m)
      else if m.pwr.throttled.contains u then
        if unitCool m u then
          match m.pwr.coolSince.find u with
          | none => onPwr (fun p => { p with coolSince := p.coolSince.put u m.dev.time10 }) m
          | some t =>
            if t + 100000000 ≤ m.dev.time10 then onPwr (fun p => { p with
              throttled := p.throttled.filter (· != u), releasing := p.releasing ++ [u],
              coolSince := p.coolSince.del u, stepAt := p.stepAt.put u m.dev.time10 }) m
            else m
        else onPwr (fun p => { p with coolSince := p.coolSince.del u }) m
      else m) m1) s else s)

/-- The rate that the sustained cap and the peak limiter ask of every HBM stack, in sixteenths (R538, R546). -/
def memCap (m : Mach) : Nat := min (if m.pwr.peakHold then 8 else 16) m.pwr.memRate

/-- The request rate of a memory die and the flit rate of a port, in sixteenths (R538, R546). -/
def memRateOf (m : Mach) (k : Nat) : Nat :=
  let st := (List.range 4).foldl (fun a j => min a (m.pwr.thRate.getD (32 + 4 * k + j) 16)) 16
  min (memCap m) (min st (m.pwr.thRate.getD (16 + k) 16))
def linkRateOf (m : Mach) (k : Nat) : Nat := min m.pwr.linkRate (m.pwr.thRate.getD (24 + k) 16)

/-- The present rate of a memory-side die, a link die or a stack, from which throttling steps (R548). -/
def unitRate (m : Mach) (u : Nat) : Nat :=
  if u < 24 then memRateOf m (u - 16)
  else if u < 32 then linkRateOf m (u - 24)
  else min (memCap m) (min (m.pwr.thRate.getD u 16) (m.pwr.thRate.getD (16 + (u - 32) / 4) 16))

/-- A throttled unit steps down from its present point, duty or rate (R548). -/
def throttleDown (u : Nat) (m : Mach) : Mach :=
  if u < 16 then
    let d := m.pwr.dies.getD u {}
    let pt := min d.point d.thPoint
    let d1 := if pt != 0 then { d with thPoint := pt - 1 }
      else { d with thPoint := 0, thDuty := max 4 (min d.duty d.thDuty - 4) }
    onPwr (fun p => { p with dies := p.dies.set u d1 }) m
  else
    let lim := if 24 ≤ u && u < 32 then 8 else 4
    onPwr (fun p => { p with thRate := p.thRate.set u (max lim (unitRate m u - 1)) }) m

/-- A released unit steps up (R548). -/
def throttleUp (u : Nat) (m : Mach) : Mach :=
  let done (m : Mach) : Mach := onPwr (fun p => { p with releasing := p.releasing.filter (· != u), stepAt := p.stepAt.del u }) m
  if u < 16 then
    let d := m.pwr.dies.getD u {}
    let d1 := if d.thDuty < 64 then { d with thDuty := min 64 (d.thDuty + 4) } else { d with thPoint := min 4 (d.thPoint + 1) }
    let m1 := onPwr (fun p => { p with dies := p.dies.set u d1 }) m
    if d1.thDuty == 64 && d1.thPoint == 4 then done m1 else m1
  else
    let r := min 16 (m.pwr.thRate.getD u 16 + 1)
    let m1 := onPwr (fun p => { p with thRate := p.thRate.set u r }) m
    if r == 16 then done m1 else m1

/-- THROTTLE_STEP_TIMER (R548). -/
def execThrottleStepTimer (s : State) : Host.Outcome State Fault Refusal :=
  .next (if alive s.m then onM (fun m0 =>
    let m1 := tick 3 10000000 m0
    let m2 := if m1.pwr.throttled.isEmpty then m1 else count 0x6C00 0x07 m1
    let m3 := m2.pwr.throttled.foldl (fun m u => throttleDown u m) m2
    let m4 := m3.pwr.releasing.foldl (fun m u =>
      let t := m.pwr.stepAt.get u 0
      if t + 100000000 ≤ m.dev.time10 then throttleUp u (onPwr (fun p => { p with stepAt := p.stepAt.put u m.dev.time10 }) m) else m) m3
    applyDies m4) s else s)

/-- THERMAL_TRIP (R549, R627): in FAULT from another cause too. -/
def execThermalTrip (sensor : Nat) (s : State) : Host.Outcome State Fault Refusal :=
  .next (if alive s.m && decide (sensor < 120) then onM (fun m =>
    let u := sensorUnit sensor
    let die := if u < 32 then u else 16 + (u - 32) / 4
    devFault 0x0C04 die { m with dev := { m.dev with thermTrip := true } }) s else s)

/-- RAIL_OUT_OF_RANGE (R557, R627). -/
def execRailOutOfRange (rail : Nat) (above : Bool) (s : State) : Host.Outcome State Fault Refusal :=
  .next (if alive s.m && decide (rail < 8) then onM (fun m =>
    let v := (m.pwr.rails.getD rail 1 / 2 * 2) ||| (if above then 4 else 2)
    devFault 0x0C05 0xFF (onPwr (fun p => { p with rails := p.rails.set rail v }) m)) s else s)

/-- The reference of a die's PLL (R551): 25 MHz, and 156.25 MHz for the LCLK of a link die. DEDUCED (log entry 45). -/
def pllRef (die : Nat) : Nat := if 24 ≤ die && die < 32 then 1 else 0

/-- PLL_UNLOCK (R553): the die's reference is present. -/
def execPllUnlock (die : Nat) (s : State) : Host.Outcome State Fault Refusal :=
  .next (if alive s.m && tbit s.m.pwr.refs (pllRef die) then onM (devFault 0x0C07 die) s else s)

/-- POWER_FLOOR_MEASURE (R543): in watts, rounded up, every 10 s from the entry into READY on. -/
def execPowerFloorMeasure (milliwatts : Nat) (s : State) : Host.Outcome State Fault Refusal :=
  .next (if notifies s.m.dev.st && s.m.dev.st != .fault && (s.m.pwr.due.find 4).isSome && !s.m.ctxs.list.any (fun c => c.st == .run) then
    onM (fun m => onPwr (fun p => { p with floor := ceilDiv milliwatts 1000 }) (tick 4 100000000000 m)) s else s)

end Sys2Proof.Machine
end

