-- ==== Sys2Proof/Machine/Link.lean ====
section
/-!
DEFINITION. The torus ports (12 R408 to R440): training, identity, keep-alive and the time exchange, lane swaps, the
receiving side of the link layer, loss of a link.
-/

namespace Sys2Proof.Machine

/-- A port leaves IDENTIFY or ACTIVE for another state without a DOWN flit. -/
def leaveActive (p st : Nat) (m : Mach) : Mach :=
  let x := portAt m p
  let m1 := setPort p { x with st := st, at10 := m.dev.time10, agreed := false } m
  if x.st == 6 then loseTime p m1 else m1

/-- A port enters DOWN and sends one DOWN flit (R428, R429). -/
def portDown (p cause : Nat) (m : Mach) : Mach :=
  let x := portAt m p
  if x.st == 0 || x.st == 7 then m
  else
    let m1 := sendMgmt p 4 (leBytes 2 cause) m
    let m2 := freeItems x.queue (setPort p { x with
      st := 7, at10 := m.dev.time10, agreed := false, queue := [], retry := [], swap := [], laneWait := false, nakSent := false,
      nullDue := false, nakDue := false, partialRx := [[], [], [], []], badRx := [false, false, false, false], heldRx := [[], [], [], []] } m1)
    if x.st == 6 then loseTime p m2 else m2

/-- R433: from ACTIVE, the step fails in every context whose cuts use the port's axis. -/
def failAxis (p code : Nat) (m : Mach) : Mach :=
  allRunning (fun i m => if (ctxAt m i).axes.contains (p / 2) then failCtx i code 0x01 p 0 0 m else m) m

/-- A fault of a port that takes it to DOWN (R411, R416, R432). -/
def portFault (p code : Nat) (m : Mach) : Mach :=
  let active := (portAt m p).st == 6
  let m1 := portDown p code (raiseDev code m)
  if active then failAxis p code m1 else m1

/-- PORT_LIGHT_DETECT (R428). -/
def execPortLightDetect (port lanes : Nat) (s : State) : Host.Outcome State Fault Refusal :=
  let x := portAt s.m port
  .next (if x.st == 1 && decide (40 ≤ lanes) && decide (port < 8) then
    onM (setPort port { x with st := 2, at10 := s.m.dev.time10, laneWait := false }) s else s)

/-- The first 40 lanes of a set (R408). -/
def laneMap (lanes : Nat) : List Nat := ((List.range 44).filter (tbit lanes)).take 40

/-- EQUALISE_COMPLETE (R408). How a transmitter learns the map of its partner is not stated: an operand (log entry 21). -/
def execEqualiseComplete (port : Nat) (lanes : LaneTest) (s : State) : Host.Outcome State Fault Refusal :=
  let x := portAt s.m port
  .next (if x.st == 2 && !x.laneWait && decide (port < 8) then
    let ok := (List.range 44).filter (tbit lanes.rx)
    let failed := (List.range 44).foldl (fun a l => if tbit lanes.rx l then a else a + 2 ^ l) 0
    if ok.length < 40 then
      onM (fun m => raiseDev 0x0902 (setPort port { x with laneWait := true, at10 := m.dev.time10, rxFailed := failed } m)) s
    else
      onM (setPort port { x with st := 3, at10 := s.m.dev.time10, rxMap := laneMap lanes.rx, rxSpare := ok.drop 40,
                                 rxFailed := failed, rxEpoch := 0, txMap := laneMap lanes.tx, txEpoch := 0 }) s
  else s)

/-- LANE_TEST_RETRY_EXPIRY (R408): 100 ms after too few lanes. -/
def execLaneTestRetryExpiry (port : Nat) (s : State) : Host.Outcome State Fault Refusal :=
  let x := portAt s.m port
  .next (if x.st == 2 && x.laneWait then
    onM (fun m => setPort port { x with st := 1, laneWait := false } (timeTo (x.at10 + 1000000000) m)) s else s)

/-- FEC_LOCK_COMPLETE (R428). -/
def execFecLockComplete (port : Nat) (s : State) : Host.Outcome State Fault Refusal :=
  let x := portAt s.m port
  .next (if x.st == 3 then onM (setPort port { x with st := 4, at10 := s.m.dev.time10 }) s else s)

/-- The buffers of R417. -/
def vcBuffers : List Nat := [1024, 1024, 1920, 128]

/-- A port's credits start anew: what its earlier flits still hold, in the queues of other ports and in front of full units, returns
none. -/
def forgetPort (p : Nat) (m : Mach) : Mach :=
  { m with tor := { m.tor with
      ports := m.tor.ports.map (fun x => { x with queue := x.queue.map (fun i => if i.src == p then { i with src := 8 } else i) })
      held := m.tor.held.map (fun h => if h.port == p then { h with credit := 0 } else h) } }

/-- FLIT_INIT_COMPLETE (R417, R428): sequence, retry buffer and credits set. -/
def execFlitInitComplete (port : Nat) (s : State) : Host.Outcome State Fault Refusal :=
  let x := portAt s.m port
  .next (if x.st == 4 then
    onM (fun m0 => let m := forgetPort port m0; freeItems (portAt m port).queue (setPort port { x with
      st := 5, at10 := m.dev.time10, limitRun := 0, txSeq := 0, rxLast := 4095, rxAny := false, nakSent := false,
      nullDue := false, nakDue := false,
      retry := [], resends := 0, resendFrom := 0, credits := vcBuffers, owed := [0, 0, 0, 0],
      partialRx := [[], [], [], []], badRx := [false, false, false, false], heldRx := [[], [], [], []], queue := [], vcPtr := 0,
      lastValid := m.dev.time10, agreed := false, lastRx := 0, lastRxAt := 0 } m)) s else s)

/-- TRAINING_STATE_TIMEOUT (R428): 20 ms, 1 ms, 100 µs. -/
def execTrainingStateTimeout (port : Nat) (s : State) : Host.Outcome State Fault Refusal :=
  let x := portAt s.m port
  .next (if (x.st == 2 && !x.laneWait) || x.st == 3 || x.st == 4 then
    let lim := if x.st == 2 then 200000000 else if x.st == 3 then 10000000 else 1000000
    let n := x.limitRun + 1
    onM (fun m =>
      let m1 := setPort port { x with st := 1, limitRun := n % 3 } (timeTo (x.at10 + lim) m)
      if n == 3 then raiseDev 0x0901 m1 else m1) s else s)

/-- DOWN_TIMER_EXPIRY (R428). -/
def execDownTimerExpiry (port : Nat) (s : State) : Host.Outcome State Fault Refusal :=
  let x := portAt s.m port
  .next (if x.st == 7 then
    onM (fun m => setPort port { x with st := (if mayTrain m port then 1 else 0), at10 := x.at10 + 10000000,
                                        alt := tbit (dnum m 0x5000 0x05) port } (timeTo (x.at10 + 10000000) m)) s else s)

/-- The coordinate, in the CSR layout, that R405 gives for the neighbour of a port. -/
def neighbourCoord (m : Mach) (p : Nat) : Nat :=
  let a := p / 2
  let n := max 1 (ringSize m a)
  let c := ownCoord m
  coordCsr (withAxis c a (if p % 2 == 0 then (axisOf c a + 1) % n else (axisOf c a + n - 1) % n))

/-- R430: the neighbour's identity agrees. -/
def identAgrees (m : Mach) (p : Nat) (id : Ident) : Bool :=
  id.axis == p / 2 && id.dir == 1 - p % 2 && id.ringSize == dnum m 0x5000 0x03 && id.coord == neighbourCoord m p

/-- A management flit is accepted by a port in IDENTIFY or ACTIVE (R432, `0x6900.02`). -/
def mgmtIn (p : Nat) (m : Mach) : Mach := count 0x6900 0x02 (setPort p { portAt m p with lastValid := m.dev.time10 } m)

/-- What an IDENT flit brings (R430). -/
def identTaken (port : Nat) (id : Ident) (m : Mach) : Mach :=
  let x := portAt m port
  let m1 := setPort port { x with peer := id } m
  if x.st != 5 || id.coord == 0xFFFFFFFF || (ownCoord? m).isNone then m1
  else if identAgrees m port id then
    count 0x6900 0x09 (setPort port { x with peer := id, agreed := true, st := 6, at10 := m.dev.time10 } m)
  else raiseDev 0x0906 m1

/-- IDENT (R430). -/
def execIdent (port : Nat) (id : Ident) (s : State) : Host.Outcome State Fault Refusal :=
  .next (if (portAt s.m port).st == 5 || (portAt s.m port).st == 6 then onM (fun m => identTaken port id (mgmtIn port m)) s else s)

/-- The content of an IDENT flit behind its MgmtType (R429). Where each value lies is the model's (log entry 21). -/
def identContent (m : Mach) (p : Nat) : List Byte :=
  let part := dval m 0x1000 0x02
  slice part 0 16 ++ leBytes 1 (nodeId m) ++ leBytes 1 (boardSlot m) ++ leBytes 1 (p / 2) ++ leBytes 1 (p % 2) ++
    leBytes 4 (dnum m 0x5000 0x02) ++ leBytes 4 (dnum m 0x5000 0x03) ++ leBytes 1 (if (portAt m p).alt then 1 else 0)

/-- The identity that such a content spells. -/
def identOf (b : List Byte) : Ident :=
  { part := octs b 0 16, nodeId := octs b 16 1, boardSlot := octs b 17 1, axis := octs b 18 1, dir := octs b 19 1,
    coord := octs b 20 4, ringSize := octs b 24 4, alt := tbit (octs b 28 1) 0 }

/-- IDENT_TIMER (R429). -/
def execIdentTimer (port : Nat) (s : State) : Host.Outcome State Fault Refusal :=
  .next (if (portAt s.m port).st == 5 then onM (fun m0 =>
    let m := tick (16 + port) 10000 m0
    sendMgmt port 1 (identContent m port) m) s else s)

/-- The content of a KEEPALIVE flit (R429, R435). -/
def keepContent (m : Mach) (p : Nat) : List Byte :=
  let x := portAt m p
  leBytes 8 m.dev.time10 ++ leBytes 8 x.lastRx ++ leBytes 8 x.lastRxAt ++ leBytes 4 (dnum m 0x5000 0x02) ++ leBytes 1 x.st

/-- KEEPALIVE_TIMER (R431, R435). The time exchange of IDENTIFY (R428) uses the same flits: DEDUCED (log entry 9). -/
def execKeepaliveTimer (port : Nat) (s : State) : Host.Outcome State Fault Refusal :=
  .next (if (portAt s.m port).st == 5 || (portAt s.m port).st == 6 then onM (fun m0 =>
    let m := tick (32 + port) 10000 m0
    sendMgmt port 2 (keepContent m port) m) s else s)

/-- Division of integers toward zero, as the manual's i64 `/`. -/
def half (x : Int) : Int := if x < 0 then -((-x) / 2) else x / 2

/-- What a KEEPALIVE flit brings (R435, R436): stamps in 0.1 ns, `rxTime` on our clock. The rate chosen within ±200 ppm is free. The step
by a negative θ holds the counter, which never goes backwards (R554): DEDUCED (log entry 9). -/
def keepaliveTaken (port txTime echoTx echoRx rxTime : Nat) (m : Mach) : Mach :=
  let y := { portAt m port with lastRx := txTime, lastRxAt := rxTime }
  if parentPort m != some port then setPort port y m
  else
    let up := (echoRx : Int) - echoTx
    let dn := (rxTime : Int) - txTime
    let theta := half (up - dn)
    let m1 := setPort port { y with theta := theta, delta := half (up + dn) } m
    let m2 :=
      if !m1.tor.locked && !m1.tor.stepped && m1.dev.st != .run then
        count 0x6900 0x0F { m1 with
          dev := { m1.dev with time10 := max m1.dev.time10 ((m1.dev.time10 : Int) + theta).toNat }, tor := { m1.tor with stepped := true } }
      else
        let (x, m2) := freshFree m1
        let r : Int := (x % 400001 : Nat) - 200000
        { m2 with dev := { m2.dev with rate := if theta == 0 then 0 else r } }
    let n := if theta.natAbs ≤ 20 then min 16 (m2.tor.lockCount + 1) else 0
    { m2 with tor := { m2.tor with lockCount := n, locked := m2.tor.locked || n == 16 } }

/-- KEEPALIVE (R435, R436). -/
def execKeepalive (port txTime echoTx echoRx rxTime : Nat) (s : State) : Host.Outcome State Fault Refusal :=
  .next (if (portAt s.m port).st == 5 || (portAt s.m port).st == 6 then
    onM (fun m => keepaliveTaken port txTime echoTx echoRx rxTime (mgmtIn port m)) s else s)

/-- DOWN (R429): a valid flit; the partner's loss is declared by R432. -/
def execDown (port _cause : Nat) (s : State) : Host.Outcome State Fault Refusal :=
  .next (if (portAt s.m port).st == 5 || (portAt s.m port).st == 6 then onM (mgmtIn port) s else s)

/-- LINK_LOST_TIMER (R432, R433). -/
def execLinkLostTimer (port : Nat) (s : State) : Host.Outcome State Fault Refusal :=
  let x := portAt s.m port
  .next (if x.st == 5 || x.st == 6 then
    onM (fun m => portFault port 0x0904 (count 0x6900 0x08 (timeTo (x.lastValid + 100000) m))) s else s)

/-! ### Lanes (R409 to R411) -/

/-- The content of a LANE_SWAP flit (R429): failed lane, spare, epoch. -/
def swapContent (w : Nat × Nat × Nat) : List Byte := leBytes 1 w.1 ++ leBytes 1 w.2.1 ++ leBytes 4 w.2.2

/-- R410 step 1, R411: a failed lane is swapped to the lowest-numbered healthy spare; with none the port goes to DOWN. -/
def askSwap (port lane : Nat) (m : Mach) : Mach :=
  let x := portAt m port
  let y := { x with rxFailed := x.rxFailed ||| 2 ^ lane }
  match x.rxSpare with
  | [] => portFault port 0x0902 (setPort port y m)
  | sp :: rest =>
    let w := (lane, sp, x.rxEpoch + x.swap.length + 1)
    sendMgmt port 3 (swapContent w) (setPort port { y with rxSpare := rest, swap := x.swap ++ [w] } m)

/-- R410: a lane is swapped when it loses lock or has more corrected symbols than LaneSwapSymbols. -/
def laneFails (m : Mach) (ev : LaneEvent) : Bool := ev.lost || decide (dnum m 0x5000 0x09 < ev.symbols)

/-- LANE_FAILURE (R410, R411). -/
def execLaneFailure (port : Nat) (ev : LaneEvent) (s : State) : Host.Outcome State Fault Refusal :=
  let x := portAt s.m port
  .next (if x.rxMap.contains ev.lane && (x.st == 5 || x.st == 6) && !x.swap.any (fun w => w.1 == ev.lane) && laneFails s.m ev then
    onM (askSwap port ev.lane) s else s)

/-- SPARE_LANE_FAILURE (R409). A spare that a swap has chosen already is swapped in its turn: DEDUCED (log entry 21). -/
def execSpareLaneFailure (port lane : Nat) (s : State) : Host.Outcome State Fault Refusal :=
  let x := portAt s.m port
  .next (if x.rxSpare.contains lane then
    onM (setPort port { x with rxSpare := x.rxSpare.filter (· != lane), rxFailed := x.rxFailed ||| 2 ^ lane }) s
  else if x.swap.any (fun w => w.2.1 == lane) && !x.swap.any (fun w => w.1 == lane) && (x.st == 5 || x.st == 6) then
    onM (askSwap port lane) s
  else s)

/-- R410 step 2: the partner asks; a repeated request is answered by the marker again. -/
def laneSwapTaken (port failed spare epoch : Nat) (m : Mach) : Mach :=
  let x := portAt m port
  emit (.epoch port epoch) (setPort port { x with txMap := x.txMap.map (fun l => if l == failed then spare else l), txEpoch := epoch } m)

/-- LANE_SWAP (R410 step 2). -/
def execLaneSwap (port failed spare epoch : Nat) (s : State) : Host.Outcome State Fault Refusal :=
  .next (if (portAt s.m port).st == 5 || (portAt s.m port).st == 6 then
    onM (fun m => laneSwapTaken port failed spare epoch (mgmtIn port m)) s else s)

/-- LANE_SWAP_TIMER (R429). -/
def execLaneSwapTimer (port : Nat) (s : State) : Host.Outcome State Fault Refusal :=
  .next (if (portAt s.m port).swap.isEmpty then s
  else onM (fun m => (portAt m port).swap.foldl (fun m w => sendMgmt port 3 (swapContent w) m) (tick (48 + port) 10000 m)) s)

/-- EPOCH_MARKER (R410 step 3). -/
def execEpochMarker (port epoch : Nat) (s : State) : Host.Outcome State Fault Refusal :=
  let x := portAt s.m port
  .next (match x.swap.find? (fun w => w.2.2 == epoch) with
  | none => s
  | some (l, sp, _) => onM (fun m => count 0x6900 0x07 (setPort port { x with
      rxMap := x.rxMap.map (fun k => if k == l then sp else k), rxEpoch := epoch, swaps := x.swaps + 1,
      swap := x.swap.filter (fun w => w.2.2 != epoch) } m)) s)

/-! ### The receiving side of the link layer (R413 to R424) -/

/-- Sends a Nak in a NULL flit. -/
def sendNak (p : Nat) (m : Mach) : Mach :=
  let x := portAt m p
  sendSeq p 0 0 (flitRest []) 1 (setPort p { x with nakSent := true, nakAt := m.dev.time10 } m)

/-- NAK_TIMER (R416): 2 µs after the Nak. -/
def execNakTimer (port : Nat) (s : State) : Host.Outcome State Fault Refusal :=
  let x := portAt s.m port
  .next (if x.nakSent && (x.st == 5 || x.st == 6) then onM (fun m => sendNak port (timeTo (x.nakAt + 20000) m)) s else s)

/-- Whether Seq `a` is at or before `b`, modulo 4,096. -/
def seqLe (a b : Nat) : Bool := decide ((b + 4096 - a) % 4096 < 2048)

/-- The credit fields of a header, added to what a transmitter holds (R417). -/
def addCredits (cs : List Nat) (h : Nat) : List Nat :=
  (List.range 4).map (fun v => cs.getD v 0 + fld h (13 + 6 * v) (8 + 6 * v))

/-- Acknowledgement and credits of an accepted flit. An acknowledged Seq ends the run of resends from it (R416). -/
def takeAcks (h : Nat) (x : Port) : Port :=
  let x1 := { x with credits := addCredits x.credits h }
  if tbit h 33 then
    let a := fld h 45 34
    { x1 with retry := x.retry.filter (fun f => !seqLe f.seq a), resends := if seqLe x.resendFrom a then 0 else x.resends }
  else x1

/-- A flit is sent again with its Seq, body and credit fields, and with current acknowledgement, Nak and header CRC (R415). -/
def resend (p : Nat) (m : Mach) (f : SentFlit) : Mach :=
  let x := portAt m p
  let h := linkHeader (f.vc / 4) (f.vc % 4) f.seq x.rxLast (if x.rxAny then 1 else 0) (if x.nakDue then 1 else 0) f.credits
  count 0x6900 0x04 (count 0x6900 0x01 (emit (.flit p ⟨h, f.rest⟩) (setPort p { x with nakDue := false } m)))

/-- A Nak: everything from AckSeq + 1 is sent again (R415, R416). -/
def takeNak (p h : Nat) (m : Mach) : Mach :=
  let x := portAt m p
  let ackNext := (fld h 45 34 + 1) % 4096
  let todo := x.retry.filter (fun f => seqLe ackNext f.seq)
  let n := if x.resendFrom == ackNext then x.resends + 1 else 1
  let m1 := todo.foldl (resend p) (setPort p { x with resendFrom := ackNext, resends := n } m)
  if dnum m 0x5000 0x08 ≤ n then portFault p 0x0905 m1 else m1

/-- The header CRC of a flit passes. -/
def headerGood (f : Flit) : Bool := f.header < 2 ^ 64 && crc8Header (f.header / 256 * 256) == f.header % 256

/-- Both CRCs of a flit pass. -/
def flitGood (f : Flit) : Bool := headerGood f && f.rest.length == 248 && octs f.rest 244 4 == crc32c (f.rest.take 244)

/-- Transactions that stand whole at the start of a buffer, and the rest (R420, R421). -/
def splitTxns : Nat → List Byte → List Txn × List Byte
  | 0, b => ([], b)
  | n + 1, b =>
    if b.length < 32 then ([], b)
    else
      let sp := txnSpan b
      if b.length < sp then ([], b)
      else
        let (ts, r) := splitTxns n (b.drop sp)
        (txnOfBytes b :: ts, r)

/-- Where the transactions that begin in a buffer begin and end (R420, R421). -/
def txnStarts : Nat → Nat → List Byte → List (Nat × Nat)
  | 0, _, _ => []
  | n + 1, off, b =>
    if b.length < 4 then []
    else
      let sp := txnSpan b
      (off, off + sp) :: (if b.length ≤ sp then [] else txnStarts n (off + sp) (b.drop sp))

/-- R418: the credits that a forwarded flit needs. `start` octets of the buffer came with earlier flits; the transactions that begin behind
them need credits for all their flits, and 69 more where they `turn` from another axis. -/
def flitNeed (turn : Bool) (start : Nat) (buf : List Byte) : Nat :=
  match ((txnStarts (buf.length / 16 + 1) 0 buf).filter (fun x => decide (start ≤ x.1))).getLast? with
  | none => 1
  | some (_, z) => 1 + (z - buf.length + 239) / 240 + (if turn then 69 else 0)

/-- Credits of a VC are owed to the partner; the next flit takes them (R417). -/
def owe (p vc n : Nat) (m : Mach) : Mach :=
  let x := portAt m p
  setPort p { x with owed := x.owed.set vc (x.owed.getD vc 0 + n) } m

/-- A TXN flit's body enters its VC's buffer (R413, R417, R421, R424, R426). Answers the transactions for this device, with the credit that
goes back once they are taken; or, when its destination is another device, passes the body on unchanged once the transactions that it
carries are whole, so that no other flit of their VC leaves between theirs (R423). A body that is not `good` is discarded, and with it
the whole of a transaction that it begins or goes on with. -/
def takeBody (p vc : Nat) (rest : List Byte) (good : Bool) (m : Mach) : Mach × List Txn × Nat :=
  let x := portAt m p
  let old := x.partialRx.getD vc []
  let lost := x.badRx.getD vc false
  let buf := old ++ rest.take (octs rest 240 2)
  let dest := octs buf 4 3
  let (ts, r) := splitTxns (buf.length / 32 + 1) buf
  let mine := dest == ownCoord m
  let out := if mine then none else (routePort m (ownCoord m) dest).filter (fun q => (portAt m q).st == 6)
  let still := !r.isEmpty && (!good || (!mine && out.isNone) || (lost && (ts.isEmpty || !mine)))
  let held := x.heldRx.getD vc []
  let m1 := setPort p { x with partialRx := x.partialRx.set vc r, badRx := x.badRx.set vc still, heldRx := x.heldRx.set vc [] } m
  if mine then (m1, if !good then [] else if lost then ts.drop 1 else ts, 1)
  else
    match out with
    | none => (owe p vc (1 + held.length) m1, [], 0)
    | some q =>
      if !good || lost then (owe p vc (1 + held.length) m1, [], 0)
      else
        let fs := held ++ [(flitNeed (q / 2 != p / 2) old.length buf, rest)]
        let m2 := countN 0x6900 0x0B ts.length m1
        if r.isEmpty then (enqueue q { vc := vc, bodies := fs, src := p } m2, [], 0)
        else (setPort p { portAt m2 p with heldRx := x.heldRx.set vc fs } m2, [], 0)

/-- A received management flit's content (R429), taken at its arrival. -/
def takeMgmt (p : Nat) (rest : List Byte) (m : Mach) : Mach :=
  let b := rest.drop 2
  match octs rest 0 2 with
  | 1 => identTaken p (identOf b) m
  | 2 => keepaliveTaken p (octs b 0 8) (octs b 8 8) (octs b 16 8) m.dev.time10 m
  | 3 => laneSwapTaken p (octs b 0 1) (octs b 1 1) (octs b 2 4) m
  | _ => m

/-- The acknowledgement, credits and Nak of an accepted flit take effect (R416). -/
def acceptHeader (p h : Nat) (x : Port) (m : Mach) : Mach :=
  let m1 := count 0x6900 0x02 (setPort p (takeAcks h { x with lastValid := m.dev.time10 }) m)
  if tbit h 32 then takeNak p h m1 else m1

/-- FLIT_RECEIVE's link layer: the transactions delivered here, and the credit that goes back with them. `fabricBad`: the body fails its
CRC at the forwarding transmitter or the destination unit (R426). -/
def linkReceive (p : Nat) (f : Flit) (fabricBad : Bool) (m : Mach) : Mach × List Txn × Nat :=
  let x := portAt m p
  let h := f.header
  let typ := fld h 63 60
  if !(x.st == 5 || x.st == 6) then (m, [], 0)
  else if !flitGood f then
    let m1 := count 0x6900 0x03 m
    (if x.nakSent || (headerGood f && typ == 2) then m1 else sendNak p m1, [], 0)
  else if typ == 2 then
    let m1 := acceptHeader p h x m
    (if (portAt m1 p).st == 7 then m1 else takeMgmt p f.rest (pump p m1), [], 0)
  else if 2 < typ then (m, [], 0)
  else if fld h 57 46 != (x.rxLast + 1) % 4096 then (if x.nakSent then m else sendNak p m, [], 0)
  else
    let m1 := acceptHeader p h { x with rxLast := fld h 57 46, rxAny := true, nakSent := false } m
    if (portAt m1 p).st == 7 then (m1, [], 0)
    else if typ == 0 then (pump p m1, [], 0)
    else
      let (m2, ts, n) := takeBody p (fld h 59 58) f.rest (!fabricBad) m1
      (pump p (if fabricBad then allRunning (ctxClassed 0x0903) (raiseDev 0x0903 (count 0x6900 0x0E m2)) else m2), ts, n)

/-! ### Writes of the torus entries (R430, R440, R444, R445) -/

/-- The abort of R445 for a Coordinate against ring sizes, or 0. -/
def coordBad (c rings : Nat) : Bool :=
  c != 0xFFFFFFFF && [0, 1, 2, 3].any (fun a =>
    let f := (c >>> (8 * a)) % 256
    decide (32 ≤ f) || decide ((rings >>> (8 * a)) % 256 ≤ f))

/-- A Coordinate or RingSize write takes every port in ACTIVE back to IDENTIFY; the old parent's loss is seen by the old coordinate
(R430, R438). -/
def unlinkPorts (m : Mach) : Mach :=
  (List.range 8).foldl (fun m p => if (portAt m p).st == 6 then leaveActive p 5 m else m) m

/-- The effect of a Coordinate or RingSize write on the ports (R428, R430, R624). -/
def recheckPorts (m : Mach) : Mach :=
  lightPortsIf ((List.range 8).foldl (fun m p =>
    let x := portAt m p
    if x.st == 0 then m
    else if !mayTrain m p then leaveActive p 0 m
    else if x.st == 5 || x.st == 6 then leaveActive p 5 m
    else m) m)
where
  /-- Dark ports light once the device has entered optical training. -/
  lightPortsIf (m : Mach) : Mach := if m.dev.zeroed && m.dev.st != .fault then lightPorts m else m

/-- The effect of a FibreGroup write (R440). -/
def switchGroups (old new : Nat) (m : Mach) : Mach :=
  (List.range 8).foldl (fun m p =>
    if tbit old p == tbit new p then m
    else
      let m1 := count 0x6900 0x10 (portDown p 0 m)
      setPort p { portAt m1 p with alt := tbit new p } m1) m

/-- PortStatus (R444). -/
def portStatus (m : Mach) (p : Nat) : List Byte :=
  let x := portAt m p
  leBytes 1 x.st ++
  leBytes 1 ((if x.alt then 1 else 0) + (if parentPort m == some p then 2 else 0) + (if x.agreed then 4 else 0)) ++
  leBytes 1 x.rxSpare.length ++ leBytes 1 0 ++ leBytes 6 x.rxFailed ++ leBytes 2 0 ++ leBytes 4 x.peer.coord ++
  leBytes 2 (x.peer.nodeId % 64 + (x.peer.boardSlot % 16) * 256) ++ leBytes 2 (2 * x.peer.axis + x.peer.dir) ++
  leBytes 4 (toU 32 (x.delta / 10)) ++ leBytes 4 (toU 32 (x.theta * 100)) ++ leBytes 4 x.swaps

end Sys2Proof.Machine
end

