-- ==== Sys2Proof/Machine/Recovery.lean ====
section
/-!
DEFINITION. The recovery rows (15): memory errors, page repair, checkpoint commands, writes and reads of a neighbour.
-/

namespace Sys2Proof.Machine

/-- HBM_REREAD_RESULT (R509, R512): the second read of a burst that failed its check. -/
def execHbmRereadResult (source place va stack : Nat) (passed : Bool) (s : State) : Host.Outcome State Fault Refusal :=
  .next (onM (memoryError source place va stack passed) s)

/-- READ (R516). -/
def execRead (t : Txn) (s : State) : Host.Outcome State Fault Refusal := .next (onM (tagged t (takeRead t)) s)

/-- READ_DATA (R515, R523). -/
def execReadData (t : Txn) (s : State) : Host.Outcome State Fault Refusal := .next (onM (tagged t (takeReadData t)) s)

/-- REPAIR_COMPLETE (R517, R518): the page is written and read back; a pass that waited for it may begin. -/
def execRepairComplete (ctx : Nat) (readBackOk : Bool) (s : State) : Host.Outcome State Fault Refusal :=
  .next (onM (fun m => startPass ctx (repairWritten ctx readBackOk m)) s)

/-- REPAIR_TIMEOUT (R517, R519). -/
def execRepairTimeout (ctx : Nat) (s : State) : Host.Outcome State Fault Refusal := .next (onM (repairLate ctx) s)

/-- A checkpoint command written to `0x8100.0B` of a context (R523). -/
def ckptRow (ctx cmd : Nat) (s : State) : Host.Outcome State Fault Refusal := .next (answerIn s (liftM s (ckptBegin ctx cmd s.m)))

/-- RECORD (R523, R524). -/
def execRecord (ctx : Nat) (s : State) : Host.Outcome State Fault Refusal := ckptRow ctx 1 s

/-- RESTORE (R525). -/
def execRestore (ctx : Nat) (s : State) : Host.Outcome State Fault Refusal := ckptRow ctx 2 s

/-- DIGEST (R523). -/
def execDigest (ctx : Nat) (s : State) : Host.Outcome State Fault Refusal := ckptRow ctx 3 s

/-- VERIFY (R523). -/
def execVerify (ctx : Nat) (s : State) : Host.Outcome State Fault Refusal := ckptRow ctx 4 s

/-- CHECKPOINT_COMMAND_COMPLETE (R523). -/
def execCheckpointCommandComplete (ctx : Nat) (s : State) : Host.Outcome State Fault Refusal := .next (onM (ckptEnd ctx) s)

/-- WRITE (R528). -/
def execWrite (t : Txn) (s : State) : Host.Outcome State Fault Refusal := .next (onM (tagged t (takeWrite none t)) s)

/-- WRITE_ACK (R528, R529). -/
def execWriteAck (t : Txn) (s : State) : Host.Outcome State Fault Refusal := .next (onM (tagged t (takeWriteAck t)) s)

/-- FAST_CKPT_COPY_COMPLETE (R528, R529). -/
def execFastCkptCopyComplete (ctx : Nat) (s : State) : Host.Outcome State Fault Refusal := .next (onM (fastEnd ctx) s)

end Sys2Proof.Machine
end

