-- ==== Sys2Proof/Machine/Deliver.lean ====
section
/-!
DEFINITION. FLIT_RECEIVE (12 R416): the link layer, and the delivery of whole transactions to the units that R422 names;
and the boundary-scan port (20 R659).
-/

namespace Sys2Proof.Machine

/-- The unit's part for a transaction type (R422); the kinds of COLLECTIVE and STEP_CTRL are in Detail bits 63:60 (R456,
R495). A kind that is not listed is discarded. -/
def unitTakes (port : Nat) (t : Txn) (m : Mach) : Mach :=
  let kind := fld t.detail 63 60
  match t.typ with
  | 0x01 => takeRead t m
  | 0x02 => takeWrite (some port) t m
  | 0x03 => takeGather t m
  | 0x04 => takeScatter t m
  | 0x05 => takeScatterEnd t m
  | 0x06 => takeForward t m
  | 0x07 => takePipe t m
  | 0x08 => (match kind with
    | 1 => takeContrib t m
    | 2 => takeResult t m
    | 3 => takeMaxima t m
    | 4 => takeNorm t m
    | _ => m)
  | 0x09 => takeShard t m
  | 0x0A => (match kind with
    | 1 => takeBegin t m
    | 2 => takeReady t m
    | 3 => takeAbort t m
    | 4 => takeHalt t m
    | _ => m)
  | 0x0B => takeNotify t m
  | 0x81 => takeReadData t m
  | 0x82 => takeWriteAck t m
  | 0x83 => takeGatherData t m
  | 0x86 => takeForwardResult t m
  | _ => m

/-- Delivery of one transaction: a reserved type is discarded and counted (R422), then R425 applies. -/
def deliver (port : Nat) (t : Txn) (m : Mach) : Mach :=
  if !txnKnown t.typ then count 0x6900 0x0D m else tagged t (unitTakes port t) m

/-- The unit of a transaction has an entry for it (R121, R136). -/
def unitRoom (t : Txn) (m : Mach) : Bool :=
  match t.typ with
  | 0x03 => gatherRoom t m
  | 0x06 => forwardRoom t m
  | _ => true

/-- A transaction stays in its port's buffer: its unit is full, or another of its VC stays there (R121, R136, R423). -/
def heldBack (p vc : Nat) (t : Txn) (m : Mach) : Bool :=
  !unitRoom t m || m.tor.held.any (fun h => h.port == p && h.vc == vc)

/-- The die of the unit that takes a transaction from another die's port: of a serving engine or sampler, of a bucket's engine, of the HBM
home of what a chunk is written to (11 R399). Others are taken by units that the manual places on no die. -/
def unitDie (t : Txn) (m : Mach) : Option Nat :=
  match t.typ, ctxOfTag m t.jobTag with
  | 0x03, _ => (servingEngine m t).map unitXl
  | 0x06, some i => (match t.body with | .fwd f => some (unitXl (servingSampler (ctxAt m i) f)) | _ => none)
  | 0x07, some i | 0x09, some i => (chunkEntry m i t).map (fun k => 16 + homeDie m.mem (vpnOf (teDest (entryAt m i k).desc.v)))
  | _, _ => none

/-- A transaction crosses from its port's link die to its unit's. -/
def grantArrival (p : Nat) (t : Txn) (m : Mach) : Mach :=
  match unitDie t m with
  | some y => onMem (grantCross (linkDie p) y) m
  | none => m

/-- The transactions of a flit reach their units; its credit goes back with the last of them (R417). -/
def arriveAll (p vc : Nat) : Nat → List Txn → Mach → Mach
  | n, [], m => if n == 0 then m else owe p vc n m
  | n, t :: r, m =>
    if heldBack p vc t m then
      arriveAll p vc (if r.isEmpty then 0 else n) r (holdTxn ⟨p, vc, if r.isEmpty then n else 0, t⟩ m)
    else arriveAll p vc n r (deliver p t (grantArrival p t m))

/-- Transactions that waited for an entry of their unit are taken, the oldest first, and their buffers are free again. -/
def takeHeld : Nat → Mach → Mach
  | 0, m => m
  | n + 1, m =>
    let l := m.tor.held
    match (l.zip (List.range l.length)).find? (fun x =>
        unitRoom x.1.t m && !(l.take x.2).any (fun h => h.port == x.1.port && h.vc == x.1.vc)) with
    | none => m
    | some (h, k) => takeHeld n (freeBuffer h.port h.vc h.credit (deliver h.port h.t <| grantArrival h.port h.t { m with tor := { m.tor with held := l.eraseIdx k } }))

/-- A TXN flit that brought no flit in return is acknowledged by a NULL flit (R414, R419). -/
def ackNull (p : Nat) (before m : Mach) : Mach :=
  let x := portAt m p
  if x.st == 6 && x.rxLast != (portAt before p).rxLast && x.txSeq == (portAt before p).txSeq then sendSeq p 0 0 (flitRest []) 0 m else m

/-- FLIT_RECEIVE (R413 to R426). -/
def execFlitReceive (port : Nat) (f : Flit) (ev : FlitEvent) (s : State) : Host.Outcome State Fault Refusal :=
  .next (onM (fun m =>
    let m0 := countN 0x6900 0x05 ev.corrected (countN 0x6900 0x06 ev.uncorrected m)
    let (m1, ts, n) := linkReceive port f ev.fabricBad m0
    let m2 := arriveAll port (fld f.header 59 58) n ts m1
    let m3 := takeHeld m2.tor.held.length m2
    if fld f.header 63 60 == 1 then ackNull port m m3 else m3) s)

/-- GATHER (R136): a remote gather reaches its owner, which takes first what waited for an entry. -/
def execGather (t : Txn) (s : State) : Host.Outcome State Fault Refusal :=
  .next (onM (fun m => let m1 := takeHeld m.tor.held.length m; tagged t (takeGather t) m1) s)

/-- SAMPLE_FWD (R121). -/
def execSampleFwd (t : Txn) (s : State) : Host.Outcome State Fault Refusal :=
  .next (onM (fun m => let m1 := takeHeld m.tor.held.length m; tagged t (takeForward t) m1) s)

/-- Bits of the identification register, which the manual does not give. -/
def idBits (n : Nat) : List Bool := (List.range n).map (fun k => (Config.freeValue (2 ^ 82 + k)).toNat % 2 == 1)

/-- Bits of the boundary register: the pins as the scan finds them, free. -/
def scanBits : Nat → Mach → List Bool × Mach
  | 0, m => ([], m)
  | n + 1, m =>
    let (x, m1) := freshFree m
    let (r, m2) := scanBits n m1
    ((x % 2 == 1) :: r, m2)

/-- BOUNDARY_SCAN (R659): register 0 is the boundary register, 1 the identification register; the port reaches no other,
and is inactive unless TRST_N is high and the device is powered. -/
def execBoundaryScan (trstN : Bool) (register : Nat) (bits : List Bool) (s : State) : Host.Outcome State Fault Refusal :=
  .next (if !trstN || s.m.dev.st == .off then s
    else match register with
      | 0 => let (b, m) := scanBits bits.length s.m; { s with m := emit (.tdo b) m }
      | 1 => onM (emit (.tdo (idBits bits.length))) s
      | _ => s)

end Sys2Proof.Machine
end

