-- ==== Sys2Proof/Machine/DictRead.lean ====
section
/-!
DEFINITION. What each entry of the object dictionary reads (18 R578, R579, R612, R613 and the entry tables of the other
chapters): constants, stored settings, and status values taken from the units' state.
-/

namespace Sys2Proof.Machine

/-- Octets of a map of n bits. -/
def bitMap (n : Nat) (l : List Nat) : List Byte := octetsOfBits (n / 8) l.contains

/-- A binary32 code of a temperature in sixteenths of a degree. -/
def tempCode (r : Int) : Nat := F32.narrow .rne false (scaleV (ofInt r) (-4))

/-- The context that a selection entry names. -/
def selected (m : Mach) (index sub : Nat) : Ctx := ctxAt m (dnum m index sub)

/-- PlcaStatus (R585, R613): beacons received; CSMA/CD in use. -/
def plcaStatus (m : Mach) : Nat :=
  let on := m.mgmt.beaconSeen && !m.mgmt.csma
  (if on then 1 else 0) + (if mgmtDriven m && !on then 2 else 0)

/-- Entries of 0x1000 to 0x12FF that are not stored settings. -/
def readIdentity (s : State) (index sub : Nat) : Option (List Byte) :=
  let m := s.m
  match index, sub with
  | 0x1000, 0x04 => some (serialNumber s.boot)
  | 0x1000, 0x05 => some (leBytes 6 (macAddr m))
  | 0x1000, 0x06 => some (leBytes 1 (nodeId m))
  | 0x1000, 0x07 => some (leBytes 1 (boardSlot m))
  | 0x1000, 0x08 => some (leBytes 1 (if mgmtEn m then 1 else 0))
  | 0x1000, 0x0A => some (leBytes 4 s.boot.fwVersion)
  | 0x1100, 0x02 => some (leBytes 1 (nodeId m % 16 + 1))
  | 0x1100, 0x06 => some (leBytes 1 (plcaStatus m))
  | 0x1100, 0x0D => some (m.mgmt.subs.list.flatMap (fun x => leBytes 6 x.1 ++ leBytes 2 x.2))
  | 0x1100, 0x0E => some (leBytes 4 m.mgmt.seq)
  | 0x1100, 0x0F => some (slice (m.mgmt.history.flatMap id) 0 2048)
  | 0x1100, 0x13 => some m.mgmt.imageStatus
  | 0x1200, 0x01 => some (leBytes 1 m.dev.st.code)
  | 0x1200, 0x02 => some m.dev.faultReport
  | 0x1200, 0x03 => some (leBytes 2 m.dev.strap)
  | 0x1200, 0x04 => some s.boot.bootStatus
  | 0x1200, 0x05 => some (s.boot.startupTimes.list.flatMap (leBytes 4))
  | 0x2000, 0x05 => some (repairBytes s.boot)
  | 0x2000, 0x06 => some (s.boot.failMap.flatMap (leBytes 4))
  | 0x2000, 0x0B => some (s.boot.hbmStatus.flatMap (leBytes 1))
  | 0x7000, 0x01 => some s.boot.identityKey
  | 0x7000, 0x02 => some Config.rootKeyHash
  | 0x7000, 0x03 => some s.boot.fwDigest
  | 0x7000, 0x04 => some s.boot.helperOut
  | 0x7000, 0x05 => some (leBytes 1 s.boot.identityStatus)
  | 0x7000, 0x11 => some s.boot.attestReport
  | 0x7000, 0x20 => some s.boot.keyHash
  | 0x7000, 0x23 => some (leBytes 1 s.boot.keyKind)
  | _, _ => none

/-- An entry whose default is all zero reads so until the device first comes to CONFIG (R556, R578): DEDUCED (log entry 45). -/
def fromConfig (m : Mach) (n : Nat) (bs : List Byte) : List Byte := if notifies m.dev.st then bs else List.replicate n 0

/-- Entries of power, heat and clocks (R556). -/
def readPower (m : Mach) (index sub : Nat) : Option (List Byte) :=
  match index, sub with
  | 0x3000, 0x04 => some (leBytes 4 m.pwr.floor)
  | 0x3000, 0x05 => some (leBytes 4 (powerNow m))
  | 0x3000, 0x06 => some (leBytes 4 (measuredW m m.pwr.avg))
  | 0x3000, 0x0A => some ((List.range 4).flatMap (fun k => leBytes 4 (domainPower m k)))
  | 0x3000, 0x0B => some (fromConfig m 32 (m.pwr.dies.list.flatMap (fun d => leBytes 1 d.point ++ leBytes 1 d.duty)))
  | 0x3000, 0x0C => some (fromConfig m 16
      ((List.range 8).flatMap (fun k => leBytes 1 (memRateOf m k)) ++ (List.range 8).flatMap (fun k => leBytes 1 (linkRateOf m k))))
  | 0x3000, 0x0D => some (fromConfig m 16 (slice (m.pwr.rails.list.flatMap (leBytes 1)) 0 16))
  | 0x3100, 0x05 => some (leBytes 4 (tempCode (m.pwr.readings.list.foldl max (m.pwr.readings.list.headD 0))))
  | 0x3100, 0x07 => some (leBytes 4 (tempCode (m.pwr.readings.getD (dnum m 0x3100 0x06) 0)))
  | 0x3100, 0x08 => some (slice (bitMap 64 m.pwr.throttled) 0 16)
  | 0x3200, 0x06 => some (leBytes 8 (nowNs m))
  | 0x3200, 0x08 => some (leBytes 4 (toU 32 m.dev.rate))
  | 0x3200, 0x09 => some (leBytes 1 m.pwr.refs)
  | _, _ => none

/-- TableStatus (R204). -/
def tableStatus (m : Mach) : List Byte :=
  let t := tabAt m (dnum m 0x4100 0x12)
  let ver (p : Option Pair) : Nat := match p with | some q => tdVersion q.v | none => 0
  leBytes 4 (ver t.cur) ++ leBytes 4 (ver t.pend) ++
  leBytes 1 ((if decide (2 ≤ (liveVersions t).length) then 1 else 0) + (if t.awaiting.isSome then 2 else 0) + (if t.bank == 1 then 4 else 0)) ++
  List.replicate 7 0

/-- The state of the debug core as `0xA000.05` reads it (R315). A core of no loaded context reads the default (R578): DEDUCED (log entry
52). -/
def debugStatus (m : Mach) (c : Core) : Nat :=
  if !(decide (c.ctx < 16) && loaded (ctxAt m c.ctx)) then 0 else if debugCtx m c then c.dbg else 3

/-- A register view of the debug core: open while the core is not halted. -/
def debugView (c : Core) (n : Nat) (bs : List Byte) : List Byte :=
  if c.dbg == 0 then (List.range n).map (fun k => Config.freeByte (2 ^ 90 + k)) else bs

/-- DebugFlow (R315). -/
def debugFlow (c : Core) : List Byte :=
  leBytes 1 ((List.range 8).foldl (fun a k => a + (if c.p.getD k false then 2 ^ k else 0)) 0) ++ leBytes 3 0 ++
  leBytes 4 ((c.loops.reverse[0]?.map Loop.left).getD 0) ++ leBytes 4 ((c.loops.reverse[1]?.map Loop.left).getD 0) ++
  leBytes 2 c.pc ++ leBytes 2 0

/-- Entries of the numerics, the core, sparsity, tiers, tables and claims. -/
def readUnits (m : Mach) (index sub : Nat) : Option (List Byte) :=
  let live := m.ctxs.list.filter loaded
  let dbg := coreAt m (dnum m 0xA000 0x02)
  match index, sub with
  | 0x2100, 0x02 => some (leBytes 8 (if loaded (selected m 0x2100 0x01) then (selected m 0x2100 0x01).seed else 0))
  | 0x2100, 0x0A => some (leBytes 8 (m.cnt.get (dkey 0x2100 0x0A) 0))
  | 0x2200, 0x09 => some (bitMap 288 (live.flatMap (fun c => c.claims.clusters)))
  | 0x2200, 0x0B => some (coreAt m (dnum m 0x2200 0x0A)).fault
  | 0x2240, 0x0A =>
    let v := m.dev.predSel
    let c := ctxAt m (fld v 11 8)
    some (leBytes 4 (c.margins.getD (fld v 5 0) 0) ++ leBytes 4 (c.layerOffSteps.get (fld v 5 0) 0) ++ leBytes 8 0)
  | 0x4000, 0x01 => some (leBytes 4 (poolFrames m))
  | 0x4000, 0x02 => some (leBytes 4 m.mem.freeAtQuench)
  | 0x4000, 0x03 => some (leBytes 4 (pinnedFrames m))
  | 0x4100, 0x02 => some (leBytes 2 (liveTables m).length)
  | 0x4100, 0x13 => some (tableStatus m)
  | 0x4200, 0x0A => some (bitMap 128 (live.flatMap (fun c => c.claims.samplers)))
  | 0x4300, 0x0B => some (bitMap 128 (live.flatMap (fun c => c.claims.engines)))
  | 0xA000, 0x03 => some (leBytes 2 dbg.dbgBreak)
  | 0xA000, 0x05 => some (leBytes 1 (debugStatus m dbg))
  | 0xA000, 0x06 => some (debugView dbg 128 (dbg.s.list.flatMap (leBytes 4)))
  | 0xA000, 0x07 => some (debugView dbg 128 (dbg.a.list.flatMap (leBytes 8)))
  | 0xA000, 0x08 => some (debugView dbg 16 (debugFlow dbg))
  | _, _ => none

/-- CxlPortStatus of a port; a port out of L0 reads all zero. -/
def cxlStatus (x : CxlPort) : List Byte :=
  if x.l0 then leBytes 1 (1 + (if x.cxl then 2 else 0) + (if x.degraded then 4 else 0)) ++ leBytes 1 x.width ++ leBytes 1 x.speed ++ leBytes 5 0
  else List.replicate 8 0

/-- RingStatus of a ring (R573): a full completion ring holds a command that is done, or the next one (R566). -/
def ringStatus (r : CmdRing) : List Byte :=
  let held := match r.current with | some c => c.ready | none => r.enable && r.produced != r.consumed
  let waits := (held && !cplRoom r) || !r.owed.isEmpty
  leBytes 4 ((if r.enable then 1 else 0) + (if waits then 2 else 0) + r.port % 4 * 4)

/-- ReserveStatus of a half (R532). -/
def reserveStatus (m : Mach) (h : Nat) : List Byte :=
  if m.mem.reserve.isEmpty then List.replicate 16 0
  else reserveGet m h 24 1 ++ leBytes 3 0 ++ reserveGet m h 2 4 ++ reserveGet m h 8 8

/-- Entries of links, geyser, CXL, contexts, recovery and steering. -/
def readSystem (m : Mach) (index sub : Nat) : Option (List Byte) :=
  let c := selected m 0x8000 0x01
  let r := selected m 0x8100 0x05
  match index, sub with
  | 0x5000, 0x0B => some (portStatus m (dnum m 0x5000 0x0A))
  | 0x5000, 0x0C => some (leBytes 1 (if m.tor.locked then 1 else 0))
  | 0x5100, 0x0A => some (ctxAt m m.dev.normSel).gey.normRec
  | 0x5800, 0x01 => some (m.cxl.ports.list.flatMap cxlStatus)
  | 0x5800, 0x06 => some (m.cxl.rings.list.flatMap ringStatus)
  | 0x8000, 0x02 => some (leBytes 1 c.st.code)
  | 0x8000, 0x04 => some (leBytes 8 c.step)
  | 0x8000, 0x05 => some (leBytes 4 c.grant)
  | 0x8000, 0x06 => some (leBytes 4 c.deadlineUs)
  | 0x8000, 0x07 => some (leBytes 4 c.commitUs)
  | 0x8000, 0x08 => some c.lastRec
  | 0x8000, 0x09 => some (leBytes 4 c.replay)
  | 0x8000, 0x0A => some ((List.range 4).flatMap (fun k => leBytes 1 (c.axes.getD k 255)))
  | 0x8000, 0x0B => some (leBytes 2 c.devCount)
  | 0x8100, 0x06 => some r.failure
  | 0x8100, 0x07 => some m.lastDataError
  | 0x8100, 0x08 => some (m.recStats.list.flatMap (leBytes 8))
  | 0x8100, 0x09 => some (leBytes 4 m.mem.retired.length)
  | 0x8100, 0x0C => some (leBytes 8 r.ckpt.va)
  | 0x8100, 0x0D => some r.ckpt.status
  | 0x8100, 0x11 => some (reserveStatus m 0 ++ reserveStatus m 1)
  | 0x9000, 0x06 =>
    let g := ctxAt m m.dev.steerSel
    some (leBytes 2 g.mb ++ leBytes 2 g.gey.recommended ++ leBytes 4 0 ++ leBytes 8 g.gey.steerN)
  | _, _ => none

/-! ### Dictionary images (R607 to R609) -/

/-- Selection entries, and entries that act on what a selection entry selects (R607). -/
def imageLeftOut : List Nat := [
  0x210001, 0x22000A, 0x224009, 0x310006, 0x410012, 0x50000A, 0x510009, 0x800001, 0x810005, 0x900005,
  0x800006, 0x800007, 0x81000C, 0x120001, 0x110011]

/-- The entries of an image, each as (index, subindex, row), ascending. -/
def imageEntries : List (Nat × Nat × DEnt) :=
  (dictTab.flatMap (fun e => (rangeFrom e.lo (e.hi + 1 - e.lo)).map (fun s => (e.index, s, e)))).filter (fun x =>
    (x.2.2.acc == .rw || x.2.2.acc == .rwq) && decide (0x1100 ≤ x.1) && decide (x.1 < 0xA000) &&
    !imageLeftOut.contains (dkey x.1 x.2.1))

/-- ImageIndexList. -/
def imageIndexList : List Byte := imageEntries.flatMap (fun x => leBytes 4 (dkey x.1 x.2.1))

/-- The stored value of an entry of an image. -/
def imageValue (s : State) (index sub : Nat) : List Byte :=
  if index == 0x7000 then s.boot.keyHash else dval s.m index sub

/-- A record of an image (R608). -/
def imageRecord (s : State) (x : Nat × Nat × DEnt) : List Byte :=
  let v := imageValue s x.1 x.2.1
  padTo 8 (leBytes 2 x.1 ++ leBytes 1 x.2.1 ++ leBytes 1 x.2.2.ty ++ leBytes 2 v.length ++ leBytes 2 0 ++ withCpl v)

/-- R609: the image of the device's settings. -/
def buildImage (s : State) : List Byte :=
  let recs := imageEntries.flatMap (imageRecord s)
  leBytes 2 1 ++ leBytes 2 1 ++ leBytes 4 imageEntries.length ++ leBytes 8 s.m.mgmt.imageId ++ serialNumber s.boot ++
  slice partNumber 0 16 ++ leBytes 4 recs.length ++ leBytes 4 (crc32c recs) ++ List.replicate 16 0 ++ recs

/-- What an entry reads, other than `0x7000.21` (whose read acts). -/
def dictValue (s : State) (index sub : Nat) : List Byte :=
  if index == 0x1100 && sub == 0x11 then buildImage s
  else if index == 0x1100 && sub == 0x12 then imageIndexList
  else if 0x6000 ≤ index && index < 0x7000 && sub != 0 then leBytes 8 (s.m.cnt.get (dkey index sub) 0)
  else match (readIdentity s index sub).orElse (fun _ => (readPower s.m index sub).orElse (fun _ =>
      (readUnits s.m index sub).orElse (fun _ => readSystem s.m index sub))) with
    | some v => v
    | none => dval s.m index sub

end Sys2Proof.Machine
end

