-- ==== Sys2Proof/Machine/DictWrite.lean ====
section
/-!
DEFINITION. Writes of the dictionary: the checks of R592 that concern an entry and its value, the rules that the chapters
give their entries, and what a write does beyond replacing the value (R593, R594); the device state commands (19 R626)
and dictionary images (R607 to R611).
-/

namespace Sys2Proof.Machine

/-- The value aborts of R614. -/
def VALUE : Nat := 0x0E200007
def VALUE_HIGH : Nat := 0x0E200008
def IN_USE : Nat := 0x0E20000A

/-- 0 where a condition holds, else an abort. -/
def orAbort (ok : Bool) (code : Nat) : Nat := if ok then 0 else code

/-- The first of two aborts. -/
def firstAbort (a b : Nat) : Nat := if a != 0 then a else b

/-! ### Types (R576) -/

/-- Octets of a STRING: printable, then only 0x00. -/
def stringOk (v : List Byte) : Bool :=
  let t := v.dropWhile (fun b => decide (0x20 ≤ b.toNat) && decide (b.toNat ≤ 0x7E))
  t.all (· == 0)

/-- A value of a type by itself. -/
def typeOk (ty : Nat) (v : List Byte) : Bool :=
  match ty with
  | 1 => decide (leVal v ≤ 1)
  | 10 => !(fld (leVal v) 30 23 == 255 && leVal v % 2 ^ 23 != 0)
  | 12 => stringOk v
  | _ => true

/-! ### The rules of entries -/

/-- A finite binary32 value, not below zero (R380). -/
def finiteF32 (c : Nat) : Bool :=
  decide (fld c 30 23 < 255) && (!tbit c 31 || c % 2 ^ 31 == 0)

/-- R57, R58: TierRegion k. -/
def regionRule (m : Mach) (k : Nat) (v : List Byte) : Nat :=
  let kind := octs v 12 1
  let shape := decide (kind ≤ 2) && decide (octs v 13 1 ≤ 1) && zeroOcts v 14 2 &&
    (kind == 0 || (octs v 0 8 % 2 ^ 21 == 0 && decide (1 ≤ octs v 8 4) && decide (octs v 8 4 ≤ 536870912)))
  let named := m.mem.pages.any (fun p => tbit p.2.v 63 && pTier p.2.v != 0 && frameRegion (pFrame p.2.v) == k)
  let sum (kd : Nat) : Nat := (List.range 8).foldl (fun a j =>
    let r := if j == k then (kind, octs v 8 4) else ((regionAt m j).kind, (regionAt m j).frames)
    if r.1 == kd then a + r.2 else a) 0
  firstAbort (orAbort shape VALUE) (firstAbort (orAbort (!named) IN_USE)
    (orAbort (decide (sum 1 ≤ 2 ^ 25) && decide (sum 2 ≤ 2 ^ 29)) VALUE_HIGH))

/-- R445: Coordinate and RingSize. -/
def coordinateRule (m : Mach) (n : Nat) : Nat :=
  firstAbort (orAbort (!coordBad n (dnum m 0x5000 0x03)) 0x09200002) (orAbort (!m.ctxs.list.any loaded) 0x09200004)
def ringSizeRule (m : Mach) (n : Nat) : Nat :=
  firstAbort (orAbort ((List.range 4).all (fun a =>
    decide (1 ≤ fld n (8 * a + 7) (8 * a)) && decide (fld n (8 * a + 7) (8 * a) ≤ 32))) 0x09200001)
    (firstAbort (orAbort (!coordBad (dnum m 0x5000 0x02) n) 0x09200002) (orAbort (!m.ctxs.list.any loaded) 0x09200004))

/-- R475: a bound on micro-batches must not lie above every loaded context's header maximum. -/
def microBatchOk (m : Mach) (n : Nat) : Bool :=
  let ms := (m.ctxs.list.filter (fun c => loaded c && c.gey.header.v != 0)).map (fun c => chMaxMb c.gey)
  decide (1 ≤ n) && decide (n ≤ 255) && (ms.isEmpty || ms.any (fun x => decide (n ≤ x)))

/-- R542: PowerPriority is a permutation of the three domain codes. -/
def priorityOk (v : Nat) : Bool :=
  decide (v < 64) && [0, 1, 2].all (fun k => [fld v 1 0, fld v 3 2, fld v 5 4].contains k)

/-- The rule of an entry, alone and against the other entries as they stand (R592, check 9). -/
def entryRule (m : Mach) (index sub : Nat) (v : List Byte) : Nat :=
  let n := leVal v
  let upTo (k : Nat) : Nat := orAbort (decide (n ≤ k)) VALUE
  let within (a b : Nat) : Nat := orAbort (decide (a ≤ n) && decide (n ≤ b)) VALUE
  match index, sub with
  | 0x1100, 0x01 => within 0x0600 0xFFFF
  | 0x1100, 0x03 => within 1 255
  | 0x1100, 0x05 => within 1 255
  | 0x1100, 0x07 => orAbort (!tbit n 0 || n == 2 ^ 48 - 1) VALUE
  | 0x2100, 0x01 => upTo 15
  | 0x2200, 0x0A => upTo 4607
  | 0x2240, 0x03 => orAbort (finiteF32 n && n % 2 ^ 31 != 0) VALUE
  | 0x2240, 0x04 => orAbort (finiteF32 n) VALUE
  | 0x2240, 0x06 => orAbort (finiteF32 n) VALUE
  | 0x2240, 0x08 => within 1 65535
  | 0x2240, 0x09 => orAbort (fld n 15 12 == 0 && fld n 7 6 == 0) VALUE
  | 0x3000, 0x01 => firstAbort (orAbort (decide (n ≤ 4800)) 0x06090031) (orAbort (decide (m.pwr.floor ≤ n)) 0x06090032)
  | 0x3000, 0x07 => orAbort (priorityOk n) 0x06090033
  | 0x3000, 0x08 => orAbort (n == 0 || (decide (0x10 ≤ n) && decide (n ≤ 0x13))) VALUE
  | 0x3100, 0x01 => within 70 95
  | 0x3100, 0x04 => within 50 94
  | 0x3100, 0x06 => upTo 119
  | 0x4000, 0x04 => orAbort (decide (n < dnum m 0x4000 0x05)) VALUE
  | 0x4000, 0x05 => orAbort (decide (dnum m 0x4000 0x04 < n)) VALUE
  | 0x4100, 0x03 => orAbort (n == dnum m 0x4100 0x03 || m.tables.all (fun p => (calderaClaim p.2).1 == 0)) IN_USE
  | 0x5000, 0x02 => coordinateRule m n
  | 0x5000, 0x03 => ringSizeRule m n
  | 0x5000, 0x0A => upTo 7
  | 0x5100, 0x04 => upTo 7
  | 0x5100, 0x05 => orAbort (decide (-126 ≤ sxt 8 n) && decide (sxt 8 n ≤ 120)) VALUE
  | 0x5100, 0x07 => upTo 16
  | 0x5100, 0x09 => upTo 15
  | 0x5800, 0x04 => upTo 8192
  | 0x8000, 0x01 => upTo 15
  | 0x8000, 0x06 => if loaded (selected m 0x8000 0x01) then within 1 60000000 else 0x0B200002
  | 0x8000, 0x07 => if loaded (selected m 0x8000 0x01) then within 1 1000000 else 0x0B200002
  | 0x8100, 0x01 => upTo 3
  | 0x8100, 0x02 => upTo 15
  | 0x8100, 0x05 => upTo 15
  | 0x8100, 0x0C => orAbort (n % 2 ^ 21 == 0) VALUE
  | 0x8100, 0x0F => upTo 7
  | 0x8100, 0x10 =>
    firstAbort (orAbort (n % 2 == 0) VALUE) (firstAbort (orAbort (!(halfValid m 0 || halfValid m 1)) IN_USE)
      (orAbort (decide (n ≤ freeHbmCount m + m.mem.reserve.length)) VALUE_HIGH))
  | 0x8100, 0x12 => orAbort (v.all (fun b => [0, 2, 4, 6].all (fun k => fld b.toNat (k + 1) k != 3))) VALUE
  | 0x9000, 0x01 => upTo 2
  | 0x9000, 0x02 => orAbort (microBatchOk m n && decide (n ≤ dnum m 0x9000 0x03)) VALUE
  | 0x9000, 0x03 => orAbort (microBatchOk m n && decide (dnum m 0x9000 0x02 ≤ n)) VALUE
  | 0x9000, 0x04 => upTo 16
  | 0x9000, 0x05 => upTo 15
  | 0xA000, 0x02 => upTo 4607
  | 0xA000, 0x03 => orAbort (debugCtx m (coreAt m (dnum m 0xA000 0x02))) VALUE
  | _, _ =>
    if index == 0x4000 && 0x10 ≤ sub then regionRule m (sub - 0x10) v
    else if index == 0x5000 && 0x20 ≤ sub then
      orAbort (n == 0 || (List.range 16).all (fun k => k + 0x20 == sub || dnum m 0x5000 (0x20 + k) != n)) 0x09200003
    else 0

/-! ### What a write does beyond its value -/

/-- R528: the reserve takes its frames; both halves begin invalid. -/
def takeReserve (n : Nat) (m : Mach) : Mach :=
  let m0 := onMem (fun x => { x with reserve := [] }) m
  let fs := freeFrames n m0
  let m1 := onMem (fun x => { x with reserve := fs }) m0
  if fs.isEmpty then m1 else reservePut 0 0 (List.replicate 4096 0) (reservePut 1 0 (List.replicate 4096 0) m1)

/-- The effect of an accepted value; `old` is the value it replaces. -/
def entryEffect (index sub : Nat) (old v : List Byte) (m : Mach) : Mach :=
  let n := leVal v
  match index, sub with
  | 0x5000, 0x02 => recheckPorts m
  | 0x5000, 0x03 => recheckPorts { m with tor := { m.tor with everRing := true } }
  | 0x5000, 0x04 => recheckPorts m
  | 0x5000, 0x05 => switchGroups (leVal old) n m
  | 0x8000, 0x06 => modCtx (dnum m 0x8000 0x01) (fun c => { c with deadlineUs := n }) m
  | 0x8000, 0x07 => modCtx (dnum m 0x8000 0x01) (fun c => { c with commitUs := n }) m
  | 0x8100, 0x0C => modCtx (dnum m 0x8100 0x05) (fun c => { c with ckpt := { c.ckpt with va := n } }) m
  | 0x8100, 0x10 => takeReserve n m
  | 0xA000, 0x03 => modCore (dnum m 0xA000 0x02) (fun c => { c with dbgBreak := n }) m
  | _, _ =>
    if index == 0x5000 && 0x20 ≤ sub && loaded (ctxAt m (sub - 0x20)) then modCtx (sub - 0x20) (fun c => { c with jobTag := n }) m
    else m

/-- Stores a value and lets it take effect. -/
def storeEntry (index sub : Nat) (v : List Byte) (m : Mach) : Mach :=
  let m0 := if index == 0x5000 && (sub == 2 || sub == 3) then unlinkPorts m else m
  entryEffect index sub (dval m index sub) v (dput m0 index sub v)

/-! ### Commands among the entries -/

/-- R603: NotifySubscribe. -/
def subscribe (v : List Byte) (m : Mach) : Except Nat Mach :=
  let mac := octs v 0 6
  let mask := octs v 6 2
  let subs := m.mgmt.subs
  let put (k : Nat) (x : Nat × Nat) : Mach := { m with mgmt := { m.mgmt with subs := subs.set k x } }
  match (List.range 8).find? (fun k => (subs.getD k (0, 0)).2 != 0 && (subs.getD k (0, 0)).1 == mac) with
  | some k => .ok (put k (if mask == 0 then (0, 0) else (mac, mask)))
  | none =>
    if mask == 0 then .ok m
    else match (List.range 8).find? (fun k => (subs.getD k (0, 0)).2 == 0) with
      | some k => .ok (put k (mac, mask))
      | none => .error 0x0E20000E

/-- R613: CounterClear. -/
def clearCounters (n : Nat) (m : Mach) : Except Nat Mach :=
  if n == 0xFF then .ok { m with cnt := m.cnt.filter (fun p => !(decide (0x600000 ≤ p.1) && decide (p.1 < 0x700000))) }
  else if 1 ≤ n && n ≤ 15 then .ok { m with cnt := m.cnt.filter (fun p => p.1 / 65536 != 0x60 + n) }
  else .error VALUE

/-- R315, R316: DebugControl: halt, one bundle, resume. -/
def debugControl (n : Nat) (m : Mach) : Except Nat Mach :=
  let k := dnum m 0xA000 0x02
  let c := coreAt m k
  if !debugCtx m c then .error VALUE
  else match n with
    | 1 => .ok (if c.dbg == 0 then count 0x6100 0x0B (setCore k { c with dbg := 2 } m) else m)
    | 2 => .ok (setCore k { c with dbg := 0, dbgStep := true, dbgPass := c.dbgPass || c.dbg != 0 } m)
    | 3 => .ok (setCore k { c with dbg := 0, dbgStep := false, dbgPass := c.dbg == 1 } m)
    | _ => .error VALUE

/-- R555: TimeBaseSet. -/
def setTimeBase (n : Nat) (m : Mach) : Except Nat Mach :=
  let c := dnum m 0x5000 0x02
  if m.dev.st == .config && (c == 0 || c == 0xFFFFFFFF) then .ok { m with dev := { m.dev with time10 := n * 10 } } else .error VALUE

/-! ### Device state commands (R626) -/

/-- R569: the HDM window's frames are taken from the pool on entry into READY. -/
def takeWindow (m : Mach) : Mach :=
  let n := dnum m 0x5800 0x04
  if m.cxl.hdmFrames.length == n then m
  else
    let m0 := onMem (fun x => { x with devFrames := x.devFrames.filter (fun f => !m.cxl.hdmFrames.contains f) }) m
    let fs := freeFrames n m0
    { onMem (fun x => { x with devFrames := x.devFrames ++ fs }) m0 with cxl := { m0.cxl with hdmFrames := fs } }

/-- READY: the window, the spread, PowerFloor, the notice of a missing image; 100 ms. -/
def enterReady (floor : Option Nat) (m : Mach) : Mach :=
  let m0 := takeWindow (if m.mgmt.imageApplied then m else raiseDev 0x0E04 m)
  let m1 := setDevState .ready (timeBy 1000000000 m0)
  let (w, m2) := match floor with
    | some w => (w, m1)
    | none => let (x, m2) := freshFree m1; (x % 2 ^ 32, m2)
  let m3 := onPwr (fun p => { p with floor := w, due := p.due.put 4 (m2.dev.time10 + 100000000000), spread := dnum m2 0x3200 0x05 == 1 }) m2
  { m3 with dev := { m3.dev with holdAll := false } }

/-- RUN: every HELD context is released; contexts with a grant begin. -/
def enterRun (m : Mach) : Mach :=
  let free (c : Ctx) : Ctx := if c.st == .held then { c with st := .idle, holdReq := false } else c
  let held := (List.range 16).filter (fun i => (ctxAt m i).st == .held)
  startAll (setDevState .run (held.foldl (fun m i => repeatQ4 i m) { m with
    dev := { m.dev with holdAll := false }, ctxs := m.ctxs.map free, samplers := m.samplers.map (fun p => (p.1, { p.2 with cache := [] })) }))

/-- QUENCH: a HOLD to every context in RUN. -/
def holdEvery (m : Mach) : Mach :=
  let ask (c : Ctx) : Ctx := if c.st == .run then { c with holdReq := true } else c
  let m1 := { m with dev := { m.dev with holdAll := true }, ctxs := m.ctxs.map ask }
  if (m1.ctxs.list.filter loaded).all (fun c => c.st == .held || c.st == .idle) then setDevState .quench m1 else m1

/-- HALT: every loaded context enters HALT. -/
def haltEvery (m : Mach) : Mach := setDevState .halt ((List.range 16).foldl (fun m i => haltCtx i m) m)

/-- R626: what a state command does; `floor` is the PowerFloor measured on entry into READY, where the command brings it. -/
def stateEffect (code : Nat) (floor : Option Nat) (s : State) : WR :=
  let st := s.m.dev.st
  let l := s.m.ctxs.list.filter loaded
  let refuse : WR := .error 0x0F200008
  match code with
  | 0x01 => .ok (onM (fun m => { m with dev := { m.dev with resetDelay := true } }) s)
  | 0x05 => if (st == .ready || st == .halt) && l.isEmpty then .ok (onM (setDevState .config) s) else refuse
  | 0x06 =>
    if st == .config || (st == .halt && !l.any (fun c => c.st == .halt)) then .ok (stampStartup 7 (onM (enterReady floor) s)) else refuse
  | 0x07 => if st == .ready || st == .quench then .ok (onM enterRun s) else refuse
  | 0x08 => if st == .run then .ok (onM holdEvery s) else refuse
  | 0x09 => if st == .ready || st == .run || st == .quench then .ok (onM haltEvery s) else refuse
  | _ => refuse

/-- R626, R648: a state command; accepted ones are counted. -/
def stateCommand (code : Nat) (floor : Option Nat) (s : State) : WR := (stateEffect code floor s).map (onM (count 0x6F00 0x06))

/-! ### Dictionary images (R610, R611) -/

/-- ImageStatus of a refused image. -/
def imageRefused (recNo code : Nat) (m : Mach) : Mach :=
  let report := leBytes 1 2 ++ leBytes 1 0 ++ leBytes 4 recNo ++ leBytes 2 0 ++ leBytes 4 code ++ leBytes 4 (m.mgmt.imageId % 2 ^ 32)
  { m with mgmt := { m.mgmt with imageStatus := report } }

/-- A record of an image: index, subindex, type code, value and complement. -/
structure ImgRec where
  index : Nat
  sub : Nat
  ty : Nat
  value : List Byte
  comp : List Byte
deriving DecidableEq, Repr

/-- The records of an image's octets; none where they do not fill them. -/
def splitRecords : Nat → List Byte → Option (List ImgRec)
  | 0, b => if b.isEmpty then some [] else none
  | k + 1, b =>
    let n := octs b 4 2
    let span := (8 + 2 * n + 7) / 8 * 8
    if b.length < span || !zeroOcts b 6 2 then none
    else (splitRecords k (b.drop span)).map (fun r =>
      ⟨octs b 0 2, octs b 2 1, octs b 3 1, slice b 8 n, slice b (8 + n) n⟩ :: r)

/-- R610, check 1. -/
def imageHeaderOk (img : List Byte) : Bool :=
  decide (64 ≤ img.length) && octs img 0 2 == 1 && octs img 2 2 == 1 && slice img 24 16 == slice partNumber 0 16 &&
  octs img 40 4 == img.length - 64 && octs img 44 4 == crc32c (img.drop 64) && zeroOcts img 48 16

/-- R610, check 2 for a record: the entry is listed, type and length match. -/
def recordOk (r : ImgRec) : Bool :=
  imageEntries.any (fun x => x.1 == r.index && x.2.1 == r.sub && x.2.2.ty == r.ty && x.2.2.size == r.value.length)

/-- The number, from 1, of the first record that a check refuses, with its abort. -/
def firstBad (f : ImgRec → Nat) : Nat → List ImgRec → Option (Nat × Nat)
  | _, [] => none
  | k, r :: rs => if f r != 0 then some (k, f r) else firstBad f (k + 1) rs

/-- The first record that does not ascend. -/
def firstUnordered : Nat → List ImgRec → Option Nat
  | k, a :: b :: rs => if dkey a.index a.sub < dkey b.index b.sub then firstUnordered (k + 1) (b :: rs) else some (k + 1)
  | _, _ => none

/-- The record number and abort that an image is refused with, if any. -/
def imageBad (s : State) (img : List Byte) : Option (Nat × Nat) :=
  if !imageHeaderOk img then some (0, 0x0E200012)
  else match splitRecords (octs img 4 4) (img.drop 64) with
    | none => some (0, 0x0E200012)
    | some rs =>
      match firstBad (fun r => orAbort (recordOk r) 0x0E200012) 1 rs, firstUnordered 1 rs with
      | some x, some k => some (min x.1 k, 0x0E200012)
      | some x, none => some x
      | none, some k => some (k, 0x0E200012)
      | none, none =>
        match firstBad (fun r => orAbort (r.comp == cplBytes r.value) 0x0E200006) 1 rs with
        | some x => some x
        | none =>
          let m1 := rs.foldl (fun m r => dput m r.index r.sub r.value) s.m
          firstBad (fun r => firstAbort (orAbort (typeOk r.ty r.value) VALUE)
            (if r.index == 0x7000 then orAbort (!s.boot.keyLocked) 0x0F200009 else entryRule m1 r.index r.sub r.value)) 1 rs

/-- One record of an image takes effect, every value already stored. -/
def applyRecordTo (olds : State) (s : State) (r : ImgRec) : State :=
  if r.index == 0x7000 then onB (fun b => { b with keyHash := r.value, keyLocked := true }) s
  else onM (entryEffect r.index r.sub (dval olds.m r.index r.sub) r.value) s

/-- R610, R611: an image is applied at one instant or refused; a refusal is reported in ImageStatus. -/
def applyImage (img : List Byte) (s : State) : State × Nat :=
  match imageBad s img with
  | some (k, code) => (onM (imageRefused k code) s, code)
  | none =>
    let rs := (splitRecords (octs img 4 4) (img.drop 64)).getD []
    let set := rs.filter (fun r => r.index != 0x7000)
    let s1 := onM (fun m => set.foldl (fun m r => dput m r.index r.sub r.value)
      (if set.any (fun r => r.index == 0x5000 && (r.sub == 2 || r.sub == 3)) then unlinkPorts m else m)) s
    let id := octs img 8 8
    let report := leBytes 1 1 ++ leBytes 11 0 ++ leBytes 4 (id % 2 ^ 32)
    (onM (fun m => { m with mgmt := { m.mgmt with imageApplied := true, imageId := id, imageStatus := report } })
      (rs.foldl (applyRecordTo s) s1), 0)

/-! ### Every write -/

/-- The writes that are commands, or that the security unit takes; none for the others. -/
def commandWrite (index sub : Nat) (v : List Byte) (s : State) : Option (State × Nat) :=
  let n := leVal v
  let ans (r : WR) : State × Nat := match r with | .ok s' => (s', 0) | .error c => (s, c)
  let onMach (r : Except Nat Mach) : State × Nat := match r with | .ok m => ({ s with m := m }, 0) | .error c => (s, c)
  match index, sub with
  | 0x1100, 0x0C => some (onMach (subscribe v s.m))
  | 0x1100, 0x11 => some (applyImage v s)
  | 0x1100, 0x14 => some (onMach (clearCounters n s.m))
  | 0x1200, 0x01 => some (ans (stateCommand n none s))
  | 0x1200, 0x10 => some (ans (writeFirmware v s))
  | 0x1200, 0x11 => some (ans (writeHelper v s))
  | 0x3200, 0x07 => some (onMach (setTimeBase n s.m))
  | 0x4100, 0x10 => some (let r := tablePublish v s.m; ({ s with m := r.1 }, r.2))
  | 0x4100, 0x11 => some (let r := refreshPost v s.m; ({ s with m := r.1 }, r.2))
  | 0x7000, 0x10 => some (ans (writeNonce v s))
  | 0x7000, 0x20 => some (ans (writeKeyHash v s))
  | 0x7000, 0x22 => some (let (s', e) := writeToken v s; (s', e.getD 0))
  | 0x8000, 0x03 => some (onMach (ctxControl (dnum s.m 0x8000 0x01) n s.m))
  | 0x8100, 0x0B => some (onMach (ckptBegin (dnum s.m 0x8100 0x05) n s.m))
  | 0xA000, 0x04 => some (onMach (debugControl n s.m))
  | _, _ => none

/-- R592, check 2, for writes. -/
def writeGate (st : DevState) (index sub : Nat) : Nat :=
  let firmware := index == 0x1200 && (sub == 0x10 || sub == 0x11)
  if firmware && (st == .selftest || st == .train || st == .preboot) then 0 else writeState st

/-- R592, checks 2 to 5 for a write. -/
def writeAccess (st : DevState) (index sub : Nat) : Nat :=
  match dictEnt index sub with
  | none => firstAbort (writeGate st index sub) 0x0E200001
  | some e =>
    let calm := st == .config || st == .quench || st == .halt
    firstAbort (writeGate st index sub) (firstAbort (orAbort (!(e.acc == .ro || e.acc == .const)) 0x0E200002)
      (orAbort ((e.acc != .rwq || calm) && !(index == 0x1100 && sub == 0x11 && st != .config)) 0x0E200004))

/-- R592, check 6 for a whole value. -/
def lengthOk (e : DEnt) (n : Nat) : Bool := if e.ty == 13 then decide (n ≤ e.size) else n == e.size

/-- Checks 8 and 9, then the write (R592, R593). -/
def writeValue (index sub : Nat) (v : List Byte) (s : State) : State × Nat :=
  match dictEnt index sub with
  | none => (s, 0x0E200001)
  | some e =>
    if index == 0xA000 && sub == 0x01 && leVal v == 1 && !debugAuthorised s.boot then (s, 0x0E20000F)
    else if !typeOk e.ty v then (s, VALUE)
    else match commandWrite index sub v s with
      | some r => r
      | none =>
        let code := entryRule s.m index sub v
        if code != 0 then (s, code) else (onM (storeEntry index sub v) s, 0)

/-- A write of a whole value, as a dictionary row carries it: every check of R592 but the frame's. -/
def writeEntry (index sub : Nat) (v : List Byte) (s : State) : State × Nat :=
  let a := writeAccess s.m.dev.st index sub
  if a != 0 then (s, a)
  else match dictEnt index sub with
    | none => (s, 0x0E200001)
    | some e => if lengthOk e v.length then writeValue index sub v s else (s, 0x0E200005)

end Sys2Proof.Machine
end

