-- ==== Sys2Proof/Machine/Mgmt.lean ====
section
/-!
DEFINITION. The dictionary server (18 R583 to R606): which frames it takes, the checks of R592, single and block reads and
writes, kept responses, discards and answers; heartbeats, beacons and dropped frames; and the rows that write one entry.
-/

namespace Sys2Proof.Machine

/-! ### Requests -/

/-- The header of a payload (R589). -/
structure MHead where
  version : Nat
  op : Nat
  seq : Nat
  index : Nat
  sub : Nat
  flags : Nat
  off : Nat
  len : Nat
  reserved : Nat
deriving DecidableEq, Repr

/-- Reads a payload's header. -/
def mhead (p : List Byte) : MHead :=
  ⟨octs p 0 1, octs p 1 1, octs p 2 2, octs p 4 2, octs p 6 1, octs p 7 1, octs p 8 4, octs p 12 2, octs p 14 2⟩

/-- A requester: a source MAC address, or a mailbox function (R598). -/
def requester (r : Req) : Nat :=
  match r.via with
  | .seg => leVal (slice r.src 0 6)
  | .mbox p => 2 ^ 48 + p

/-- The request came on the segment. -/
def onSegment (r : Req) : Bool := match r.via with | .seg => true | .mbox _ => false

/-- A frame that R597 discards, a requester's ABORT aside. -/
def discardFrame (r : Req) : Bool :=
  let h := mhead r.payload
  tbit h.flags 0 || (onSegment r && (tbit (leVal r.src) 0 ||
    (leVal (slice r.dst 0 6) == 2 ^ 48 - 1 && h.op != 7 && !(h.op == 1 && decide (0x1000 ≤ h.index) && decide (h.index ≤ 0x10FF)))))

/-- What a frame is to the server: 0 one that MGMT_FRAME_DISCARD stands for, else its operation. -/
def reqClass (r : Req) : Nat :=
  let op := octs r.payload 1 1
  if (onSegment r && !r.fcsOk) || discardFrame r then 0
  else if (1 ≤ op && op ≤ 4) || op == 7 then op else 0

/-- R592, check 1. -/
def frameOk (h : MHead) (p : List Byte) : Bool :=
  h.version == 1 && decide (1 ≤ h.op) && decide (h.op ≤ 4) && decide (h.flags < 4) && (h.op == 4 || !tbit h.flags 1) &&
  (decide (3 ≤ h.op) || h.off == 0) && h.reserved == 0 && decide (16 + h.len ≤ p.length)

/-- R588 for a read. -/
def readGate (st : DevState) (index : Nat) : Nat :=
  let early := (0x1000 ≤ index && index ≤ 0x12FF) || (0x2000 ≤ index && index ≤ 0x20FF)
  match st with
  | .config | .ready | .run | .quench | .halt | .fault => 0
  | .selftest | .train | .preboot => orAbort early 0x0E200010
  | _ => 0x0E200010

/-- R592, checks 2 to 4 for a read. -/
def readAccess (st : DevState) (index sub : Nat) : Nat :=
  firstAbort (readGate st index) (match dictEnt index sub with
    | none => 0x0E200001
    | some e => orAbort (e.acc != .wo) 0x0E200003)

/-- An entry of at most 512 octets that is not a DOMAIN (R592, check 6). -/
def plainEntry (index sub : Nat) : Bool :=
  match dictEnt index sub with
  | none => false
  | some e => e.ty != 13 && decide (e.size ≤ 512)

/-- Octets an entry may hold. -/
def entrySize (index sub : Nat) : Nat := match dictEnt index sub with | none => 0 | some e => e.size

/-- R580: a stored pair that fails its check is set to its default, and the fault is raised. -/
def checkStore (index sub : Nat) (m : Mach) : Mach :=
  match m.mgmt.dict.find (dkey index sub) with
  | none => m
  | some (v, c) =>
    if c == cplBytes v then m
    else
      let dv := dval m index sub
      let m1 := storeEntry index sub dv m
      let m2 := count 0x6E00 0x0F m1
      let m3 := raiseDev 0x0E03 m2
      allRunning (ctxClassed 0x0E03) m3

/-- R580: the pairs that the units use are checked as time passes: every stored pair in turn (log entry 49). -/
def scrubStore (m : Mach) : Mach := m.mgmt.dict.foldl (fun m p => checkStore (p.1 / 256) (p.1 % 256) m) m

/-- The value of a read, acting where the read itself acts (R642); StepNumber is checked as it is read (R503). -/
def readEntry (index sub : Nat) (s : State) : List Byte × State :=
  if index == 0x7000 && sub == 0x21 then readChallenge s
  else (dictValue s index sub, if index == 0x8000 && sub == 0x04 then onM (stepUsed (dnum s.m 0x8000 0x01) id) s else s)

/-- What serving a request gives: an abort, or Flags and data of the response. -/
inductive Reply where
  | abort (code : Nat)
  | resp (flags : Nat) (data : List Byte)
deriving DecidableEq, Repr

/-- An abort, or the response of a write. -/
def servedWrite (code : Nat) : Reply := if code != 0 then .abort code else .resp 1 []

/-- READ. -/
def serveRead (h : MHead) (s : State) : State × Reply :=
  let a := readAccess s.m.dev.st h.index h.sub
  if a != 0 then (s, .abort a)
  else if !plainEntry h.index h.sub || h.len != 0 then (s, .abort 0x0E200005)
  else
    let (v, s1) := readEntry h.index h.sub s
    (s1, .resp 1 (withCpl v))

/-- The value that a frame carries and its check against the complement (R590). -/
def carried (h : MHead) (p : List Byte) : List Byte := slice p 16 (h.len / 2)
def carriedOk (h : MHead) (p : List Byte) : Bool := slice p (16 + h.len / 2) (h.len / 2) == cplBytes (carried h p)

/-- WRITE. -/
def serveWrite (h : MHead) (p : List Byte) (s : State) : State × Reply :=
  let a := writeAccess s.m.dev.st h.index h.sub
  if a != 0 then (s, .abort a)
  else if !plainEntry h.index h.sub || h.len != 2 * entrySize h.index h.sub then (s, .abort 0x0E200005)
  else if !carriedOk h p then (s, .abort 0x0E200006)
  else
    let (s1, code) := writeValue h.index h.sub (carried h p) s
    (s1, servedWrite code)

/-- The requester's snapshot, if it still stands (R596). -/
def snapOf (who : Nat) (m : Mach) : Option Stage :=
  m.mgmt.snaps.find? (fun x => x.who == who && decide (m.dev.time10 ≤ x.at10 + 10000000000))

/-- Replaces a requester's snapshot. -/
def setSnap (who : Nat) (x : Option Stage) (m : Mach) : Mach :=
  { m with mgmt := { m.mgmt with snaps := m.mgmt.snaps.filter (fun y => y.who != who) ++ x.toList } }

/-- READ_BLOCK. -/
def serveReadBlock (who : Nat) (h : MHead) (p : List Byte) (s : State) : State × Reply :=
  let a := readAccess s.m.dev.st h.index h.sub
  let want := octs p 16 2
  if a != 0 then (s, .abort a)
  else if h.len != 4 || want == 0 || decide (512 < want) then (s, .abort 0x0E200005)
  else if !carriedOk h p then (s, .abort 0x0E200006)
  else
    let taken : Option (Stage × State) :=
      if h.off == 0 then
        let (v, s1) := readEntry h.index h.sub s
        some (⟨who, h.index, h.sub, v, s.m.dev.time10⟩, s1)
      else match snapOf who s.m with
        | some x => if x.index == h.index && x.sub == h.sub then some (x, s) else none
        | none => none
    match taken with
    | none => (s, .abort 0x0E20000C)
    | some (x, s1) =>
      if h.off != 0 && decide (x.data.length ≤ h.off) then (s, .abort 0x0E200005)
      else
        let seg := (x.data.drop h.off).take want
        let last := decide (x.data.length ≤ h.off + want)
        (onM (setSnap who (if last then none else some { x with at10 := s.m.dev.time10 })) s1,
          .resp (if last then 3 else 1) (withCpl seg))

/-! ### Block writes (R599, R600) -/

/-- Removes a requester's staged write and remembers it as discarded, where `note` says so. -/
def dropStage (who : Nat) (note : Bool) (m : Mach) : Mach :=
  match m.mgmt.stages.find? (fun x => x.who == who) with
  | none => m
  | some x =>
    let gone := m.mgmt.cancelled.filter (· != (who, dkey x.index x.sub))
    let rest := m.mgmt.stages.filter (fun y => y.who != who)
    { m with mgmt := { m.mgmt with stages := rest, cancelled := if note then gone ++ [(who, dkey x.index x.sub)] else m.mgmt.cancelled } }

/-- Staged writes that have had no segment for 1 s are discarded. -/
def expireStages (m : Mach) : Mach :=
  m.mgmt.stages.foldl (fun m x => if x.at10 + 10000000000 < m.dev.time10 then dropStage x.who true m else m) m

/-- Stores the staged write of a requester. -/
def putStage (x : Stage) (m : Mach) : Mach :=
  { m with mgmt := { m.mgmt with stages := m.mgmt.stages.filter (fun y => y.who != x.who) ++ [x] } }

/-- Forgets that a transfer was discarded. -/
def forgetCancelled (who key : Nat) (m : Mach) : Mach :=
  { m with mgmt := { m.mgmt with cancelled := m.mgmt.cancelled.filter (· != (who, key)) } }

/-- A segment joins the octets staged so far; with Last the whole value is written. -/
def stageSegment (who : Nat) (h : MHead) (sofar seg : List Byte) (s : State) : State × Reply :=
  let data := sofar ++ seg
  let s1 := onM (fun m => dropStage who false m) s
  if tbit h.flags 1 then
    match dictEnt h.index h.sub with
    | none => (s1, .abort 0x0E200001)
    | some e =>
      if !lengthOk e data.length then (s1, .abort 0x0E200005)
      else
        let (s2, code) := writeValue h.index h.sub data s1
        (s2, servedWrite code)
  else (onM (putStage ⟨who, h.index, h.sub, data, s.m.dev.time10⟩) s1, .resp 1 [])

/-- WRITE_BLOCK. -/
def serveWriteBlock (who : Nat) (h : MHead) (p : List Byte) (s0 : State) : State × Reply :=
  let s := onM expireStages s0
  let a := writeAccess s.m.dev.st h.index h.sub
  let key := dkey h.index h.sub
  let st := s.m.mgmt.stages.find? (fun x => x.who == who)
  let seg := carried h p
  let room := decide (h.off + seg.length ≤ entrySize h.index h.sub)
  if a != 0 then (s, .abort a)
  else if h.len % 2 != 0 || decide (1024 < h.len) then (s, .abort 0x0E200005)
  else if !carriedOk h p then (s, .abort 0x0E200006)
  else if h.off == 0 then
    if st.isNone && decide (4 ≤ s.m.mgmt.stages.length) then (s, .abort 0x0E20000D)
    else if !room then (s, .abort 0x0E200005)
    else
      let other := match st with | some x => dkey x.index x.sub != key | none => false
      stageSegment who h [] seg (onM (fun m => forgetCancelled who key (dropStage who other m)) s)
  else if s.m.mgmt.cancelled.contains (who, key) then (onM (forgetCancelled who key) s, .abort 0x0E200011)
  else match st with
    | none => (s, .abort 0x0E20000C)
    | some x =>
      if dkey x.index x.sub != key || x.data.length != h.off then (onM (dropStage who false) s, .abort 0x0E20000C)
      else if !room then (s, .abort 0x0E200005)
      else stageSegment who h x.data seg s

/-! ### Serving and answering -/

/-- Check 1, then the operation. -/
def serveOp (who : Nat) (p : List Byte) (s : State) : State × Reply :=
  let h := mhead p
  if !frameOk h p then (s, .abort 0x0E20000B)
  else
    let s1 := onM (checkStore h.index h.sub) s
    match h.op with
    | 1 => serveRead h s1
    | 2 => serveWrite h p s1
    | 3 => serveReadBlock who h p s1
    | _ => serveWriteBlock who h p s1

/-- The answering payload (R589, R597). -/
def answerPayload (h : MHead) : Reply → List Byte
  | .abort code => mgmtPayload 0x07 h.seq h.index h.sub 1 0 8 (withCpl (leBytes 4 code))
  | .resp flags data => mgmtPayload h.op h.seq h.index h.sub flags (if 3 ≤ h.op then h.off else 0) data.length data

/-- Sends an answer: padded to 46 octets on the segment, bare in the tunnel (R606). -/
def sendAnswer (r : Req) (p : List Byte) (m : Mach) : Mach :=
  let m1 := if octs p 1 1 == 7 then count 0x6E00 0x05 m else m
  match r.via with
  | .seg => sendFrame (requester r) (p ++ List.replicate (46 - p.length) 0) m1
  | .mbox port => emit (.tunnel port p) m1

/-- Keeps a response: one a requester, the least recently served of 16 goes (R598). -/
def keepResponse (k : Kept) (m : Mach) : Mach :=
  let l := m.mgmt.cache.filter (fun x => x.who != k.who) ++ [k]
  { m with mgmt := { m.mgmt with cache := l.drop (l.length - 16) } }

/-- Serves a request, or sends its kept response again (R597, R598). -/
def serveRequest (r : Req) (s : State) : State :=
  let h := mhead r.payload
  let who := requester r
  match s.m.mgmt.cache.find? (fun x => x.who == who && x.op == h.op && x.seq == h.seq) with
  | some k => onM (fun m => sendAnswer r k.resp (count 0x6E00 0x07 (if onSegment r then m else count 0x6D00 0x09 m))) s
  | none =>
    let (s1, out) := serveOp who r.payload s
    let p := answerPayload h out
    let m1 := count 0x6E00 0x04 s1.m
    let m2 := if onSegment r then m1 else count 0x6D00 0x09 (count 0x6E00 0x0C m1)
    let m3 := if out == .abort 0x0E200006 then count 0x6E00 0x06 m2 else m2
    { s1 with m := sendAnswer r p (keepResponse ⟨who, h.op, h.seq, p⟩ m3) }

/-- R586, R597, R606: what becomes of a frame or a tunnelled payload. -/
def takeRequest (r : Req) (s : State) : State :=
  let m := s.m
  let own := leVal (slice r.dst 0 6)
  let heard := match r.via with
    | .seg => mgmtDriven m && r.fcsOk && (own == macAddr m || own == 2 ^ 48 - 1) && r.etherType == dnum m 0x1100 0x01
    | .mbox p => portServes m p
  let rx (m : Mach) : Mach := if onSegment r then count 0x6E00 0x01 m else m
  if onSegment r && !r.fcsOk then
    (if mgmtDriven m && own == macAddr m then onM (count 0x6E00 0x03) s else s)
  else if !heard then s
  else if discardFrame r then onM (fun m => count 0x6E00 0x08 (rx m)) s
  else if octs r.payload 1 1 == 7 then
    onM (fun m => count 0x6E00 0x08 (dropStage (requester r) true (expireStages (rx m)))) s
  else serveRequest r (onM rx s)

/-- A row that stands for one class of frames; a frame of another class leaves the device as it is. -/
def takeClass (cls : List Nat) (r : Req) (s : State) : Host.Outcome State Fault Refusal :=
  .next (if cls.contains (reqClass r) then takeRequest r s else s)

/-- MGMT_READ (R592). -/
def execMgmtRead (r : Req) (s : State) : Host.Outcome State Fault Refusal := takeClass [1] r s

/-- MGMT_WRITE (R593). -/
def execMgmtWrite (r : Req) (s : State) : Host.Outcome State Fault Refusal := takeClass [2] r s

/-- READ_BLOCK (R596). -/
def execReadBlock (r : Req) (s : State) : Host.Outcome State Fault Refusal := takeClass [3] r s

/-- WRITE_BLOCK (R599). -/
def execWriteBlock (r : Req) (s : State) : Host.Outcome State Fault Refusal := takeClass [4] r s

/-- MGMT_ABORT (R600). -/
def execMgmtAbort (r : Req) (s : State) : Host.Outcome State Fault Refusal := takeClass [7] r s

/-- DICT_IMAGE_READ (R609): a READ_BLOCK of `0x1100.11`. -/
def execDictImageRead (r : Req) (s : State) : Host.Outcome State Fault Refusal :=
  if octs r.payload 4 2 == 0x1100 && octs r.payload 6 1 == 0x11 then takeClass [3] r s else .next s

/-- MGMT_FRAME_DISCARD (R597). -/
def execMgmtFrameDiscard (r : Req) (s : State) : Host.Outcome State Fault Refusal := takeClass [0] r s

/-- BLOCK_SNAPSHOT_TIMEOUT (R596): 1 s has passed without a segment. -/
def execBlockSnapshotTimeout (requester : Nat) (s : State) : Host.Outcome State Fault Refusal :=
  .next (match s.m.mgmt.snaps.find? (fun x => x.who == requester) with
    | some x => onM (fun m => setSnap requester none (timeTo (x.at10 + 10000000000) m)) s
    | none => s)

/-- BLOCK_WRITE_TIMEOUT (R600): 1 s has passed without a segment. -/
def execBlockWriteTimeout (requester : Nat) (s : State) : Host.Outcome State Fault Refusal :=
  .next (match s.m.mgmt.stages.find? (fun x => x.who == requester) with
    | some x => onM (fun m => dropStage requester true (timeTo (x.at10 + 10000000000) m)) s
    | none => s)

/-! ### Heartbeats, beacons, dropped frames -/

/-- The heartbeat record (R601). -/
def heartbeatBytes (s : State) : List Byte :=
  let m := s.m
  let flags := (if m.mgmt.imageApplied then 1 else 0) + (if m.ctxs.list.any (fun c => c.st == .halt) then 2 else 0) +
    (if m.dev.faultReport.any (· != 0) then 4 else 0)
  leBytes 1 m.dev.st.code ++ leBytes 1 flags ++ leBytes 1 (nodeId m) ++ leBytes 1 (boardSlot m) ++ leBytes 4 m.mgmt.heartbeats ++
    serialNumber s.boot ++ leBytes 8 (nowNs m) ++ leBytes 4 m.mgmt.seq ++ leBytes 4 (powerNow m)

/-- HEARTBEAT_TIMER (R601). -/
def execHeartbeatTimer (s : State) : Host.Outcome State Fault Refusal :=
  .next (if !mgmtDriven s.m then s
    else
      let p := mgmtPayload 0x06 0 0x1100 0x08 1 0 64 (withCpl (heartbeatBytes s))
      onM (fun m => count 0x6E00 0x0B (sendFrame (dnum m 0x1100 0x07) p
        { m with mgmt := { m.mgmt with heartbeats := m.mgmt.heartbeats + 1 } })) s)

/-- PLCA_BEACON (R585). -/
def execPlcaBeacon (s : State) : Host.Outcome State Fault Refusal :=
  .next (if !mgmtDriven s.m then s
    else onM (fun m => { m with mgmt := { m.mgmt with beaconSeen := true, csma := false, beaconAt := m.dev.time10 } }) s)

/-- BEACON_LOST_TIMER (R585): 10 ms have passed without a beacon. -/
def execBeaconLostTimer (s : State) : Host.Outcome State Fault Refusal :=
  .next (if !mgmtDriven s.m || !s.m.mgmt.beaconSeen || s.m.mgmt.csma then s
    else onM (fun m => raiseDev 0x0E01 (count 0x6E00 0x0D (timeTo (m.mgmt.beaconAt + 100000000)
      { m with mgmt := { m.mgmt with csma := true } }))) s)

/-- Takes the last frame back out of what left the device: it was never sent. -/
def unsend (f : Nat × List Byte) (m : Mach) : Mach :=
  let back := { m with out := (m.out.reverse.erase (.frame f.1 f.2)).reverse }
  { back with cnt := back.cnt.put (dkey 0x6E00 0x02) (back.cnt.get (dkey 0x6E00 0x02) 0 - 1) }

/-- MGMT_TX_ATTEMPTS_EXHAUSTED (R585): a frame under CSMA/CD is dropped. -/
def execMgmtTxAttemptsExhausted (s : State) : Host.Outcome State Fault Refusal :=
  .next (match s.m.mgmt.txQueue with
    | [] => s
    | f :: rest =>
      if !mgmtDriven s.m || (s.m.mgmt.beaconSeen && !s.m.mgmt.csma) then s
      else onM (fun m => raiseDev 0x0E02 (count 0x6E00 0x0E (unsend f { m with mgmt := { m.mgmt with txQueue := rest } }))) s)

/-! ### Rows that write one entry -/

/-- A row that writes an entry: answered as a request is, nothing where no server runs (R588). -/
def rowWrite (index sub : Nat) (v : List Byte) (s : State) : Host.Outcome State Fault Refusal :=
  if !serverRuns s.m.dev.st then .next s
  else
    let (s1, code) := writeEntry index sub v (onM (checkStore index sub) s)
    .next (answer s1 (if code != 0 then .error code else .ok s1))

/-- DICT_WRITE (R593): a write of an entry. -/
def execDictWrite (index sub : Nat) (value : List Byte) (s : State) : Host.Outcome State Fault Refusal := rowWrite index sub value s

/-- NOTIFY_SUBSCRIBE (R603). -/
def execNotifySubscribe (value : List Byte) (s : State) : Host.Outcome State Fault Refusal := rowWrite 0x1100 0x0C value s

/-- COUNTER_CLEAR (R613). -/
def execCounterClear (value : List Byte) (s : State) : Host.Outcome State Fault Refusal := rowWrite 0x1100 0x14 value s

/-- DICT_IMAGE_WRITE (R610). -/
def execDictImageWrite (image : List Byte) (s : State) : Host.Outcome State Fault Refusal := rowWrite 0x1100 0x11 image s

/-- FIRMWARE_IMAGE_WRITE (R631). -/
def execFirmwareImageWrite (image : List Byte) (s : State) : Host.Outcome State Fault Refusal := rowWrite 0x1200 0x10 image s

/-- PUF_HELPER_WRITE (R635). -/
def execPufHelperWrite (value : List Byte) (s : State) : Host.Outcome State Fault Refusal := rowWrite 0x1200 0x11 value s

/-- ATTEST_NONCE (R640). -/
def execAttestNonce (value : List Byte) (s : State) : Host.Outcome State Fault Refusal := rowWrite 0x7000 0x10 value s

/-- DEBUG_KEY_HASH (R641). -/
def execDebugKeyHash (value : List Byte) (s : State) : Host.Outcome State Fault Refusal := rowWrite 0x7000 0x20 value s

/-- DEBUG_CHALLENGE (R642): a read of `0x7000.21`. -/
def execDebugChallenge (s : State) : Host.Outcome State Fault Refusal :=
  if !serverRuns s.m.dev.st then .next s
  else
    let a := readAccess s.m.dev.st 0x7000 0x21
    if a != 0 then .next (answer s (.error a))
    else
      let (v, s1) := readChallenge s
      .next (onM (fun m => emit (.value v) (count 0x6E00 0x04 m)) s1)

/-- DEBUG_TOKEN (R643). -/
def execDebugToken (value : List Byte) (s : State) : Host.Outcome State Fault Refusal := rowWrite 0x7000 0x22 value s

/-- DEBUG_ENABLE_WRITE (R644). -/
def execDebugEnableWrite (value : List Byte) (s : State) : Host.Outcome State Fault Refusal := rowWrite 0xA000 0x01 value s

/-- DEBUG_HALT (R322): DebugControl 0x01. -/
def execDebugHalt (s : State) : Host.Outcome State Fault Refusal := rowWrite 0xA000 0x04 [0x01#8] s

/-- DEBUG_STEP (R315): DebugControl 0x02. -/
def execDebugStep (s : State) : Host.Outcome State Fault Refusal := rowWrite 0xA000 0x04 [0x02#8] s

/-- DEBUG_RESUME (R315): DebugControl 0x03. -/
def execDebugResume (s : State) : Host.Outcome State Fault Refusal := rowWrite 0xA000 0x04 [0x03#8] s

/-- POWER_CAP_WRITE (R542). -/
def execPowerCapWrite (value : List Byte) (s : State) : Host.Outcome State Fault Refusal := rowWrite 0x3000 0x01 value s

/-- POWER_PRIORITY_WRITE (R542). -/
def execPowerPriorityWrite (value : List Byte) (s : State) : Host.Outcome State Fault Refusal := rowWrite 0x3000 0x07 value s

/-- FIXED_FREQUENCY_WRITE (R541). -/
def execFixedFrequencyWrite (value : List Byte) (s : State) : Host.Outcome State Fault Refusal := rowWrite 0x3000 0x08 value s

/-- TIME_BASE_SET (R555). -/
def execTimeBaseSet (value : List Byte) (s : State) : Host.Outcome State Fault Refusal := rowWrite 0x3200 0x07 value s

/-- FIBRE_GROUP_WRITE (R440). -/
def execFibreGroupWrite (value : List Byte) (s : State) : Host.Outcome State Fault Refusal := rowWrite 0x5000 0x05 value s

/-- COORDINATE_WRITE (R430): `0x5000.02`, or `0x5000.03` where `ringSize`. -/
def execCoordinateWrite (ringSize : Bool) (value : List Byte) (s : State) : Host.Outcome State Fault Refusal :=
  rowWrite 0x5000 (if ringSize then 0x03 else 0x02) value s

/-- TABLE_PUBLISH (R182): `0x4100.10` of a table. -/
def execTablePublish (table : Nat) (value : List Byte) (s : State) : Host.Outcome State Fault Refusal :=
  if leVal (slice value 0 2) == table then rowWrite 0x4100 0x10 value s else .next s

/-- REFRESH_POST (R193): `0x4100.11`. -/
def execRefreshPost (value : List Byte) (s : State) : Host.Outcome State Fault Refusal := rowWrite 0x4100 0x11 value s

end Sys2Proof.Machine
end

