-- ==== Sys2Proof/Machine/DeviceCtl.lean ====
section
/-!
DEFINITION. The device state commands as rows (19 R618, R626), and the reference clocks (16 R553).
-/

namespace Sys2Proof.Machine

/-- A write of `0x1200.01 DeviceState`; `floor` is the PowerFloor measured on entry into READY. -/
def rowState (code : Nat) (floor : Option Nat) (s : State) : Host.Outcome State Fault Refusal :=
  if !serverRuns s.m.dev.st then .next s
  else
    let a := writeAccess s.m.dev.st 0x1200 0x01
    .next (answer s (if a != 0 then .error a else stateCommand code floor s))

/-- STATE_RESET (R626). -/
def execStateReset (s : State) : Host.Outcome State Fault Refusal := rowState 0x01 none s

/-- STATE_CONFIG (R626). -/
def execStateConfig (s : State) : Host.Outcome State Fault Refusal := rowState 0x05 none s

/-- STATE_READY (R626). -/
def execStateReady (floorW : Nat) (s : State) : Host.Outcome State Fault Refusal := rowState 0x06 (some (floorW % 2 ^ 32)) s

/-- STATE_RUN (R626). -/
def execStateRun (s : State) : Host.Outcome State Fault Refusal := rowState 0x07 none s

/-- STATE_QUENCH (R626). -/
def execStateQuench (s : State) : Host.Outcome State Fault Refusal := rowState 0x08 none s

/-- STATE_HALT (R626). -/
def execStateHalt (s : State) : Host.Outcome State Fault Refusal := rowState 0x09 none s

/-- STATE_RESET_DELAY_EXPIRY (R618): 10 ms after the answer. -/
def execStateResetDelayExpiry (s : State) : Host.Outcome State Fault Refusal :=
  .next (if s.m.dev.resetDelay && alive s.m then enterReset s else s)

/-! ### Reference clocks (R553): 0 is 25 MHz, 1 is 156.25 MHz, 2 is 100 MHz -/

/-- The 156.25 MHz reference is gone: every port goes to DOWN and the time base runs uncorrected. -/
def loseTorusClock (m : Mach) : Mach :=
  let followed := match parentPort m with | some p => (portAt m p).st == 6 | none => false
  let m1 := (List.range 8).foldl (fun m p => portDown p 0x0C06 m) m
  if followed then m1 else raiseDev 0x0907 { m1 with tor := { m1.tor with locked := false, lockCount := 0 } }

/-- The 100 MHz reference is gone: both CXL ports go down and do not train. -/
def loseCxlClock (m : Mach) : Mach :=
  (List.range 2).foldl (fun m p =>
    if (cxlPort m p).l0 then cxlDown p true m else setCxlPort p { cxlPort m p with training := false } m) m

/-- REFERENCE_LOST (R553). -/
def execReferenceLost (ref : Nat) (s : State) : Host.Outcome State Fault Refusal :=
  .next (if decide (3 ≤ ref) || !tbit s.m.pwr.refs ref then s
    else
      let s1 := onM (onPwr (fun p => { p with refs := p.refs ^^^ 2 ^ ref })) s
      if !alive s.m then s1
      else
        let s2 := onM (count 0x6C00 0x09) s1
        if s2.m.dev.st == .fault then onM (raiseDev 0x0C06) s2
        else match ref with
          | 0 => onM (devFault 0x0C06 0xFF) s2
          | 1 => onM (fun m => loseTorusClock (raiseDev 0x0C06 m)) s2
          | _ => onM (fun m => loseCxlClock (raiseDev 0x0C06 m)) s2)

/-- REFERENCE_RETURN (R553). -/
def execReferenceReturn (ref : Nat) (s : State) : Host.Outcome State Fault Refusal :=
  .next (if decide (3 ≤ ref) || tbit s.m.pwr.refs ref then s
    else
      let m := onPwr (fun p => { p with refs := p.refs ||| 2 ^ ref }) s.m
      let back : Mach := match ref with
        | 1 => if m.dev.zeroed && m.dev.st != .fault then lightPorts m else m
        | 2 => if cxlTrains m then (List.range 2).foldl (fun m p =>
                 let x := cxlPort m p
                 if x.l0 || x.perst then m else setCxlPort p { x with training := true } m) m
               else m
        | _ => m
      { s with m := back })

end Sys2Proof.Machine
end

