-- ==== Sys2Proof/Machine/Dispatch.lean ====
section
/-!
DEFINITION. exec: one arm per command, each one direct call of its meaning.
-/

namespace Sys2Proof.Machine

def exec (i : Instr) (s : State) : Host.Outcome State Fault Refusal :=
  match i with
  | .powerUp => Sys2Proof.Machine.execPowerUp s
  | .powerRemoved => Sys2Proof.Machine.execPowerRemoved s
  | .resetNAssert => Sys2Proof.Machine.execResetNAssert s
  | .resetNRelease s1 s2 s3 => Sys2Proof.Machine.execResetNRelease s1 s2 s3 s
  | .selftestEntry puf => Sys2Proof.Machine.execSelftestEntry puf s
  | .pllLock => Sys2Proof.Machine.execPllLock s
  | .pllLockTimeout die => Sys2Proof.Machine.execPllLockTimeout die s
  | .bistComplete fails sideFails => Sys2Proof.Machine.execBistComplete fails sideFails s
  | .hbmTrainingComplete failed => Sys2Proof.Machine.execHbmTrainingComplete failed s
  | .hbmZeroingComplete => Sys2Proof.Machine.execHbmZeroingComplete s
  | .opticalWaitExpiry => Sys2Proof.Machine.execOpticalWaitExpiry s
  | .cxlTrainingTimeout => Sys2Proof.Machine.execCxlTrainingTimeout s
  | .firmwareVerifyComplete => Sys2Proof.Machine.execFirmwareVerifyComplete s
  | .identityDerivationComplete => Sys2Proof.Machine.execIdentityDerivationComplete s
  | .stateReset => Sys2Proof.Machine.execStateReset s
  | .stateResetDelayExpiry => Sys2Proof.Machine.execStateResetDelayExpiry s
  | .stateConfig => Sys2Proof.Machine.execStateConfig s
  | .stateReady floorW => Sys2Proof.Machine.execStateReady floorW s
  | .stateRun => Sys2Proof.Machine.execStateRun s
  | .stateQuench => Sys2Proof.Machine.execStateQuench s
  | .stateHalt => Sys2Proof.Machine.execStateHalt s
  | .load ring entry img poison => Sys2Proof.Machine.execLoad ring entry img poison s
  | .unload ring entry => Sys2Proof.Machine.execUnload ring entry s
  | .stepGo ring entry => Sys2Proof.Machine.execStepGo ring entry s
  | .bulkWrite ring entry data poison => Sys2Proof.Machine.execBulkWrite ring entry data poison s
  | .bulkRead ring entry => Sys2Proof.Machine.execBulkRead ring entry s
  | .migrate ring entry => Sys2Proof.Machine.execMigrate ring entry s
  | .firmware ring entry image helper poison => Sys2Proof.Machine.execFirmware ring entry image helper poison s
  | .nop ring entry => Sys2Proof.Machine.execNop ring entry s
  | .cmdDoorbell ring port value => Sys2Proof.Machine.execCmdDoorbell ring port value s
  | .cplDoorbell ring port value => Sys2Proof.Machine.execCplDoorbell ring port value s
  | .ringControlWrite ring port offset value => Sys2Proof.Machine.execRingControlWrite ring port offset value s
  | .ringReset ring => Sys2Proof.Machine.execRingReset ring s
  | .functionLevelReset port => Sys2Proof.Machine.execFunctionLevelReset port s
  | .commandComplete ring => Sys2Proof.Machine.execCommandComplete ring s
  | .cxlHostTimeout ring => Sys2Proof.Machine.execCxlHostTimeout ring s
  | .hostSnoop port addr => Sys2Proof.Machine.execHostSnoop port addr s
  | .hdmAccess port addr len data => Sys2Proof.Machine.execHdmAccess port addr len data s
  | .mailboxIdentify port => Sys2Proof.Machine.execMailboxIdentify port s
  | .mailboxGetSupportedLogs port => Sys2Proof.Machine.execMailboxGetSupportedLogs port s
  | .perstNAssert port => Sys2Proof.Machine.execPerstNAssert port s
  | .perstNRelease port => Sys2Proof.Machine.execPerstNRelease port s
  | .cxlLinkL0 port width speed cxl => Sys2Proof.Machine.execCxlLinkL0 port width speed cxl s
  | .cxlLinkDown port hostRequested => Sys2Proof.Machine.execCxlLinkDown port hostRequested s
  | .bundleIssue core => Sys2Proof.Machine.execBundleIssue core s
  | .loopEnd core => Sys2Proof.Machine.execLoopEnd core s
  | .weightLoadReady core arr bank => Sys2Proof.Machine.execWeightLoadReady core arr bank s
  | .matrixOpRetire core arr => Sys2Proof.Machine.execMatrixOpRetire core arr s
  | .mvRunRetire core => Sys2Proof.Machine.execMvRunRetire core s
  | .drainComplete core => Sys2Proof.Machine.execDrainComplete core s
  | .xferComplete core => Sys2Proof.Machine.execXferComplete core s
  | .streamStart core ring => Sys2Proof.Machine.execStreamStart core ring s
  | .streamSlotCommit core ring => Sys2Proof.Machine.execStreamSlotCommit core ring s
  | .completionPost core ring => Sys2Proof.Machine.execCompletionPost core ring s
  | .layerDrainComplete core => Sys2Proof.Machine.execLayerDrainComplete core s
  | .samplerRequestStart sampler => Sys2Proof.Machine.execSamplerRequestStart sampler s
  | .tephraBlockComplete sampler => Sys2Proof.Machine.execTephraBlockComplete sampler s
  | .sampleFwd t => Sys2Proof.Machine.execSampleFwd t s
  | .sampleResult t => Sys2Proof.Machine.execSampleResult t s
  | .forwardTimeout sampler tag => Sys2Proof.Machine.execForwardTimeout sampler tag s
  | .gsOperationStart engine => Sys2Proof.Machine.execGsOperationStart engine s
  | .lowerTierResponse id data poison => Sys2Proof.Machine.execLowerTierResponse id data poison s
  | .readDeadlineMiss id => Sys2Proof.Machine.execReadDeadlineMiss id s
  | .tierReadTimeout id => Sys2Proof.Machine.execTierReadTimeout id s
  | .gather t => Sys2Proof.Machine.execGather t s
  | .gatherData t => Sys2Proof.Machine.execGatherData t s
  | .remoteTimeout engine tag => Sys2Proof.Machine.execRemoteTimeout engine tag s
  | .gatherComplete engine op => Sys2Proof.Machine.execGatherComplete engine op s
  | .scatter t => Sys2Proof.Machine.execScatter t s
  | .scatterEnd t => Sys2Proof.Machine.execScatterEnd t s
  | .scatterTargetResult ctx target => Sys2Proof.Machine.execScatterTargetResult ctx target s
  | .tablePublish table value => Sys2Proof.Machine.execTablePublish table value s
  | .refreshPost value => Sys2Proof.Machine.execRefreshPost value s
  | .hotCopyComplete table slot => Sys2Proof.Machine.execHotCopyComplete table slot s
  | .ashScanComplete table => Sys2Proof.Machine.execAshScanComplete table s
  | .refreshWaitLimit ctx => Sys2Proof.Machine.execRefreshWaitLimit ctx s
  | .migrationCopyComplete vpn => Sys2Proof.Machine.execMigrationCopyComplete vpn s
  | .sinterCommand cluster => Sys2Proof.Machine.execSinterCommand cluster s
  | .sinterCommandComplete cluster => Sys2Proof.Machine.execSinterCommandComplete cluster s
  | .xComplete ctx => Sys2Proof.Machine.execXComplete ctx s
  | .contrib t => Sys2Proof.Machine.execContrib t s
  | .result t => Sys2Proof.Machine.execResult t s
  | .maxima t => Sys2Proof.Machine.execMaxima t s
  | .norm t => Sys2Proof.Machine.execNorm t s
  | .oComplete ctx => Sys2Proof.Machine.execOComplete ctx s
  | .ready t => Sys2Proof.Machine.execReady t s
  | .commitWaitLimit ctx => Sys2Proof.Machine.execCommitWaitLimit ctx s
  | .quench ctx => Sys2Proof.Machine.execQuench ctx s
  | .stepDeadline ctx => Sys2Proof.Machine.execStepDeadline ctx s
  | .barrierWaitTimeout ctx => Sys2Proof.Machine.execBarrierWaitTimeout ctx s
  | .begin t => Sys2Proof.Machine.execBegin t s
  | .abort t => Sys2Proof.Machine.execAbort t s
  | .replayDiscardComplete ctx => Sys2Proof.Machine.execReplayDiscardComplete ctx s
  | .halt t => Sys2Proof.Machine.execHalt t s
  | .pipeSlot t => Sys2Proof.Machine.execPipeSlot t s
  | .shard t => Sys2Proof.Machine.execShard t s
  | .notify t => Sys2Proof.Machine.execNotify t s
  | .hold ctx => Sys2Proof.Machine.execHold ctx s
  | .release ctx => Sys2Proof.Machine.execRelease ctx s
  | .contextHalt ctx => Sys2Proof.Machine.execContextHalt ctx s
  | .clearGrant ctx => Sys2Proof.Machine.execClearGrant ctx s
  | .hbmRereadResult source place va stack passed => Sys2Proof.Machine.execHbmRereadResult source place va stack passed s
  | .read t => Sys2Proof.Machine.execRead t s
  | .readData t => Sys2Proof.Machine.execReadData t s
  | .repairComplete ctx readBackOk => Sys2Proof.Machine.execRepairComplete ctx readBackOk s
  | .repairTimeout ctx => Sys2Proof.Machine.execRepairTimeout ctx s
  | .record ctx => Sys2Proof.Machine.execRecord ctx s
  | .restore ctx => Sys2Proof.Machine.execRestore ctx s
  | .digest ctx => Sys2Proof.Machine.execDigest ctx s
  | .verify ctx => Sys2Proof.Machine.execVerify ctx s
  | .checkpointCommandComplete ctx => Sys2Proof.Machine.execCheckpointCommandComplete ctx s
  | .write t => Sys2Proof.Machine.execWrite t s
  | .writeAck t => Sys2Proof.Machine.execWriteAck t s
  | .fastCkptCopyComplete ctx => Sys2Proof.Machine.execFastCkptCopyComplete ctx s
  | .portLightDetect port lanes => Sys2Proof.Machine.execPortLightDetect port lanes s
  | .equaliseComplete port lanes => Sys2Proof.Machine.execEqualiseComplete port lanes s
  | .fecLockComplete port => Sys2Proof.Machine.execFecLockComplete port s
  | .flitInitComplete port => Sys2Proof.Machine.execFlitInitComplete port s
  | .trainingStateTimeout port => Sys2Proof.Machine.execTrainingStateTimeout port s
  | .downTimerExpiry port => Sys2Proof.Machine.execDownTimerExpiry port s
  | .ident port id => Sys2Proof.Machine.execIdent port id s
  | .identTimer port => Sys2Proof.Machine.execIdentTimer port s
  | .keepaliveTimer port => Sys2Proof.Machine.execKeepaliveTimer port s
  | .keepalive port txTime echoTx echoRx rxTime => Sys2Proof.Machine.execKeepalive port txTime echoTx echoRx rxTime s
  | .down port cause => Sys2Proof.Machine.execDown port cause s
  | .linkLostTimer port => Sys2Proof.Machine.execLinkLostTimer port s
  | .flitReceive port f ev => Sys2Proof.Machine.execFlitReceive port f ev s
  | .nakTimer port => Sys2Proof.Machine.execNakTimer port s
  | .laneFailure port ev => Sys2Proof.Machine.execLaneFailure port ev s
  | .spareLaneFailure port lane => Sys2Proof.Machine.execSpareLaneFailure port lane s
  | .laneSwap port failed spare epoch => Sys2Proof.Machine.execLaneSwap port failed spare epoch s
  | .laneSwapTimer port => Sys2Proof.Machine.execLaneSwapTimer port s
  | .epochMarker port epoch => Sys2Proof.Machine.execEpochMarker port epoch s
  | .fibreGroupWrite value => Sys2Proof.Machine.execFibreGroupWrite value s
  | .coordinateWrite ringSize value => Sys2Proof.Machine.execCoordinateWrite ringSize value s
  | .powerSample domains fullDuty zeroDuty => Sys2Proof.Machine.execPowerSample domains fullDuty zeroDuty s
  | .sustainedEvaluation watts => Sys2Proof.Machine.execSustainedEvaluation watts s
  | .operatingPointSwitchDone die => Sys2Proof.Machine.execOperatingPointSwitchDone die s
  | .sensorRead readings => Sys2Proof.Machine.execSensorRead readings s
  | .throttleStepTimer => Sys2Proof.Machine.execThrottleStepTimer s
  | .thermalTrip sensor => Sys2Proof.Machine.execThermalTrip sensor s
  | .railOutOfRange rail above => Sys2Proof.Machine.execRailOutOfRange rail above s
  | .referenceLost ref => Sys2Proof.Machine.execReferenceLost ref s
  | .pllUnlock die => Sys2Proof.Machine.execPllUnlock die s
  | .powerFloorMeasure milliwatts => Sys2Proof.Machine.execPowerFloorMeasure milliwatts s
  | .powerCapWrite value => Sys2Proof.Machine.execPowerCapWrite value s
  | .powerPriorityWrite value => Sys2Proof.Machine.execPowerPriorityWrite value s
  | .fixedFrequencyWrite value => Sys2Proof.Machine.execFixedFrequencyWrite value s
  | .timeBaseSet value => Sys2Proof.Machine.execTimeBaseSet value s
  | .mgmtRead r => Sys2Proof.Machine.execMgmtRead r s
  | .mgmtWrite r => Sys2Proof.Machine.execMgmtWrite r s
  | .readBlock r => Sys2Proof.Machine.execReadBlock r s
  | .writeBlock r => Sys2Proof.Machine.execWriteBlock r s
  | .mgmtAbort r => Sys2Proof.Machine.execMgmtAbort r s
  | .blockSnapshotTimeout requester => Sys2Proof.Machine.execBlockSnapshotTimeout requester s
  | .blockWriteTimeout requester => Sys2Proof.Machine.execBlockWriteTimeout requester s
  | .dictWrite index sub value => Sys2Proof.Machine.execDictWrite index sub value s
  | .heartbeatTimer => Sys2Proof.Machine.execHeartbeatTimer s
  | .plcaBeacon => Sys2Proof.Machine.execPlcaBeacon s
  | .beaconLostTimer => Sys2Proof.Machine.execBeaconLostTimer s
  | .notifySubscribe value => Sys2Proof.Machine.execNotifySubscribe value s
  | .counterClear value => Sys2Proof.Machine.execCounterClear value s
  | .dictImageRead r => Sys2Proof.Machine.execDictImageRead r s
  | .dictImageWrite image => Sys2Proof.Machine.execDictImageWrite image s
  | .firmwareImageWrite image => Sys2Proof.Machine.execFirmwareImageWrite image s
  | .pufHelperWrite value => Sys2Proof.Machine.execPufHelperWrite value s
  | .attestNonce value => Sys2Proof.Machine.execAttestNonce value s
  | .debugKeyHash value => Sys2Proof.Machine.execDebugKeyHash value s
  | .debugChallenge => Sys2Proof.Machine.execDebugChallenge s
  | .debugToken value => Sys2Proof.Machine.execDebugToken value s
  | .debugEnableWrite value => Sys2Proof.Machine.execDebugEnableWrite value s
  | .debugHalt => Sys2Proof.Machine.execDebugHalt s
  | .debugStep => Sys2Proof.Machine.execDebugStep s
  | .debugResume => Sys2Proof.Machine.execDebugResume s
  | .boundaryScan trstN register bits => Sys2Proof.Machine.execBoundaryScan trstN register bits s
  | .scatterComplete engine op => Sys2Proof.Machine.execScatterComplete engine op s
  | .lowerTierWriteComplete id error => Sys2Proof.Machine.execLowerTierWriteComplete id error s
  | .tierRegionUnreachable region => Sys2Proof.Machine.execTierRegionUnreachable region s
  | .configurationRequest port offset value => Sys2Proof.Machine.execConfigurationRequest port offset value s
  | .referenceReturn ref => Sys2Proof.Machine.execReferenceReturn ref s
  | .mgmtFrameDiscard r => Sys2Proof.Machine.execMgmtFrameDiscard r s
  | .laneTestRetryExpiry port => Sys2Proof.Machine.execLaneTestRetryExpiry port s
  | .mgmtTxAttemptsExhausted => Sys2Proof.Machine.execMgmtTxAttemptsExhausted s

end Sys2Proof.Machine
end

