-- ==== Sys2Proof/Machine/Step.lean ====
section
/-!
DEFINITION. step: the command at the front of the queue runs on the state with the queue's rest; on an empty queue the
stored pairs of the dictionary are checked and the time base goes on by 1 ns (log entries 2, 49).
-/

namespace Sys2Proof.Machine

/-- One nanosecond in which no command comes: the stored pairs of a powered device out of reset are checked, and its time base
advances (R554, R580). -/
def idle (s : State) : State := if alive s.m then onM (fun m => timeBy 10 (scrubStore m)) s else s

/-- One step. -/
def step (s : State) : Host.Outcome State Fault Refusal :=
  match s.pending with
  | [] => .next (idle s)
  | c :: rest => exec c { s with pending := rest }

/-- The state with the command that a word spells in front of its queue; no word spells one. -/
def State.withFetchWord (s : State) (nbits w : Nat) : State :=
  match decodeTableWord nbits w with
  | some c => { s with pending := c :: s.pending }
  | none => s

end Sys2Proof.Machine
end

