-- ==== Sys2Proof/Safety.lean ====
section
/-!
DEFINITION. The terms in which statements speak of runs: what a notification may change, which states take which commands, what
kind a command is, and the invariant of the security state.
-/

namespace Sys2Proof.Machine

/-- Only the management port, the counters and what leaves the device differ; the dictionary's stored values and the
subscriptions are the same. This is all that raising a notification can do (R602 to R605). -/
def Told (m m' : Mach) : Prop :=
  m' = { m with mgmt := m'.mgmt, out := m'.out, cnt := m'.cnt } ∧ m'.mgmt.dict = m.mgmt.dict ∧ m'.mgmt.subs = m.mgmt.subs

/-- Only the time base, the power unit, the management port, the counters and what leaves the device differ. -/
def powerOnly (m m' : Mach) : Prop :=
  m' = { m with dev := { m.dev with time10 := m'.dev.time10 }, pwr := m'.pwr, mgmt := m'.mgmt, out := m'.out, cnt := m'.cnt }

/-- The device is in FAULT and its report names a code and a die (R627). -/
def faultedBy (code die : Nat) (m : Mach) : Prop :=
  m.dev.st = .fault ∧ octs m.dev.faultReport 0 2 = code ∧ octs m.dev.faultReport 3 1 = die

/-- The device is powered, out of reset, and not in FAULT. -/
def upAndRunning (m : Mach) : Prop := m.dev.st ≠ .off ∧ m.dev.st ≠ .reset ∧ m.dev.st ≠ .fault

/-- What a counter of the dictionary holds (R613). -/
def counterOf (m : Mach) (index sub : Nat) : Nat := m.cnt.get (dkey index sub) 0

/-- A ring may begin a command with an opcode, and the entry is a correct one for it (R563, R566). -/
def beginsCommand (k op : Nat) (e : List Byte) (s : State) : Prop :=
  ringCan s.m k = true ∧ cplRoom (cmdRing s.m k) = true ∧ entryOk e = true ∧ ceOp e = op

/-- The state once a ring's next entry is fetched. -/
def fetched (k : Nat) (s : State) : State := onM (fetchEntry k) s

/-- R567: `r'` is the cancelled ring `r`: not enabled, no command under way, its bases, sizes, interrupt enable and the port of its last
doorbell as they were; its counts are zero once it owes no completion. -/
def ringCancelled (r r' : CmdRing) : Prop :=
  r'.enable = false ∧ r'.current = none ∧ r'.epoch = r.epoch + 1 ∧
    (r'.cmdBase, r'.cplBase, r'.cmdLog2, r'.cplLog2, r'.irq) = (r.cmdBase, r.cplBase, r.cmdLog2, r.cplLog2, r.irq) ∧
    (r'.served, r'.port) = (r.served, r.port) ∧
    (r'.owed = [] → (r'.produced, r'.consumed, r'.cplProduced, r'.cplConsumed) = (0, 0, 0, 0))

/-- Host addresses that a port's function decodes as octets of the window (R569). -/
def inHdmWindow (m : Mach) (p a n : Nat) : Prop :=
  portServes m p = true ∧ (cxlPort m p).cxl = true ∧ (cxlPort m p).hdmBase ≠ 0 ∧ (cxlPort m p).hdmBase ≤ a ∧
    a + n ≤ (cxlPort m p).hdmBase + hdmBytes m

/-- A code has been raised: the server holds when (R602). -/
def raisedCode (code : Nat) (m : Mach) : Prop := (m.mgmt.lastRaise.find code).isSome

/-- A context stands in HALT with a code and a cause in its failure record (R521, R522). -/
def failedWith (i code cause : Nat) (m : Mach) : Prop :=
  (ctxAt m i).st = .halt ∧ octs (ctxAt m i).failure 0 2 = code ∧ octs (ctxAt m i).failure 2 1 = cause ∧
    octs (ctxAt m i).failure 3 1 = i

/-! ### Requests of the management port -/

/-- A frame reaches the server: on the segment it is intact, for this device and of its EtherType, and the transceiver is
driven; in the tunnel the function is served (R586, R587, R606). -/
def heard (r : Req) (m : Mach) : Prop :=
  match r.via with
  | .seg => mgmtDriven m = true ∧ r.fcsOk = true ∧ r.etherType = dnum m 0x1100 0x01 ∧
      (leVal (slice r.dst 0 6) = macAddr m ∨ leVal (slice r.dst 0 6) = 2 ^ 48 - 1)
  | .mbox p => portServes m p = true

/-- The state once a frame is received: on the segment it is counted (R615). -/
def received (r : Req) (s : State) : State := if onSegment r then onM (count 0x6E00 0x01) s else s

/-- An entry's stored pair, if it has one, agrees (R580). -/
def storedOk (m : Mach) (index sub : Nat) : Prop :=
  ∀ v c, m.mgmt.dict.find (dkey index sub) = some (v, c) → c = cplBytes v

/-- A request of an operation that is heard, well-formed, and not a repetition of the last one kept; its entry is sound. -/
def newRequest (r : Req) (op : Nat) (s : State) : Prop :=
  heard r s.m ∧ reqClass r = op ∧ frameOk (mhead r.payload) r.payload = true ∧
  storedOk s.m (mhead r.payload).index (mhead r.payload).sub ∧
  s.m.mgmt.cache.find? (fun x => x.who == requester r && x.op == (mhead r.payload).op && x.seq == (mhead r.payload).seq) = none

/-- A request is answered with a payload: by a frame to its requester, padded to 46 octets, or in its tunnel (R597, R606). -/
def answered (r : Req) (p : List Byte) (t : State) : Prop :=
  match r.via with
  | .seg => Out.frame (requester r) (p ++ List.replicate (46 - p.length) 0) ∈ t.m.out
  | .mbox port => Out.tunnel port p ∈ t.m.out

/-- The entries whose write is a command, or is taken by another unit. -/
def commandEntries : List (Nat × Nat) :=
  [(0x1100, 0x0C), (0x1100, 0x11), (0x1100, 0x14), (0x1200, 0x01), (0x1200, 0x10), (0x1200, 0x11), (0x3200, 0x07),
   (0x4100, 0x10), (0x4100, 0x11), (0x7000, 0x10), (0x7000, 0x20), (0x7000, 0x22), (0x8000, 0x03), (0x8100, 0x0B), (0xA000, 0x04)]

/-- A write of a whole value passes every check of R592 and is no command. -/
def plainWrite (index sub : Nat) (v : List Byte) (s : State) : Prop :=
  writeAccess s.m.dev.st index sub = 0 ∧ (index, sub) ∉ commandEntries ∧ entryRule s.m index sub v = 0 ∧
  (∃ e, dictEnt index sub = some e ∧ lengthOk e v.length = true ∧ typeOk e.ty v = true) ∧
  ¬(index = 0xA000 ∧ sub = 0x01 ∧ leVal v = 1 ∧ debugAuthorised s.boot = false)

/-- The states in which an entry of access RWQ may be written (R577). -/
def calm (st : DevState) : Prop := st = .config ∨ st = .quench ∨ st = .halt

/-- The state after a write that stores a value and does nothing else: the pair is replaced and the write answered. -/
def wrote (index sub : Nat) (v : List Byte) (s : State) : State := onM (fun m => doneWrite (dput m index sub v)) s

/-- The state after a write that is refused: answered with the abort and counted, nothing else (R593, R597). -/
def refused (code : Nat) (s : State) : State := onM (doneAbort code) s

/-- All work discarded: the state after reset, in a device state, but for what has left the device, the free values taken so
far, and the commands that wait (R44, R618). -/
def discarded (st : DevState) (s : State) : State :=
  { State.reset with
    boot := { State.reset.boot with entropy := s.boot.entropy }
    m := { State.reset.m with dev := { State.reset.m.dev with st := st }, out := s.m.out, freeCtr := s.m.freeCtr }
    pending := s.pending }

/-- The strap bits of StrapStatus: NODE_ID[5:0], BOARD_SLOT[3:0] and MGMT_EN (R619). -/
def strapBits : List Nat := [0, 1, 2, 3, 4, 5, 8, 9, 10, 11, 12]

/-- A core whose issue unit is between bundles of its resident code, in a cycle that is not gated: no debug halt, no breakpoint hit, no layer
drain, no `sc.end`, no loop exhausted, no taken transfer whose cycle is still to come, no word of bad parity, no debug instruction that
waits for a side port; the step number agrees with its complement (R263, R269, R286, R287, R307, R316, R503, R537). -/
def betweenBundles (m : Mach) (k : Nat) : Prop :=
  m.cores.has k = true ∧ issues m (coreAt m k) = true ∧ (coreAt m k).dbg = 0 ∧ (coreAt m k).st = .running ∧
    (coreAt m k).inRing = false ∧ (coreAt m k).dbgBreak ≠ (coreAt m k).pc ∧ (coreAt m k).loops.all (fun l => l.left != 0) = true ∧
    gate m k = 0 ∧ (coreAt m k).bubble = false ∧ (coreAt m k).par = [] ∧ (coreAt m k).dbgOps = [] ∧
    stepPairOk (ctxAt m (coreAt m k).ctx) = true

/-- The registers that programs see are the same on two states of a core. -/
def sameRegs (c d : Core) : Prop := d.s = c.s ∧ d.a = c.a ∧ d.p = c.p ∧ d.v = c.v

/-- A core's next bundle holds a word in its S slot and nothing in its other slots; no write of the V slot is under way. -/
def scalarOnly (c : Core) (w : Nat) : Prop :=
  slotWord (nextBundle c) 0 = w ∧ slotWord (nextBundle c) 1 = 0 ∧ slotWord (nextBundle c) 2 = 0 ∧ slotWord (nextBundle c) 3 = 0 ∧
    c.vpend = []

/-- A counter of the dictionary has gone up by one, up to its largest value (R613). -/
def countedOnce (index sub : Nat) (m m' : Mach) : Prop :=
  counterOf m' index sub = min (2 ^ 64 - 1) (counterOf m index sub + 1)

/-- A completion ring can take a unit's entry at once (R384, R387). -/
def ringTakes (p : Poster) (r : Ring) : Prop := ringOk r = true ∧ ringClassOk p r = true ∧ r.waiting = [] ∧ ringRoom r = true

/-- Memory differs only in access flags, translation caches and the pointers of grant points (R54, R65, R398). -/
def onlyAccess (m m' : Mem) : Prop := m' = { m with touched := m'.touched, xlate := m'.xlate, grants := m'.grants }

/-- Memory differs only in that, in the octets that it holds, in the blocks that a migration has to copy again, and in which bursts fail
their CRC. -/
def onlyOctets (m m' : Mem) : Prop :=
  m' = { m with touched := m'.touched, xlate := m'.xlate, grants := m'.grants, phys := m'.phys, migs := m'.migs, failing := m'.failing }

/-- Lit ports receive: the device is not in OFF, RESET, SELFTEST or FAULT (R428). -/
def listening (m : Mach) : Prop := m.dev.st ≠ .off ∧ m.dev.st ≠ .reset ∧ m.dev.st ≠ .selftest ∧ m.dev.st ≠ .fault

/-- A context's step number can be used: it agrees with its complement, or the context is in HALT, where nothing uses it (R503, R516). -/
def stepSound (m : Mach) (i : Nat) : Prop := (ctxAt m i).st = .halt ∨ stepPairOk (ctxAt m i) = true

/-- A transaction reaches a context: its tag is that of the loaded context, its step and replay numbers are the present ones
(R425, R494, R503). -/
def reaches (t : Txn) (i : Nat) (m : Mach) : Prop :=
  listening m ∧ ctxOfTag m t.jobTag = some i ∧ sameTag (ctxAt m i) t = true ∧ stepSound m i

/-- A context is in a pass and has neither sent READY nor been aborted: errors are before commit (R23). -/
def beforeReady (m : Mach) (i : Nat) : Prop :=
  i < 16 ∧ inPass (ctxAt m i) = true ∧ (ctxAt m i).pass.sentReady = false ∧ (ctxAt m i).pass.committed = false

/-- The pass of a context has been aborted for an error: the code is kept, the cause is ERROR, and every other device of the
group has been sent ABORT, where it has not been sent one for an error of the pass before (R23, R499; log entry 98). -/
def abortedFor (i code : Nat) (m m' : Mach) : Prop :=
  (ctxAt m' i).st = .run ∧ (ctxAt m' i).pass.aborted = true ∧ (ctxAt m' i).pass.errCode = code ∧ tbit (ctxAt m' i).pass.causes 0 = true ∧
    raisedCode code m' ∧
    (tbit (ctxAt m i).pass.sentCauses 0 = false → ∀ d ∈ othersOf m (ctxAt m i), ∃ x, Out.txn x ∈ m'.out ∧ x.typ = 0x0A ∧
      x.dest = d ∧ x.jobTag = (ctxAt m i).jobTag ∧ x.detail = 3 * 2 ^ 60 + 2 ^ 52)

/-- A read that its engine sends again when it does not answer: of a recopy, a HOT copy, a scan or a digest (log entry 79). -/
def sentAgain : Waiter → Bool
  | .recopy _ | .hot _ _ | .scan _ | .digest _ => true
  | _ => false

/-- Memory differs by octets written at a VA, and in the translation caches. -/
def putAt (va : Nat) (bs : List Byte) (m m' : Mem) : Prop := m' = { vput va bs m with xlate := m'.xlate }

/-- Word k of a context's list of notices (R498), and the ring that it names. -/
def noticeWord (c : Ctx) (x : Mem) (k : Nat) : List Byte := vget x (c.noticeVa + 4 * k) 4
def noticeRing (c : Ctx) (x : Mem) (m : Mach) (k : Nat) : Ring :=
  ringAt (coreAt m (octs (noticeWord c x k) 0 2)) (octs (noticeWord c x k) 2 1)

/-- The list of notices can be read, and its rings' counts agree with their complements. -/
def noticesSound (m : Mach) (i : Nat) : Prop :=
  readCheck m.mem (ctxAt m i).noticeVa (4 * (ctxAt m i).noticeCount) = 0 ∧
    ∀ k, k < (ctxAt m i).noticeCount → ringOk (noticeRing (ctxAt m i) m.mem m k) = true

/-- The norm record, where one is to be written, can be written and does not lie in the list of notices. -/
def normApart (m : Mach) (i : Nat) : Prop :=
  let g := (ctxAt m i).gey
  g.calibPass = false → g.header.v ≠ 0 → rightCheck m.mem i (chNormVa g) 64 = 0 ∧
    ∀ k, k < (ctxAt m i).noticeCount → ∀ bs : List Byte, bs.length = 64 →
      noticeWord (ctxAt m i) (vput (chNormVa g) bs m.mem) k = noticeWord (ctxAt m i) m.mem k

/-- A transaction of a kind has been handed to the torus. -/
def hasSent (m : Mach) (typ dest : Nat) (body : Body) : Prop :=
  ∃ x, Out.txn x ∈ m.out ∧ x.typ = typ ∧ x.dest = dest ∧ x.body = body

/-- A management flit has left a port, with MgmtType `typ` and its content behind it (R413, R414, R429), and nothing of the torus but a
Nak that waited for a flit differs. -/
def sentMgmt (p typ : Nat) (content : List Byte) (m m' : Mach) : Prop :=
  m'.out = m.out ++ [.flit p ⟨mgmtHeader (portAt m p), flitRest (leBytes 2 typ ++ content)⟩] ∧
    m'.tor = { m.tor with ports := m.tor.ports.set p { portAt m p with nakDue := false } }

/-- The transaction that a row of the torus carries. -/
def torusTxn : Instr → Option Txn
  | .sampleFwd t | .sampleResult t | .gather t | .gatherData t | .scatter t | .scatterEnd t | .contrib t | .result t | .maxima t
  | .norm t | .ready t | .begin t | .abort t | .halt t | .pipeSlot t | .shard t | .notify t | .read t | .readData t | .write t
  | .writeAck t => some t
  | _ => none

/-- The invariant of the security state (R632 to R644): a hash that nothing has locked is zero; there is no identity without accepted
firmware, and a valid one's public key is that of its secret; without accepted firmware no digest stands; an owner's authorisation
needs an owner's hash; a challenge has 32 octets. -/
def SecInv (b : Boot) : Prop :=
  (b.keyLocked = false → b.keyHash = List.replicate 32 0) ∧
  b.identityStatus ≤ 3 ∧
  (b.identityStatus = 0 → b.identityKey = List.replicate 57 0) ∧
  (b.identityStatus = 1 ∨ b.identityStatus = 2 → b.identityKey = Ed.publicKey (identityPriv b)) ∧
  (b.identityStatus ≠ 0 → b.fwAccepted = true) ∧
  (b.fwAccepted = false → b.fwDigest = List.replicate 64 0 ∧ b.fwVersion = 0) ∧
  b.keyKind ≤ 2 ∧
  (b.keyKind = 2 → b.keyLocked = true) ∧
  (∀ c, b.challenge = some c → c.length = 32)

/-- A transfer has left its core's queue, its completion entry stands in the ring, and the core's registers and program counter are as
they were (R303). -/
def transferPosted (k ring len : Nat) (rest : List TCmd) (c : Core) (m : Mach) : Prop :=
  (coreAt m k).queue = rest ∧ sameRegs c (coreAt m k) ∧ (coreAt m k).pc = c.pc ∧
    (ringAt (coreAt m k) ring).entries = (ringAt c ring).entries ++ [5 * 2 ^ 60 + ring * 2 ^ 57 + len]

end Sys2Proof.Machine
end

