-- ==== Sys2Proof/Certificates/Slice0/Obligations.lean ====
section
/-!
DEFINITION. The statements: what the rules of the manual say the commands do, in the model's terms.
-/

open Sys2Proof Sys2Proof.Machine

/-! ## Power, heat and clocks (16) -/

/-- R546, R534, R538: a sample takes its place among those of the last 10 ms, sets every die's ceiling, and every die runs under the
least of its sustained duty, its throttle duty and that ceiling.
R539, R540, R544: an evaluation takes the average of the samples of the last 10 ms; above the cap the first domain in the order of PowerPriority that is not at its floor
steps down once; below the cap by less than 200 W nothing moves, and the count of evaluations below it starts anew.
Where the manual leaves a choice, the model's is stated (log entry 45). -/
def Obligations.SampleAndEvaluationSetPower : Prop :=
  (∀ (s : State) (domains : List Nat) (fullDuty zeroDuty : Nat), alive s.m = true →
    ∃ t, exec (.powerSample domains fullDuty zeroDuty) s = .next t ∧
      let total := domains.getD 0 0 + domains.getD 1 0 + domains.getD 2 0 + domains.getD 3 0
      let po := total - domains.getD 0 0
      t.m.pwr.samples = (total :: s.m.pwr.samples).take 10000 ∧
      (∀ k, k < 16 →
        (∀ c, peakCeiling (peakBudget t.m.pwr.samples) po fullDuty = some c → (t.m.pwr.dies.getD k {}).ceiling = c) ∧
        (t.m.pwr.dies.getD k {}).ceiling ≤ 64 ∧
        (t.m.pwr.dies.getD k {}).duty =
          min (min s.m.pwr.susDuty (s.m.pwr.dies.getD k {}).thDuty) (t.m.pwr.dies.getD k {}).ceiling) ∧
      (peakCeiling (peakBudget t.m.pwr.samples) po fullDuty ≠ none → t.m.freeCtr = s.m.freeCtr) ∧
      powerOnly { s.m with freeCtr := t.m.freeCtr } t.m) ∧
  (∀ (s : State) (given : Nat), upAndRunning s.m →
    let watts := measuredW s.m given
    ∃ t, exec (.sustainedEvaluation given) s = .next t ∧ t.m.pwr.avg = watts ∧ powerOnly s.m t.m ∧
      (∀ k, dnum s.m 0x3000 0x01 < watts → (priorityOrder s.m).find? (fun d => !atFloor s.m d) = some k →
        t.m.pwr.susPoint = (stepDown k s.m).pwr.susPoint ∧ t.m.pwr.susDuty = (stepDown k s.m).pwr.susDuty ∧
        t.m.pwr.memRate = (stepDown k s.m).pwr.memRate ∧ t.m.pwr.linkRate = (stepDown k s.m).pwr.linkRate) ∧
      (watts ≤ dnum s.m 0x3000 0x01 → dnum s.m 0x3000 0x01 < watts + 200 →
        t.m.pwr.susPoint = s.m.pwr.susPoint ∧ t.m.pwr.susDuty = s.m.pwr.susDuty ∧ t.m.pwr.memRate = s.m.pwr.memRate ∧
        t.m.pwr.linkRate = s.m.pwr.linkRate ∧ t.m.pwr.under = 0))

/-- R536, R543, R547, R548: a die that has reached its wanted point issues again; PowerFloor is the measurement rounded up to
watts; a sensor takes its reading, and one that fails reads as the throttle temperature; a throttled unit steps down from its present
point, duty or rate.
Where the manual leaves a choice, the model's is stated (log entries 1, 45). -/
def Obligations.PowerTimersAct : Prop :=
  (∀ (s : State) (die : Nat), alive s.m = true → (s.m.pwr.dies.getD die {}).switching = true →
    wantedPoint s.m (s.m.pwr.dies.getD die {}) = (s.m.pwr.dies.getD die {}).point →
    ∃ t, exec (.operatingPointSwitchDone die) s = .next t ∧ (t.m.pwr.dies.getD die {}).switching = false ∧
      (t.m.pwr.dies.getD die {}).point = (s.m.pwr.dies.getD die {}).point ∧ powerOnly s.m t.m) ∧
  (∀ (s : State) (mw : Nat), notifies s.m.dev.st = true → s.m.dev.st ≠ .fault → (s.m.pwr.due.find 4).isSome = true →
    s.m.ctxs.list.all (fun c => c.st != .run) = true →
    ∃ t, exec (.powerFloorMeasure mw) s = .next t ∧ t.m.pwr.floor = (mw + 999) / 1000 ∧ powerOnly s.m t.m) ∧
  (∀ (s : State) (l : List (Option Int)), alive s.m = true →
    ∃ t, exec (.sensorRead l) s = .next t ∧ powerOnly s.m t.m ∧
      ∀ k, k < 120 → k ∉ s.m.pwr.failed →
        (∀ v, l.getD k none = some v → -640 ≤ v → v ≤ 2400 → t.m.pwr.readings.getD k 0 = v) ∧
        (l.getD k none = none ∨ (∃ v, l.getD k none = some v ∧ (v < -640 ∨ 2400 < v)) →
          t.m.pwr.readings.getD k 0 = 16 * (dnum s.m 0x3100 0x01 : Int) ∧ k ∈ t.m.pwr.failed)) ∧
  (∀ (s : State) (u : Nat), alive s.m = true → s.m.pwr.throttled = [u] → s.m.pwr.releasing = [] → 16 ≤ u → u < 64 →
    ∃ t, exec .throttleStepTimer s = .next t ∧ powerOnly s.m t.m ∧
      t.m.pwr.thRate.getD u 16 = max (if 24 ≤ u ∧ u < 32 then 8 else 4) (unitRate s.m u - 1)) ∧
  (∀ (s : State) (u : Nat), alive s.m = true → s.m.pwr.throttled = [u] → s.m.pwr.releasing = [] → u < 16 →
    let d := s.m.pwr.dies.getD u {}
    ∃ t, exec .throttleStepTimer s = .next t ∧ powerOnly s.m t.m ∧
      (t.m.pwr.dies.getD u {}).thPoint = min d.point d.thPoint - 1 ∧
      (t.m.pwr.dies.getD u {}).thDuty = (if min d.point d.thPoint = 0 then max 4 (min d.duty d.thDuty - 4) else d.thDuty))

/-- R549, R553, R557, R627: the trip, a rail out of its range, a PLL out of lock with its reference present and the loss of the
25 MHz reference each take a running device to FAULT, with the cause and the die in FaultReport; a trip in FAULT is raised too, and
the report stays.
R553: the loss of the 156.25 MHz reference takes every lit port to DOWN, that of the 100 MHz reference takes both CXL ports
out of L0; each clears its bit of RefStatus, and its return sets the bit.
Where the manual leaves a choice, the model's is stated (log entries 45, 46, 47). -/
def Obligations.DeviceFaultsAndClocksReport : Prop :=
  ((∀ (s : State) (k : Nat), upAndRunning s.m → k < 120 →
    ∃ t, exec (.thermalTrip k) s = .next t ∧ t.m.dev.thermTrip = true ∧
      faultedBy 0x0C04 (if sensorUnit k < 32 then sensorUnit k else 16 + (sensorUnit k - 32) / 4) t.m ∧ t.m.mem = s.m.mem ∧
        t.boot = s.boot) ∧
  (∀ (s : State) (k : Nat), s.m.dev.st = .fault → k < 120 →
    ∃ t, exec (.thermalTrip k) s = .next t ∧ t.m.dev = { s.m.dev with thermTrip := true } ∧ raisedCode 0x0C04 t.m ∧ t.m.mem = s.m.mem ∧
      t.boot = s.boot) ∧
  (∀ (s : State) (k : Nat) (above : Bool), upAndRunning s.m → k < 8 →
    ∃ t, exec (.railOutOfRange k above) s = .next t ∧ faultedBy 0x0C05 0xFF t.m ∧
      tbit (t.m.pwr.rails.getD k 1) 0 = false ∧ tbit (t.m.pwr.rails.getD k 1) (if above then 2 else 1) = true ∧ t.m.mem = s.m.mem ∧
        t.boot = s.boot) ∧
  (∀ (s : State) (die : Nat), upAndRunning s.m → die < 32 →
    tbit s.m.pwr.refs (if 24 ≤ die then 1 else 0) = true →
    ∃ t, exec (.pllUnlock die) s = .next t ∧ faultedBy 0x0C07 die t.m ∧ t.m.mem = s.m.mem ∧ t.boot = s.boot) ∧
  (∀ s : State, upAndRunning s.m → tbit s.m.pwr.refs 0 = true →
    ∃ t, exec (.referenceLost 0) s = .next t ∧ faultedBy 0x0C06 0xFF t.m ∧ tbit t.m.pwr.refs 0 = false ∧ t.m.mem = s.m.mem ∧
      t.boot = s.boot)) ∧
  ((∀ s : State, upAndRunning s.m → tbit s.m.pwr.refs 1 = true →
    ∃ t, exec (.referenceLost 1) s = .next t ∧ tbit t.m.pwr.refs 1 = false ∧ t.m.mem = s.m.mem ∧ t.boot = s.boot ∧
      (notifies s.m.dev.st = true → raisedCode 0x0C06 t.m) ∧
      ∀ p, p < 8 → (portAt t.m p).st = (if (portAt s.m p).st = 0 then 0 else 7)) ∧
  (∀ s : State, upAndRunning s.m → tbit s.m.pwr.refs 2 = true →
    ∃ t, exec (.referenceLost 2) s = .next t ∧ tbit t.m.pwr.refs 2 = false ∧ t.boot = s.boot ∧
      ∀ p, p < 2 → (cxlPort t.m p).l0 = false ∧ (cxlPort t.m p).training = false) ∧
  (∀ (s : State) (r : Nat), r < 3 → tbit s.m.pwr.refs r = false →
    ∃ t, exec (.referenceReturn r) s = .next t ∧ tbit t.m.pwr.refs r = true ∧ t.m.dev = s.m.dev ∧ t.m.mem = s.m.mem))

/-! ## The CXL attachment (17) -/

/-- R562, R563, R566, R575: a completion entry is 16 octets at the ring's next completion place, base + (count mod size) × 16: Tag, Status,
Result. It is counted, a Status other than 0 in the refused count too, and nothing but the ring's completion count, the counters and what
leaves the device differs.
R569: one whose place lies in the HDM window is written in HBM, after a snoop of its line.
Where the manual leaves a choice, the model's is stated (log entry 40). -/
def Obligations.CompletionEntryWritten : Prop :=
  ∀ (m : Mach) (k tag status result : Nat), k < 4 →
    let r := cmdRing m k
    let t := writeCompletion k tag status result m
    let a := r.cplBase + r.cplProduced % 2 ^ r.cplLog2 * 16
    let entry := leBytes 4 tag ++ leBytes 4 status ++ leBytes 8 result
    (hdmOffset m a = none → Out.hostWrite a entry ∈ t.out ∧ t.mem = m.mem) ∧
    (∀ off, hdmOffset m a = some off → Out.backInvalidate (a / 64 * 64) ∈ t.out ∧
      (m.mem.wf = true → off % 16 = 0 → hdmGet t off 16 = entry)) ∧
    cmdRing t k = { r with cplProduced := (r.cplProduced + 1) % 2 ^ 32 } ∧
    (∀ j, j ≠ k → cmdRing t j = cmdRing m j) ∧
    counterOf t 0x6D00 0x01 = min (2 ^ 64 - 1) (counterOf m 0x6D00 0x01 + 1) ∧
    counterOf t 0x6D00 0x02 = (if status = 0 then counterOf m 0x6D00 0x02 else min (2 ^ 64 - 1) (counterOf m 0x6D00 0x02 + 1)) ∧
    t = { m with cxl := { m.cxl with rings := t.cxl.rings }, cnt := t.cnt, out := t.out,
                 mem := { m.mem with phys := t.mem.phys, touched := t.mem.touched } }

/-- R562, R563, R564, R566, R40, R73: the commands that need no time. A command that the ring may begin is fetched from the host at its
entry's place, which moves the ring's consumer count and the turn; it has its effect, and completes
in the same row: NOP has none; LOAD reads its image from the host; LOAD of an image that passes the loader's checks takes the loader's machine, and of one that does not,
changes nothing;
UNLOAD frees the
context; STEP_GO adds to the grant of a HELD context; MIGRATE lists the page for the next quench.
Where the manual leaves a choice, the model's is stated (log entries 8, 38, 40). -/
def Obligations.RingCommandsComplete : Prop :=
  (∀ (s : State) (k : Nat), k < 4 →
    let r := cmdRing s.m k
    let a := r.cmdBase + r.consumed % 2 ^ r.cmdLog2 * 64
    cmdRing (fetched k s).m k = { r with consumed := (r.consumed + 1) % 2 ^ 32 } ∧ (fetched k s).m.cxl.turn = (k + 1) % 4 ∧
      (hdmOffset s.m a = none → (fetched k s).m.out = s.m.out ++ [.hostRead a 64] ∧ (fetched k s).m.mem = s.m.mem)) ∧
  (∀ (s : State) (k : Nat) (e : List Byte), beginsCommand k 8 e s →
    exec (.nop k e) s = .next (onM (writeCompletion k (ceTag e) 0 0) (fetched k s))) ∧
  (∀ (s : State) (k : Nat) (e : List Byte) (img : JobImage) (m' : Mach) (hw : Nat), beginsCommand k 1 e s →
    s.m.dev.st = .ready ∨ s.m.dev.st = .run ∨ s.m.dev.st = .quench → loadImage img (beforeLoad e (fetched k s).m) = .ok (m', hw) →
    exec (.load k e img false) s =
      .next { s with m := writeCompletion k (ceTag e) 0 hw { m' with mem := { m'.mem with grants := [] } } }) ∧
  (∀ (s : State) (k : Nat) (e : List Byte) (img : JobImage) (code : Nat), beginsCommand k 1 e s →
    s.m.dev.st = .ready ∨ s.m.dev.st = .run ∨ s.m.dev.st = .quench → loadImage img (beforeLoad e (fetched k s).m) = .error code →
    exec (.load k e img false) s = .next (onM (fun m => writeCompletion k (ceTag e) code 0 (beforeLoad e m)) (fetched k s))) ∧
  (∀ (s : State) (k : Nat) (e : List Byte) (img : JobImage), beginsCommand k 1 e s →
    s.m.dev.st ≠ .ready → s.m.dev.st ≠ .run → s.m.dev.st ≠ .quench →
    exec (.load k e img false) s = .next (onM (writeCompletion k (ceTag e) 0x0D200002 0) (fetched k s))) ∧
  (∀ (m : Mach) (e : List Byte), windowFree m (ceHost e) (ceLen e) = true → tableBad m = false →
    beforeLoad e m = { m with out := m.out ++ (hostLines (ceHost e) (ceLen e)).map (fun a => Out.hostRead a 64) }) ∧
  (∀ (s : State) (k : Nat) (e : List Byte), beginsCommand k 2 e s → ceCtx e < 16 →
    (ctxAt s.m (ceCtx e)).st = .idle ∨ (ctxAt s.m (ceCtx e)).st = .held ∨ (ctxAt s.m (ceCtx e)).st = .halt →
    ∃ t, exec (.unload k e) s = .next t ∧ (ctxAt t.m (ceCtx e)).st = .free ∧ (ctxAt t.m (ceCtx e)).grant = 0 ∧
      t.boot = s.boot ∧ t.m = writeCompletion k (ceTag e) 0 0 (unloadCtx (ceCtx e) (fetched k s).m)) ∧
  (∀ (s : State) (k : Nat) (e : List Byte), beginsCommand k 3 e s → ceCtx e < 16 → (ctxAt s.m (ceCtx e)).st = .held →
    (ctxAt s.m (ceCtx e)).grant + ceArg e % 2 ^ 32 < 2 ^ 32 →
    exec (.stepGo k e) s = .next (onM (fun m => writeCompletion k (ceTag e) 0 0
      (modCtx (ceCtx e) (fun c => { c with grant := c.grant + ceArg e % 2 ^ 32 }) m)) (fetched k s))) ∧
  (∀ (s : State) (k : Nat) (e : List Byte) (v : Nat), beginsCommand k 6 e s → ceArg e % 4 ≠ 3 →
    objAt s.m.mem (ceVa e) = some v → ceVa e < (objSpan v).2 → loaded (ctxAt s.m (oCtx v)) = true → oPolicy v = 4 →
    s.m.mem.migs.all (fun g => g.vpn != vpnOf (ceVa e)) = true → pageCheck s.m.mem 16 (vpnOf (ceVa e)) = none →
    exec (.migrate k e) s = .next (onM (fun m => writeCompletion k (ceTag e) 0 0
      (onMem (fun x => { x with hostMig := x.hostMig ++ [(vpnOf (ceVa e), ceArg e % 4)] }) m)) (fetched k s)))

/-- R565, R631, R566: the commands that take time. BULK_WRITE, BULK_READ and FIRMWARE, where nothing refuses them, are under way
in their ring after their row; FIRMWARE's image waits for verification. COMMAND_COMPLETE carries a bulk copy out and completes
the command: its octets come from and go to the host, and those of lower tiers pass their regions' ports (R560); a copy that may not run
any more waits.
R574: a host read that is not answered within 50 ms completes the bulk copy under way, or else the ring's next command, with
CMD_HOST_ERROR.
Where the manual leaves a choice, the model's is stated (log entries 1, 40, 51). -/
def Obligations.TimedCommandsRun : Prop :=
  ((∀ (s : State) (k : Nat) (e data : List Byte), beginsCommand k 4 e s → bulkCheck true e (fetched k s).m = .ok () →
    ∃ t, exec (.bulkWrite k e data false) s = .next t ∧ t.m.mem = (fetched k s).m.mem ∧
      (cmdRing t.m k).current = some ⟨4, ceTag e, 0, 0, some (.write (ceHost e) (ceVa e) (slice data 0 (ceLen e))), false⟩) ∧
  (∀ (s : State) (k : Nat) (e : List Byte), beginsCommand k 5 e s → bulkCheck false e (fetched k s).m = .ok () →
    ∃ t, exec (.bulkRead k e) s = .next t ∧ t.m.mem = (fetched k s).m.mem ∧
      (cmdRing t.m k).current = some ⟨5, ceTag e, 0, 0, some (.read (ceHost e) (ceVa e) (ceLen e)), false⟩) ∧
  (∀ (s : State) (k : Nat) (e image helper : List Byte), beginsCommand k 7 e s → s.m.dev.st = .preboot → s.boot.fwAccepted = false →
    ∃ t, exec (.firmware k e image helper false) s = .next t ∧
      (cmdRing t.m k).current = some ⟨7, ceTag e, 0, 0, none, false⟩ ∧
      (∃ w, t.boot.waiting = s.boot.waiting ++ [w] ∧ w.bytes = slice image 0 (ceLen e) ∧ w.path = 1 + (cmdRing s.m k).port) ∧
      t.boot.helper = (if ceArg e = 0 then s.boot.helper else some (slice helper 0 4096))) ∧
  (∀ (s : State) (k : Nat) (c : RingCmd) (host va : Nat) (data : List Byte), k < 4 → (cmdRing s.m k).current = some c →
    c.bulk = some (.write host va data) → bulkMay (.write host va data) s.m = true → windowFree s.m host data.length = true →
    data.length % 64 = 0 → cplRoom (cmdRing s.m k) = true → anyPort s.m = true →
    hdmOffset s.m (cplPlace (cmdRing s.m k) (cmdRing s.m k).cplProduced) = none →
    ∃ t, exec (.commandComplete k) s = .next t ∧ (cmdRing t.m k).current = none ∧
      t.m.mem = { vput va data s.m.mem with nextId := t.m.mem.nextId } ∧
      (∀ a ∈ hostLines host data.length, Out.hostRead a 64 ∈ t.m.out) ∧
      (∀ x ∈ bulkLow s.m va data.length, ∃ id port at_ bs, Out.tierWrite id port at_ bs ∈ t.m.out ∧ bs.length = x.2 ∧
        port = (regionAt s.m (frameRegion (pageTier s.m.mem x.1).2)).port) ∧
      (cmdRing t.m k).cplProduced = ((cmdRing s.m k).cplProduced + 1) % 2 ^ 32) ∧
  (∀ (s : State) (k : Nat) (c : RingCmd) (host va n : Nat), k < 4 → (cmdRing s.m k).current = some c →
    c.bulk = some (.read host va n) → bulkMay (.read host va n) s.m = true → windowFree s.m host n = true →
    cplRoom (cmdRing s.m k) = true → anyPort s.m = true →
    hdmOffset s.m (cplPlace (cmdRing s.m k) (cmdRing s.m k).cplProduced) = none →
    ∃ t, exec (.commandComplete k) s = .next t ∧ (cmdRing t.m k).current = none ∧
      Out.hostWrite host (bulkBytes s.m va n) ∈ t.m.out ∧ (∀ a, vbyte t.m.mem a = vbyte s.m.mem a) ∧
      (∀ x ∈ bulkLow s.m va n, ∃ id port at_, Out.tierRead id port at_ x.2 ∈ t.m.out ∧
        port = (regionAt s.m (frameRegion (pageTier s.m.mem x.1).2)).port) ∧
      (cmdRing t.m k).cplProduced = ((cmdRing s.m k).cplProduced + 1) % 2 ^ 32) ∧
  (∀ (s : State) (k : Nat) (c : RingCmd) (b : Bulk), (cmdRing s.m k).current = some c → c.ready = false →
    c.bulk = some b → bulkMay b s.m = false → exec (.commandComplete k) s = .next s)) ∧
  (∀ (s : State) (k : Nat) (c : RingCmd) (host va : Nat) (data : List Byte), k < 4 → (cmdRing s.m k).current = some c →
    c.bulk = some (.write host va data) → cplRoom (cmdRing s.m k) = true → anyPort s.m = true →
    hdmOffset s.m (cplPlace (cmdRing s.m k) (cmdRing s.m k).cplProduced) = none →
    ∃ t, exec (.cxlHostTimeout k) s = .next t ∧ (cmdRing t.m k).current = none ∧ t.m.ctxs = s.m.ctxs ∧ t.boot = s.boot ∧
      Out.hostWrite (cplPlace (cmdRing s.m k) (cmdRing s.m k).cplProduced)
        (leBytes 4 c.tag ++ leBytes 4 0x0D200005 ++ leBytes 8 c.result) ∈ t.m.out) ∧
  (∀ (s : State) (k : Nat), ringCan s.m k = true → cplRoom (cmdRing s.m k) = true →
    hdmOffset s.m (cmdPlace (cmdRing s.m k) (cmdRing s.m k).consumed) = none →
    hdmOffset s.m (cplPlace (cmdRing s.m k) (cmdRing s.m k).cplProduced) = none →
    ∃ t, exec (.cxlHostTimeout k) s = .next t ∧
      (cmdRing t.m k).consumed = ((cmdRing s.m k).consumed + 1) % 2 ^ 32 ∧
      (cmdRing t.m k).cplProduced = ((cmdRing s.m k).cplProduced + 1) % 2 ^ 32 ∧
      (∃ at_ tag, Out.hostWrite at_ (leBytes 4 tag ++ leBytes 4 0x0D200005 ++ leBytes 8 0) ∈ t.m.out) ∧
      t.m.mem = s.m.mem ∧ t.m.ctxs = s.m.ctxs ∧ t.boot = s.boot)

/-- R561, R562, R567: a doorbell with complementary halves moves its count, one without changes nothing and is counted;
RingControl is taken while Enable is 0, and so is a write that clears Enable at any time; the bases are 4 KiB aligned; a reset of the ring
or of the function it was last served on clears Enable and, once the completions it owes are written, its counts, and nothing else of the
ring; a command that is under way then completes with CMD_CANCELLED where its completion has room; no context notices.
Where the manual leaves a choice, the model's is stated (log entry 40). -/
def Obligations.RingRegistersAct : Prop :=
  (∀ (s : State) (k p v : Nat), portServes s.m p = true → k < 4 → doorbellOk v = true →
    ∃ t, exec (.cmdDoorbell k p v) s = .next t ∧ t = onM (setCmdRing k { cmdRing s.m k with produced := v % 2 ^ 32, port := p, served :=
      true }) s) ∧
  (∀ (s : State) (k p v : Nat), portServes s.m p = true → k < 4 → doorbellOk v = false →
    exec (.cmdDoorbell k p v) s = .next (onM (count 0x6D00 0x04) s) ∧
    exec (.cplDoorbell k p v) s = .next (onM (count 0x6D00 0x04) s)) ∧
  (∀ (s : State) (k p v : Nat), portServes s.m p = true → k < 4 → doorbellOk v = true → (cmdRing s.m k).current = none →
    (cmdRing s.m k).owed = [] →
    exec (.cplDoorbell k p v) s = .next (onM (setCmdRing k { cmdRing s.m k with cplConsumed := v % 2 ^ 32 }) s)) ∧
  (∀ (s : State) (k p v : Nat), portServes s.m p = true → k < 4 → (cmdRing s.m k).enable = false → tbit v 30 = false →
    4 ≤ fld v 23 20 → 4 ≤ fld v 19 16 →
    exec (.ringControlWrite k p 0 v) s = .next (onM (setCmdRing k { cmdRing s.m k with
      cmdLog2 := fld v 23 20, cplLog2 := fld v 19 16, enable := tbit v 31, irq := tbit v 15 }) s)) ∧
  (∀ (s : State) (k p v : Nat), portServes s.m p = true → k < 4 → tbit v 30 = false → tbit v 31 = false →
    ∃ t, exec (.ringControlWrite k p 0 v) s = .next t ∧ (cmdRing t.m k).enable = false ∧ (cmdRing t.m k).irq = tbit v 15) ∧
  (∀ (s : State) (k p v : Nat), portServes s.m p = true → k < 4 → (cmdRing s.m k).enable = true → tbit v 30 = false → tbit v 31 = true →
    ∃ t, exec (.ringControlWrite k p 0 v) s = .next t ∧ cmdRing t.m k = cmdRing s.m k) ∧
  (∀ (s : State) (k p v : Nat), portServes s.m p = true → k < 4 → v < 2 ^ 64 → v % 4096 = 0 →
    exec (.ringControlWrite k p 0x08 v) s = .next (onM (setCmdRing k { cmdRing s.m k with cmdBase := v }) s) ∧
    exec (.ringControlWrite k p 0x10 v) s = .next (onM (setCmdRing k { cmdRing s.m k with cplBase := v }) s)) ∧
  (∀ (s : State) (k : Nat), k < 4 → portServes s.m 0 = true ∨ portServes s.m 1 = true →
    ∃ t, exec (.ringReset k) s = .next t ∧ ringCancelled (cmdRing s.m k) (cmdRing t.m k) ∧ t.m.ctxs = s.m.ctxs ∧
      (∀ j, j ≠ k → cmdRing t.m j = cmdRing s.m j) ∧
      (∀ c, (cmdRing s.m k).current = some c → c.bulk = none → c.ready = false → anyPort s.m = true → (cmdRing s.m k).owed = [] →
        cplRoom (cmdRing s.m k) = true → hdmOffset s.m (cplPlace (cmdRing s.m k) (cmdRing s.m k).cplProduced) = none →
        Out.hostWrite (cplPlace (cmdRing s.m k) (cmdRing s.m k).cplProduced)
          (leBytes 4 c.tag ++ leBytes 4 0x0D200006 ++ leBytes 8 0) ∈ t.m.out)) ∧
  (∀ (s : State) (p : Nat), portServes s.m p = true →
    ∃ t, exec (.functionLevelReset p) s = .next t ∧ t.m.ctxs = s.m.ctxs ∧
      ∀ k, k < 4 →
        ((cmdRing s.m k).served = true → (cmdRing s.m k).port = p → ringCancelled (cmdRing s.m k) (cmdRing t.m k)) ∧
        (((cmdRing s.m k).served = false ∨ (cmdRing s.m k).port ≠ p) → cmdRing t.m k = cmdRing s.m k))

/-- R564, R568, R569, R570: a snoop finds no line; the mailbox serves Identify and Get Supported Logs; a host write of a window
octet is read back and leaves every other octet of HBM alone; a host read sets the access flags of its frames and changes nothing else; a
configuration request is answered with a retry before PREBOOT and served afterwards. R559: both functions give one serial number, and a
write does not change it.
Where the manual leaves a choice, the model's is stated (log entry 50). -/
def Obligations.HostAccessesServed : Prop :=
  (∀ (s : State) (p a : Nat), portServes s.m p = true → (cxlPort s.m p).cxl = true →
    exec (.hostSnoop p a) s = .next (onM (emit (.rspIHitI p)) s)) ∧
  (∀ (s : State) (p : Nat), portServes s.m p = true →
    exec (.mailboxIdentify p) s = .next (onM (fun m => count 0x6D00 0x09 (emit (.mailbox p 0x0001) m)) s) ∧
    exec (.mailboxGetSupportedLogs p) s = .next (onM (fun m => count 0x6D00 0x09 (emit (.mailbox p 0x0400) m)) s)) ∧
  (∀ (s : State) (p a n : Nat), inHdmWindow s.m p a n →
    exec (.hdmAccess p a n none) s = .next (onM (fun m => hdmTouch (a - (cxlPort m p).hdmBase) n
      (emit (.hdmData p (hdmGet m (a - (cxlPort m p).hdmBase) n)) m)) s)) ∧
  (∀ (s : State) (p a : Nat) (b : Byte), inHdmWindow s.m p a 1 → s.m.mem.wf = true →
    ∃ t, exec (.hdmAccess p a 1 (some [b])) s = .next t ∧
      hdmGet t.m (a - (cxlPort s.m p).hdmBase) 1 = [b] ∧
      (∀ x, x ≠ hdmPlace s.m (a - (cxlPort s.m p).hdmBase) → cellGet t.m.mem.phys x = cellGet s.m.mem.phys x) ∧
      t = onM (onMem (fun x => { x with phys := t.m.mem.phys, touched := t.m.mem.touched })) s) ∧
  (∀ (s : State) (p off : Nat) (v : Option Nat), p < 2 → (cxlPort s.m p).l0 = true → cxlServes s.m.dev.st = false →
    exec (.configurationRequest p off v) s = .next (onM (emit (.cfgRetry p)) s)) ∧
  (∀ off, off = serialLow ∨ off = serialHigh → ∃ w, ∀ (s : State) (p v : Nat), portServes s.m p = true →
    exec (.configurationRequest p off none) s = .next (onM (emit (.cfgData p w)) s) ∧
    exec (.configurationRequest p off (some v)) s = .next s) ∧
  (∀ (s : State) (p off w : Nat), portServes s.m p = true → off ≠ serialLow → off ≠ serialHigh →
    ∃ t, exec (.configurationRequest p off (some w)) s = .next t ∧ (cxlPort t.m p).cfg.get off 0 = w % 2 ^ 32 ∧
      (∀ j, j ≠ p → cxlPort t.m j = cxlPort s.m j) ∧ t.m.mem = s.m.mem)

/-- R570 to R572, R658: the ports' events. A port in reset is out of L0 and does not train; a released one trains where it may; a
port that trains reaches L0 at its width and speed and its regions serve again; a port that leaves L0 is down, and every tier
region that names it is lost.
Where the manual leaves a choice, the model's is stated (log entry 51). -/
def Obligations.CxlPortEventsAct : Prop :=
  (∀ (s : State) (p : Nat), p < 2 →
    ∃ t, exec (.perstNAssert p) s = .next t ∧ (cxlPort t.m p).l0 = false ∧ (cxlPort t.m p).perst = true ∧
      (cxlPort t.m p).training = false ∧ t.m.ctxs = s.m.ctxs) ∧
  (∀ (s : State) (p : Nat), p < 2 → (cxlPort s.m p).perst = true →
    exec (.perstNRelease p) s = .next (onM (setCxlPort p { cxlPort s.m p with
      perst := false, training := cxlTrains s.m && tbit s.m.pwr.refs 2 }) s)) ∧
  (∀ (s : State) (p width speed : Nat) (cxl : Bool), p < 2 → (cxlPort s.m p).training = true → cxlTrains s.m = true → s.m.dev.st ≠ .train →
    ∃ t, exec (.cxlLinkL0 p width speed cxl) s = .next t ∧ t.m.ctxs = s.m.ctxs ∧ t.m.mem.phys = s.m.mem.phys ∧
      cxlPort t.m p = { cxlPort s.m p with l0 := true, training := false, width := width, speed := speed, cxl := cxl,
                                           degraded := decide (width < 8) || decide (speed < 64) } ∧
      (∀ k, k < 8 → (regionAt s.m k).kind ≠ 0 → (regionAt s.m k).port = p → k ∉ t.m.mem.lostRegions)) ∧
  (∀ (s : State) (p : Nat) (asked : Bool), p < 2 → (cxlPort s.m p).l0 = true →
    ∃ t, exec (.cxlLinkDown p asked) s = .next t ∧ t.boot = s.boot ∧ (cxlPort t.m p).l0 = false ∧
      (∀ k, k < 8 → (regionAt s.m k).kind ≠ 0 → (regionAt s.m k).port = p → k ∈ t.m.mem.lostRegions) ∧
      (asked = true → t.m.ctxs = s.m.ctxs))

/-! ## The torus links (12). Port states by their codes: 0 DARK, 1 DETECT, 2 EQUALISE, 3 FEC_LOCK, 4 FLIT_INIT, 5 IDENTIFY,
6 ACTIVE, 7 DOWN (R428) -/

/-- R408, R417, R428: training. Light on 40 lanes or more takes DETECT to EQUALISE; a lane test with 40 good lanes or more maps
logical lane i to the i-th good lane of each direction, keeps the rest as spares and goes to FEC_LOCK; with fewer it waits, and returns to DETECT
after 100 ms; codeword lock and flit initialisation follow, the latter with the sequence at 0, an empty retry buffer and whole
credits.
R428: a training state that lasts too long returns to DETECT, and the third time in a row raises LNK_TRAIN_FAIL; a port that
has been in DOWN for 1 ms trains again where it may, and is dark where it may not.
Where the manual leaves a choice, the model's is stated (log entry 1). -/
def Obligations.TrainingAdvances : Prop :=
  ((∀ (s : State) (p lanes : Nat), p < 8 → (portAt s.m p).st = 1 → 40 ≤ lanes →
    exec (.portLightDetect p lanes) s = .next (onM (setPort p { portAt s.m p with st := 2, at10 := s.m.dev.time10, laneWait :=
      false }) s)) ∧
  (∀ (s : State) (p : Nat) (ok : LaneTest), p < 8 → (portAt s.m p).st = 2 → (portAt s.m p).laneWait = false →
    let good := (List.range 44).filter (tbit ok.rx)
    ∃ t, exec (.equaliseComplete p ok) s = .next t ∧
      (40 ≤ good.length → (portAt t.m p).st = 3 ∧ (portAt t.m p).rxMap = good.take 40 ∧ (portAt t.m p).rxSpare = good.drop 40 ∧
        (portAt t.m p).txMap = ((List.range 44).filter (tbit ok.tx)).take 40) ∧
      (good.length < 40 → (portAt t.m p).st = 2 ∧ (portAt t.m p).laneWait = true) ∧
      (∀ q, q ≠ p → portAt t.m q = portAt s.m q) ∧ t.m.mem = s.m.mem ∧ t.m.ctxs = s.m.ctxs) ∧
  (∀ (s : State) (p : Nat), p < 8 → (portAt s.m p).st = 2 → (portAt s.m p).laneWait = true →
    ∃ t, exec (.laneTestRetryExpiry p) s = .next t ∧ portAt t.m p = { portAt s.m p with st := 1, laneWait := false } ∧
      (portAt s.m p).at10 + 1000000000 ≤ t.m.dev.time10) ∧
  (∀ (s : State) (p : Nat), (portAt s.m p).st = 3 →
    exec (.fecLockComplete p) s = .next (onM (setPort p { portAt s.m p with st := 4, at10 := s.m.dev.time10 }) s)) ∧
  (∀ (s : State) (p : Nat), (portAt s.m p).st = 4 →
    ∃ t, exec (.flitInitComplete p) s = .next t ∧ (portAt t.m p).st = 5 ∧ (portAt t.m p).txSeq = 0 ∧ (portAt t.m p).retry = [] ∧
      (portAt t.m p).credits = [1024, 1024, 1920, 128] ∧ (portAt t.m p).queue = [] ∧
      (∀ q, q ≠ p → (portAt t.m q).st = (portAt s.m q).st ∧ (portAt t.m q).rxLast = (portAt s.m q).rxLast) ∧
      ((portAt s.m p).queue = [] → s.m.tor.ports.list.all (fun x => x.queue.all (fun i => i.src != p)) = true →
        ∀ q, q ≠ p → portAt t.m q = portAt s.m q))) ∧
  ((∀ (s : State) (p : Nat), ((portAt s.m p).st = 2 ∧ (portAt s.m p).laneWait = false) ∨ (portAt s.m p).st = 3 ∨ (portAt s.m p).st = 4 →
    ∃ t, exec (.trainingStateTimeout p) s = .next t ∧ (portAt t.m p).st = 1 ∧
      (portAt t.m p).limitRun = ((portAt s.m p).limitRun + 1) % 3 ∧
      ((portAt s.m p).limitRun = 2 → notifies s.m.dev.st = true → raisedCode 0x0901 t.m) ∧
      (∀ q, q ≠ p → portAt t.m q = portAt s.m q)) ∧
  (∀ (s : State) (p : Nat), (portAt s.m p).st = 7 →
    ∃ t, exec (.downTimerExpiry p) s = .next t ∧ (portAt t.m p).st = (if mayTrain s.m p = true then 1 else 0) ∧
      (portAt s.m p).at10 + 10000000 ≤ t.m.dev.time10 ∧ (∀ q, q ≠ p → portAt t.m q = portAt s.m q)))

/-- R429, R430, R431: identity. An IDENT that agrees takes IDENTIFY to ACTIVE and is counted; one of an assigned neighbour that
does not agree leaves the port in IDENTIFY and raises LNK_COORD_MISMATCH; IDENTIFY sends IDENT, both states send KEEPALIVE, each
1 µs after the last, as management flits whose MgmtType stands in octets 8 and 9; a DOWN flit is a valid flit and nothing more.
R435, R436, R554: a KEEPALIVE on the parent port gives the offset θ = (up − down) / 2 and the delay δ = (up + down) / 2, rounded
toward zero; a device that is not locked, has not yet stepped and is not in RUN steps its time base by θ, but never backwards, and counts
it; one in RUN never steps; 16 offsets of at most 2 ns in a row lock it.
Where the manual leaves a choice, the model's is stated (log entries 1, 9, 21, 58). -/
def Obligations.IdentityAndTimeExchanged : Prop :=
  ((∀ (s : State) (p : Nat) (id : Ident), (portAt s.m p).st = 5 → id.coord ≠ 0xFFFFFFFF → (ownCoord? s.m).isSome →
    ∃ t, exec (.ident p id) s = .next t ∧ (portAt t.m p).peer = id ∧
      (identAgrees s.m p id = true → (portAt t.m p).st = 6 ∧ (portAt t.m p).agreed = true ∧
        counterOf t.m 0x6900 0x09 = min (2 ^ 64 - 1) (counterOf s.m 0x6900 0x09 + 1)) ∧
      (identAgrees s.m p id = false → (portAt t.m p).st = 5 ∧ (notifies s.m.dev.st = true → raisedCode 0x0906 t.m))) ∧
  (∀ (s : State) (p : Nat), (portAt s.m p).st = 5 →
    ∃ t, exec (.identTimer p) s = .next t ∧
      sentMgmt p 1 (slice (dval s.m 0x1000 0x02) 0 16 ++ leBytes 1 (nodeId s.m) ++ leBytes 1 (boardSlot s.m) ++ leBytes 1 (p / 2) ++
        leBytes 1 (p % 2) ++ leBytes 4 (dnum s.m 0x5000 0x02) ++ leBytes 4 (dnum s.m 0x5000 0x03) ++
        leBytes 1 (if (portAt s.m p).alt then 1 else 0)) s.m t.m) ∧
  (∀ (s : State) (p : Nat), (portAt s.m p).st = 5 ∨ (portAt s.m p).st = 6 →
    ∃ t, exec (.keepaliveTimer p) s = .next t ∧
      sentMgmt p 2 (leBytes 8 t.m.dev.time10 ++ leBytes 8 (portAt s.m p).lastRx ++ leBytes 8 (portAt s.m p).lastRxAt ++
        leBytes 4 (dnum s.m 0x5000 0x02) ++ leBytes 1 (portAt s.m p).st) s.m t.m) ∧
  (∀ (s : State) (p cause : Nat), (portAt s.m p).st = 5 ∨ (portAt s.m p).st = 6 →
    exec (.down p cause) s =
      .next (onM (fun m => count 0x6900 0x02 (setPort p { portAt m p with lastValid := m.dev.time10 } m)) s))) ∧
  (∀ (s : State) (p tx etx erx rx : Nat), (portAt s.m p).st = 5 ∨ (portAt s.m p).st = 6 → parentPort s.m = some p →
    ∃ t, exec (.keepalive p tx etx erx rx) s = .next t ∧
      (portAt t.m p).theta = (((erx : Int) - etx) - ((rx : Int) - tx)).tdiv 2 ∧
      (portAt t.m p).delta = (((erx : Int) - etx) + ((rx : Int) - tx)).tdiv 2 ∧
      t.m.tor.lockCount = (if (portAt t.m p).theta.natAbs ≤ 20 then min 16 (s.m.tor.lockCount + 1) else 0) ∧
      t.m.tor.locked = (s.m.tor.locked || decide (t.m.tor.lockCount = 16)) ∧
      (portAt t.m p).lastRx = tx ∧ (portAt t.m p).lastRxAt = rx ∧
      (s.m.tor.locked = false → s.m.tor.stepped = false → s.m.dev.st ≠ .run →
        t.m.dev.time10 = max s.m.dev.time10 ((s.m.dev.time10 : Int) + (portAt t.m p).theta).toNat ∧ t.m.tor.stepped = true ∧
        counterOf t.m 0x6900 0x0F = min (2 ^ 64 - 1) (counterOf s.m 0x6900 0x0F + 1)) ∧
      (s.m.dev.st = .run → t.m.dev.time10 = s.m.dev.time10))

/-- R432, R433, R522: a lost link takes its port to DOWN and raises LNK_LOST; from ACTIVE, every context in RUN whose cuts use
the port's axis goes to HALT with the code, the cause and the port in its failure record, and every other context is as it
was.
R409 to R411: lanes. A mapped lane that loses lock, or has more corrected symbols than LaneSwapSymbols, takes the first spare and asks the
partner for the swap; with no spare left
the port goes to DOWN and raises LNK_LANES_EXHAUSTED; a failed spare is a spare no more, and one that a swap has chosen is swapped in its
turn; a swap request changes the transmitted
map and marks the new epoch; the request is sent again until the marker comes, which changes the received map.
Where the manual leaves a choice, the model's is stated (log entries 1, 21, 58). -/
def Obligations.LanesSwapAndLinksFail : Prop :=
  (∀ (s : State) (p : Nat), p < 8 → (portAt s.m p).st = 5 ∨ (portAt s.m p).st = 6 →
    ∃ t, exec (.linkLostTimer p) s = .next t ∧ (portAt t.m p).st = 7 ∧ (portAt s.m p).lastValid + 100000 ≤ t.m.dev.time10 ∧
      (notifies s.m.dev.st = true → raisedCode 0x0904 t.m) ∧ t.m.mem = s.m.mem ∧ t.boot = s.boot ∧
      ∀ i, i < 16 →
        ((portAt s.m p).st = 6 → (ctxAt s.m i).st = .run → (ctxAt s.m i).axes.contains (p / 2) = true →
          failedWith i 0x0904 0x01 t.m ∧ octs (ctxAt t.m i).failure 20 1 = p) ∧
        ((portAt s.m p).st = 5 ∨ (ctxAt s.m i).st ≠ .run ∨ (ctxAt s.m i).axes.contains (p / 2) = false →
          ctxAt t.m i = ctxAt s.m i)) ∧
  ((∀ (s : State) (p sp : Nat) (ev : LaneEvent) (rest : List Nat), (portAt s.m p).st = 5 ∨ (portAt s.m p).st = 6 →
    ev.lane ∈ (portAt s.m p).rxMap → ev.lost = true ∨ dnum s.m 0x5000 0x09 < ev.symbols →
    (portAt s.m p).swap = [] → (portAt s.m p).rxSpare = sp :: rest →
    ∃ t ep, exec (.laneFailure p ev) s = .next t ∧ (portAt t.m p).swap = [(ev.lane, sp, ep)] ∧ (portAt t.m p).rxSpare = rest ∧
      ep = (portAt s.m p).rxEpoch + 1 ∧
      t.m.out = s.m.out ++ [.flit p ⟨mgmtHeader (portAt s.m p), flitRest (leBytes 2 3 ++ swapContent (ev.lane, sp, ep))⟩] ∧
      tbit (portAt t.m p).rxFailed ev.lane = true) ∧
  (∀ (s : State) (p : Nat) (ev : LaneEvent), ev.lost = false → ev.symbols ≤ dnum s.m 0x5000 0x09 →
    exec (.laneFailure p ev) s = .next s) ∧
  (∀ (s : State) (p : Nat) (ev : LaneEvent), p < 8 → (portAt s.m p).st = 5 → ev.lane ∈ (portAt s.m p).rxMap →
    ev.lost = true ∨ dnum s.m 0x5000 0x09 < ev.symbols → (portAt s.m p).swap = [] → (portAt s.m p).rxSpare = [] →
    ∃ t, exec (.laneFailure p ev) s = .next t ∧ (portAt t.m p).st = 7 ∧
      (notifies s.m.dev.st = true → raisedCode 0x0902 t.m)) ∧
  (∀ (s : State) (p lane : Nat), lane ∈ (portAt s.m p).rxSpare →
    ∃ t, exec (.spareLaneFailure p lane) s = .next t ∧ lane ∉ (portAt t.m p).rxSpare ∧ tbit (portAt t.m p).rxFailed lane = true ∧
      (portAt t.m p).rxMap = (portAt s.m p).rxMap ∧ (∀ j, j ≠ p → portAt t.m j = portAt s.m j) ∧ t.m.mem = s.m.mem ∧ t.m.ctxs = s.m.ctxs) ∧
  (∀ (s : State) (p l sp nx ep : Nat) (rest : List Nat), (portAt s.m p).st = 5 ∨ (portAt s.m p).st = 6 →
    (portAt s.m p).swap = [(l, sp, ep)] → l ≠ sp → (portAt s.m p).rxSpare = nx :: rest → sp ∉ (portAt s.m p).rxSpare →
    ∃ t, exec (.spareLaneFailure p sp) s = .next t ∧ (portAt t.m p).rxSpare = rest ∧
      (portAt t.m p).swap = [(l, sp, ep), (sp, nx, (portAt s.m p).rxEpoch + 2)]) ∧
  (∀ (s : State) (p failed spare epoch : Nat), (portAt s.m p).st = 5 ∨ (portAt s.m p).st = 6 →
    ∃ t, exec (.laneSwap p failed spare epoch) s = .next t ∧ t.m.out = s.m.out ++ [.epoch p epoch] ∧
      (portAt t.m p).txMap = (portAt s.m p).txMap.map (fun l => if l = failed then spare else l) ∧ (portAt t.m p).txEpoch = epoch) ∧
  (∀ (s : State) (p : Nat), (portAt s.m p).swap ≠ [] →
    ∃ t, exec (.laneSwapTimer p) s = .next t ∧
      (∃ hs : List Nat, hs.length = (portAt s.m p).swap.length ∧
        t.m.out = s.m.out ++ (hs.zip (portAt s.m p).swap).map (fun x => .flit p ⟨x.1, flitRest (leBytes 2 3 ++ swapContent x.2)⟩)) ∧
      t.m.tor = { s.m.tor with ports := s.m.tor.ports.set p { portAt s.m p with nakDue := false } }) ∧
  (∀ (s : State) (p l sp ep : Nat), (portAt s.m p).swap = [(l, sp, ep)] →
    ∃ t, exec (.epochMarker p ep) s = .next t ∧ (portAt t.m p).swap = [] ∧ (portAt t.m p).rxEpoch = ep ∧
      (portAt t.m p).rxMap = (portAt s.m p).rxMap.map (fun k => if k = l then sp else k) ∧
      counterOf t.m 0x6900 0x07 = min (2 ^ 64 - 1) (counterOf s.m 0x6900 0x07 + 1) ∧
      (∀ j, j ≠ p → portAt t.m j = portAt s.m j) ∧ t.m.mem = s.m.mem ∧ t.m.ctxs = s.m.ctxs))

/-- R413 to R416, R424, R429: receiving, on a port in IDENTIFY or ACTIVE. A flit that fails a CRC, and a sequenced one whose Seq is not the
next, are not accepted: what was accepted last stays, its Nak does nothing, and the first of a run is answered by a Nak with AckSeq at the
last accepted Seq, but not a management flit, which has no Seq. A good management flit is accepted and its content taken. A sequenced flit
with the next Seq is accepted and acknowledged from then on; what
it completes is handed to the units, and a NULL flit completes nothing. A body that is found corrupt raises LNK_BODY_CRC and
completes nothing.
R415, R416: an accepted Nak sends every flit held from AckSeq + 1 on again,
with its Seq and body; when that was the last time that RetryLimit allows,
the port goes to DOWN and LNK_RETRY_LIMIT is raised. 2 µs after a Nak without the missing flit, the Nak is sent again; with 2,048 flits
unacknowledged it waits for room. A port in
another state takes no flit and sends no Nak.
Where the manual leaves a choice, the model's is stated (log entries 1, 21). -/
def Obligations.FlitsAcceptedInOrder : Prop :=
  ((∀ (s : State) (p : Nat) (f : Flit) (ev : FlitEvent), (portAt s.m p).st = 5 ∨ (portAt s.m p).st = 6 → s.m.tor.held = [] →
    flitGood f = false ∨ (fld f.header 63 60 ≤ 1 ∧ fld f.header 57 46 ≠ ((portAt s.m p).rxLast + 1) % 4096) →
    let mgmt := headerGood f = true ∧ fld f.header 63 60 = 2
    ∃ t, exec (.flitReceive p f ev) s = .next t ∧ (portAt t.m p).rxLast = (portAt s.m p).rxLast ∧
      (portAt t.m p).credits = (portAt s.m p).credits ∧ t.m.mem = s.m.mem ∧ t.m.ctxs = s.m.ctxs ∧
      (flitGood f = false → countedOnce 0x6900 0x03 s.m t.m) ∧
      ((portAt s.m p).nakSent = true ∨ mgmt → t.m.out = s.m.out ∧ (portAt t.m p).nakSent = (portAt s.m p).nakSent) ∧
      ((portAt s.m p).nakSent = false → ¬mgmt → (portAt t.m p).nakSent = true ∧
        ((portAt s.m p).retry.length < 2048 →
          ∃ g, t.m.out = s.m.out ++ [.flit p g] ∧ tbit g.header 32 = true ∧ fld g.header 45 34 = (portAt s.m p).rxLast % 4096) ∧
        (2048 ≤ (portAt s.m p).retry.length → t.m.out = s.m.out ∧ (portAt t.m p).nakDue = true))) ∧
  (∀ (s : State) (p : Nat) (f : Flit) (ev : FlitEvent), (portAt s.m p).st = 5 ∨ (portAt s.m p).st = 6 → s.m.tor.held = [] →
    flitGood f = true → fld f.header 63 60 = 2 → tbit f.header 32 = false →
    let content := f.rest.drop 2
    ∃ t, exec (.flitReceive p f ev) s = .next t ∧ (portAt t.m p).rxLast = (portAt s.m p).rxLast ∧
      (portAt t.m p).lastValid = s.m.dev.time10 ∧ countedOnce 0x6900 0x02 s.m t.m ∧
      (octs f.rest 0 2 = 1 → (portAt t.m p).peer = identOf content) ∧
      (octs f.rest 0 2 = 2 → (portAt t.m p).lastRx = octs content 0 8) ∧
      (octs f.rest 0 2 = 3 → Out.epoch p (octs content 2 4) ∈ t.m.out)) ∧
  (∀ (s : State) (p : Nat) (f : Flit) (ev : FlitEvent), (portAt s.m p).st = 5 ∨ (portAt s.m p).st = 6 → s.m.tor.held = [] →
    flitGood f = true → fld f.header 63 60 = 0 → tbit f.header 32 = false → fld f.header 57 46 = ((portAt s.m p).rxLast + 1) % 4096 →
    ∃ t, exec (.flitReceive p f ev) s = .next t ∧ (portAt t.m p).rxLast = fld f.header 57 46 ∧ (portAt t.m p).rxAny = true ∧
      (portAt t.m p).nakSent = false ∧ (portAt t.m p).lastValid = s.m.dev.time10 ∧ countedOnce 0x6900 0x02 s.m t.m ∧
      t.m.mem = s.m.mem ∧ t.m.ctxs = s.m.ctxs) ∧
  (∀ (s : State) (p : Nat) (f : Flit) (ev : FlitEvent), (portAt s.m p).st = 5 ∨ (portAt s.m p).st = 6 → flitGood f = true →
    fld f.header 63 60 = 1 → tbit f.header 32 = false → fld f.header 57 46 = ((portAt s.m p).rxLast + 1) % 4096 →
    let r := linkReceive p f ev.fabricBad (countN 0x6900 0x05 ev.corrected (countN 0x6900 0x06 ev.uncorrected s.m))
    let m2 := arriveAll p (fld f.header 59 58) r.2.2 r.2.1 r.1
    exec (.flitReceive p f ev) s = .next (onM (fun m => ackNull p m (takeHeld m2.tor.held.length m2)) s) ∧
      (ev.fabricBad = true → r.2.1 = []) ∧
      (portAt r.1 p).rxLast = fld f.header 57 46 ∧ (portAt r.1 p).rxAny = true ∧ (portAt r.1 p).nakSent = false ∧
      countedOnce 0x6900 0x02 s.m r.1 ∧ r.1.mem = s.m.mem ∧ (ev.fabricBad = false → r.1.ctxs = s.m.ctxs)) ∧
  (∀ (s : State) (p : Nat) (f : Flit) (ev : FlitEvent), (portAt s.m p).st = 5 ∨ (portAt s.m p).st = 6 → s.m.tor.held = [] →
    flitGood f = true → ev.fabricBad = true →
    fld f.header 63 60 = 1 → tbit f.header 32 = false → fld f.header 57 46 = ((portAt s.m p).rxLast + 1) % 4096 →
    ∃ t, exec (.flitReceive p f ev) s = .next t ∧ t.m.mem = s.m.mem ∧
      (notifies s.m.dev.st = true → raisedCode 0x0903 t.m))) ∧
  ((∀ (s : State) (p : Nat) (f : Flit) (ev : FlitEvent), (portAt s.m p).st = 5 ∨ (portAt s.m p).st = 6 → s.m.tor.held = [] →
    flitGood f = true → fld f.header 63 60 = 0 → tbit f.header 32 = true → tbit f.header 33 = true →
    fld f.header 57 46 = ((portAt s.m p).rxLast + 1) % 4096 →
    let from_ := (fld f.header 45 34 + 1) % 4096
    let runs := if (portAt s.m p).resendFrom = from_ then (portAt s.m p).resends + 1 else 1
    ∃ t, exec (.flitReceive p f ev) s = .next t ∧
      (∀ h ∈ (portAt s.m p).retry, h.seq < 4096 → h.credits < 2 ^ 24 → seqLe from_ h.seq = true →
        ∃ g, Out.flit p g ∈ t.m.out ∧ fld g.header 57 46 = h.seq ∧ g.rest = h.rest) ∧
      (dnum s.m 0x5000 0x08 ≤ runs → (portAt t.m p).st = 7 ∧ (notifies s.m.dev.st = true → raisedCode 0x0905 t.m)) ∧
      (runs < dnum s.m 0x5000 0x08 → (portAt t.m p).st = (portAt s.m p).st ∧ (portAt t.m p).resends = runs)) ∧
  (∀ (s : State) (p : Nat), (portAt s.m p).st = 5 ∨ (portAt s.m p).st = 6 → (portAt s.m p).nakSent = true →
    ∃ t, exec (.nakTimer p) s = .next t ∧ (portAt t.m p).nakSent = true ∧ (portAt t.m p).rxLast = (portAt s.m p).rxLast ∧
      t.m.dev.time10 = max s.m.dev.time10 ((portAt s.m p).nakAt + 20000) ∧ (portAt t.m p).nakAt = t.m.dev.time10 ∧
      t.m.mem = s.m.mem ∧ t.m.ctxs = s.m.ctxs ∧
      (2048 ≤ (portAt s.m p).retry.length → t.m.out = s.m.out ∧ (portAt t.m p).nakDue = true) ∧
      ((portAt s.m p).retry.length < 2048 →
        ∃ g, t.m.out = s.m.out ++ [.flit p g] ∧ tbit g.header 32 = true ∧ fld g.header 45 34 = (portAt s.m p).rxLast % 4096 ∧
          (portAt t.m p).txSeq = ((portAt s.m p).txSeq + 1) % 4096)) ∧
  (∀ (s : State) (p : Nat), (portAt s.m p).nakSent = false ∨ ((portAt s.m p).st ≠ 5 ∧ (portAt s.m p).st ≠ 6) →
    exec (.nakTimer p) s = .next s) ∧
  (∀ (s : State) (p : Nat) (f : Flit) (ev : FlitEvent), (portAt s.m p).st ≠ 5 → (portAt s.m p).st ≠ 6 → s.m.tor.held = [] →
    ∃ t, exec (.flitReceive p f ev) s = .next t ∧ t.m.tor = s.m.tor ∧ t.m.out = s.m.out ∧
      t.m.mem = s.m.mem ∧ t.m.ctxs = s.m.ctxs))

/-! ## The dictionary and the management port (18) -/

/-- R589, R592, R596, R597, R606: a new READ that passes the checks is answered once, to its requester, with the entry's value and
its complement, and nothing but the management port, the counters and what leaves the device differs; the first READ_BLOCK of
an entry, and of the dictionary image, returns its first octets, with Last when they are all.
R592, R593, R597, R599: a new WRITE, or a WRITE_BLOCK in one segment, that passes the checks of an entry that is no command
replaces the entry's value and complement in one step and is answered; a first segment that is not the last is staged and
leaves the dictionary alone.
Where the manual leaves a choice, the model's is stated (log entries 48, 49). -/
def Obligations.RequestsAnswered : Prop :=
  ((∀ (r : Req) (s : State), newRequest r 1 s → readAccess s.m.dev.st (mhead r.payload).index (mhead r.payload).sub = 0 →
    plainEntry (mhead r.payload).index (mhead r.payload).sub = true → (mhead r.payload).len = 0 →
    ¬((mhead r.payload).index = 0x7000 ∧ (mhead r.payload).sub = 0x21) →
    ((mhead r.payload).index = 0x8000 → stepPairOk (ctxAt s.m (dnum s.m 0x8000 0x01)) = true) →
    let h := mhead r.payload
    let v := withCpl (dictValue (received r s) h.index h.sub)
    ∃ t, exec (.mgmtRead r) s = .next t ∧ answered r (mgmtPayload 1 h.seq h.index h.sub 1 0 v.length v) t ∧ Told s.m t.m ∧
      t.boot = s.boot) ∧
  (∀ (r : Req) (s : State), newRequest r 3 s → readAccess s.m.dev.st (mhead r.payload).index (mhead r.payload).sub = 0 →
    (mhead r.payload).len = 4 → 1 ≤ octs r.payload 16 2 → octs r.payload 16 2 ≤ 512 → carriedOk (mhead r.payload) r.payload = true →
    (mhead r.payload).off = 0 → ¬((mhead r.payload).index = 0x7000 ∧ (mhead r.payload).sub = 0x21) →
    ((mhead r.payload).index = 0x8000 → stepPairOk (ctxAt s.m (dnum s.m 0x8000 0x01)) = true) →
    let h := mhead r.payload
    let all := dictValue (received r s) h.index h.sub
    let v := withCpl (all.take (octs r.payload 16 2))
    let p := mgmtPayload 3 h.seq h.index h.sub (if all.length ≤ octs r.payload 16 2 then 3 else 1) 0 v.length v
    (∃ t, exec (.readBlock r) s = .next t ∧ answered r p t ∧ Told s.m t.m ∧ t.boot = s.boot) ∧
    (h.index = 0x1100 → h.sub = 0x11 → ∃ t, exec (.dictImageRead r) s = .next t ∧ answered r p t ∧ Told s.m t.m ∧ t.boot = s.boot))) ∧
  ((∀ (r : Req) (s : State), newRequest r 2 s → carriedOk (mhead r.payload) r.payload = true →
    plainEntry (mhead r.payload).index (mhead r.payload).sub = true →
    (mhead r.payload).len = 2 * entrySize (mhead r.payload).index (mhead r.payload).sub →
    plainWrite (mhead r.payload).index (mhead r.payload).sub (carried (mhead r.payload) r.payload) s →
    let h := mhead r.payload
    let v := carried h r.payload
    ∃ t, exec (.mgmtWrite r) s = .next t ∧ answered r (mgmtPayload 2 h.seq h.index h.sub 1 0 0 []) t ∧
      t.m.mgmt.dict = s.m.mgmt.dict.put (dkey h.index h.sub) (v, cplBytes v) ∧ t.boot = s.boot) ∧
  (∀ (r : Req) (s : State), newRequest r 4 s → carriedOk (mhead r.payload) r.payload = true → s.m.mgmt.stages = [] →
    (mhead r.payload).len % 2 = 0 → (mhead r.payload).len ≤ 1024 → (mhead r.payload).off = 0 →
    (mhead r.payload).len / 2 ≤ entrySize (mhead r.payload).index (mhead r.payload).sub →
    let h := mhead r.payload
    let v := carried h r.payload
    (tbit h.flags 1 = true → plainWrite h.index h.sub v s →
      ∃ t, exec (.writeBlock r) s = .next t ∧ answered r (mgmtPayload 4 h.seq h.index h.sub 1 0 0 []) t ∧
        t.m.mgmt.dict = s.m.mgmt.dict.put (dkey h.index h.sub) (v, cplBytes v) ∧ t.m.mgmt.stages = [] ∧ t.boot = s.boot) ∧
    (tbit h.flags 1 = false → writeAccess s.m.dev.st h.index h.sub = 0 →
      ∃ t, exec (.writeBlock r) s = .next t ∧ answered r (mgmtPayload 4 h.seq h.index h.sub 1 0 0 []) t ∧
        t.m.mgmt.stages = [⟨requester r, h.index, h.sub, v, s.m.dev.time10⟩] ∧ Told s.m t.m ∧ t.boot = s.boot)))

/-- R586, R597, R598, R600: a request that repeats the kept response's requester, Op and Seq is answered with the kept response
and served no second time; a requester's ABORT discards its staged write; a frame that R597 discards and one with a bad FCS to
the device's own address are counted and change nothing else.
R585, R596, R600, R601: timers of the management port. A snapshot and a staged write end after 1 s; a heartbeat is sent and
counted; a beacon brings PLCA back; 10 ms without one after one was seen raises MGT_BEACON_LOST and sends by CSMA/CD; a frame
that 16 attempts do not send is dropped and raises MGT_TX_DROP.
Where the manual leaves a choice, the model's is stated (log entries 1, 48, 49). -/
def Obligations.ManagementFramesAndTimers : Prop :=
  ((∀ (r : Req) (s : State) (k : Kept), heard r s.m → reqClass r = 1 ∨ reqClass r = 2 ∨ reqClass r = 3 ∨ reqClass r = 4 →
    s.m.mgmt.cache.find? (fun x => x.who == requester r && x.op == (mhead r.payload).op && x.seq == (mhead r.payload).seq) = some k →
    let row := match (mhead r.payload).op with | 1 => Instr.mgmtRead r | 2 => .mgmtWrite r | 3 => .readBlock r | _ => .writeBlock r
    ∃ t, exec row s = .next t ∧ answered r k.resp t ∧ t.m.mgmt.dict = s.m.mgmt.dict ∧ t.m.mgmt.stages = s.m.mgmt.stages ∧
      counterOf t.m 0x6E00 0x07 = min (2 ^ 64 - 1) (counterOf s.m 0x6E00 0x07 + 1) ∧ Told s.m t.m ∧ t.boot = s.boot) ∧
  (∀ (r : Req) (s : State), heard r s.m → reqClass r = 7 →
    ∃ t, exec (.mgmtAbort r) s = .next t ∧ (∀ x ∈ t.m.mgmt.stages, x.who ≠ requester r) ∧ Told s.m t.m ∧ t.boot = s.boot ∧
      counterOf t.m 0x6E00 0x08 = min (2 ^ 64 - 1) (counterOf s.m 0x6E00 0x08 + 1)) ∧
  (∀ (r : Req) (s : State), heard r s.m → discardFrame r = true →
    exec (.mgmtFrameDiscard r) s = .next (onM (count 0x6E00 0x08) (received r s))) ∧
  (∀ (r : Req) (s : State), r.via = .seg → r.fcsOk = false → mgmtDriven s.m = true → leVal (slice r.dst 0 6) = macAddr s.m →
    exec (.mgmtFrameDiscard r) s = .next (onM (count 0x6E00 0x03) s))) ∧
  ((∀ (s : State) (who : Nat) (x : Stage), s.m.mgmt.snaps.find? (fun y => y.who == who) = some x →
    ∃ t, exec (.blockSnapshotTimeout who) s = .next t ∧ (∀ y ∈ t.m.mgmt.snaps, y.who ≠ who) ∧
      x.at10 + 10000000000 ≤ t.m.dev.time10 ∧ t.m.mgmt.dict = s.m.mgmt.dict ∧ t.boot = s.boot ∧ t.m.mem = s.m.mem ∧
      t.m.ctxs = s.m.ctxs) ∧
  (∀ (s : State) (who : Nat) (x : Stage), s.m.mgmt.stages.find? (fun y => y.who == who) = some x →
    ∃ t, exec (.blockWriteTimeout who) s = .next t ∧ (∀ y ∈ t.m.mgmt.stages, y.who ≠ who) ∧
      x.at10 + 10000000000 ≤ t.m.dev.time10 ∧ t.m.mgmt.dict = s.m.mgmt.dict ∧ t.boot = s.boot ∧ t.m.mem = s.m.mem ∧
      t.m.ctxs = s.m.ctxs) ∧
  (∀ s : State, mgmtDriven s.m = true →
    ∃ t, exec .heartbeatTimer s = .next t ∧ t.m.mgmt.heartbeats = s.m.mgmt.heartbeats + 1 ∧
      t.m.out = s.m.out ++ [.frame (dnum s.m 0x1100 0x07) (mgmtPayload 0x06 0 0x1100 0x08 1 0 64 (withCpl (heartbeatBytes s)))] ∧
      counterOf t.m 0x6E00 0x0B = min (2 ^ 64 - 1) (counterOf s.m 0x6E00 0x0B + 1)) ∧
  (∀ s : State, mgmtDriven s.m = true →
    exec .plcaBeacon s = .next (onM (fun m => { m with mgmt := { m.mgmt with beaconSeen := true, csma := false, beaconAt :=
      m.dev.time10 } }) s)) ∧
  (∀ s : State, mgmtDriven s.m = true → s.m.mgmt.beaconSeen = true → s.m.mgmt.csma = false →
    ∃ t, exec .beaconLostTimer s = .next t ∧ t.m.mgmt.csma = true ∧ s.m.mgmt.beaconAt + 100000000 ≤ t.m.dev.time10 ∧
      (notifies s.m.dev.st = true → raisedCode 0x0E01 t.m) ∧ t.m.mgmt.dict = s.m.mgmt.dict) ∧
  (∀ (s : State) (f : Nat × List Byte) (rest : List (Nat × List Byte)), mgmtDriven s.m = true →
    s.m.mgmt.beaconSeen = false ∨ s.m.mgmt.csma = true → s.m.mgmt.txQueue = f :: rest →
    ∃ t, exec .mgmtTxAttemptsExhausted s = .next t ∧
      counterOf t.m 0x6E00 0x0E = min (2 ^ 64 - 1) (counterOf s.m 0x6E00 0x0E + 1) ∧
      (notifies s.m.dev.st = true → raisedCode 0x0E02 t.m) ∧
      (notifies s.m.dev.st = false → t.m.mgmt.txQueue = rest ∧ t.m.out = (s.m.out.reverse.erase (.frame f.1 f.2)).reverse)))

/-- R592, R593: an accepted write of an entry that is no command replaces its value together with its complement and is
answered; every other entry, the start-up state and the queue stay. A refused one is answered and counted, and changes nothing
else.
R580: a use of an entry whose stored pair does not agree sets the entry to its default with the complement, and counts and
raises DICT_STORE_CHECK; a use of a sound entry changes nothing.
Where the manual leaves a choice, the model's is stated (log entry 49). -/
def Obligations.EntryWritesReplaceOrRefuse : Prop :=
  ((∀ (s : State) (index sub : Nat) (v : List Byte), storedOk s.m index sub → plainWrite index sub v s →
    ∃ t, exec (.dictWrite index sub v) s = .next t ∧ t.m.mgmt.dict = s.m.mgmt.dict.put (dkey index sub) (v, cplBytes v) ∧
      dval t.m index sub = v ∧ t.m.out.getLast? = some .wrote ∧ t.boot = s.boot ∧ t.pending = s.pending) ∧
  (∀ (s : State) (index sub : Nat) (v : List Byte), serverRuns s.m.dev.st = true → storedOk s.m index sub →
    (index, sub) ∉ commandEntries → (writeEntry index sub v s).2 ≠ 0 →
    exec (.dictWrite index sub v) s =
      .next (refused (writeEntry index sub v s).2 s))) ∧
  ((∀ (m : Mach) (index sub : Nat) (v c : List Byte), m.mgmt.dict.find (dkey index sub) = some (v, c) → c ≠ cplBytes v →
    let d : List Byte := match dictEnt index sub with | some e => e.default | none => []
    let t := checkStore index sub m
    t.mgmt.dict = m.mgmt.dict.put (dkey index sub) (d, cplBytes d) ∧ dval t index sub = d ∧
    counterOf t 0x6E00 0x0F = min (2 ^ 64 - 1) (counterOf m 0x6E00 0x0F + 1) ∧
    (notifies m.dev.st = true → raisedCode 0x0E03 t)) ∧
  (∀ (m : Mach) (index sub : Nat), storedOk m index sub → checkStore index sub m = m))

/-! ## Entries with a rule of their own -/

/-- R541, R542, R555: PowerCap lies between PowerFloor and 4,800 W, PowerPriority names each domain once, FixedFrequency is 0 or
a point code below boost, and the time base is set in CONFIG on a root or an unassigned device; another value is refused
with the abort the rule names.
Where the manual leaves a choice, the model's is stated (log entry 44). -/
def Obligations.PowerEntriesChecked : Prop :=
  (∀ (s : State) (v : List Byte), writeState s.m.dev.st = 0 → storedOk s.m 0x3000 0x01 → v.length = 4 →
    (leVal v ≤ 4800 → s.m.pwr.floor ≤ leVal v → exec (.powerCapWrite v) s = .next (wrote 0x3000 0x01 v s)) ∧
    (4800 < leVal v → exec (.powerCapWrite v) s = .next (refused 0x06090031 s)) ∧
    (leVal v ≤ 4800 → leVal v < s.m.pwr.floor → exec (.powerCapWrite v) s = .next (refused 0x06090032 s))) ∧
  (∀ (s : State) (v : List Byte), writeState s.m.dev.st = 0 → storedOk s.m 0x3000 0x07 → v.length = 1 →
    let order := [fld (leVal v) 1 0, fld (leVal v) 3 2, fld (leVal v) 5 4]
    (leVal v < 64 ∧ 0 ∈ order ∧ 1 ∈ order ∧ 2 ∈ order → exec (.powerPriorityWrite v) s = .next (wrote 0x3000 0x07 v s)) ∧
    (¬(leVal v < 64 ∧ 0 ∈ order ∧ 1 ∈ order ∧ 2 ∈ order) → exec (.powerPriorityWrite v) s = .next (refused 0x06090033 s))) ∧
  (∀ (s : State) (v : List Byte), calm s.m.dev.st → storedOk s.m 0x3000 0x08 → v.length = 1 →
    (leVal v = 0 ∨ (0x10 ≤ leVal v ∧ leVal v ≤ 0x13) → exec (.fixedFrequencyWrite v) s = .next (wrote 0x3000 0x08 v s)) ∧
    (leVal v ≠ 0 → leVal v < 0x10 ∨ 0x13 < leVal v → exec (.fixedFrequencyWrite v) s = .next (refused 0x0E200007 s))) ∧
  (∀ (s : State) (v : List Byte), writeState s.m.dev.st = 0 → storedOk s.m 0x3200 0x07 → v.length = 8 →
    let root := dnum s.m 0x5000 0x02 = 0 ∨ dnum s.m 0x5000 0x02 = 0xFFFFFFFF
    (s.m.dev.st = .config → root → exec (.timeBaseSet v) s =
      .next (onM (fun m => doneWrite { m with dev := { m.dev with time10 := leVal v * 10 } }) s)) ∧
    (s.m.dev.st ≠ .config ∨ ¬root → exec (.timeBaseSet v) s = .next (refused 0x0E200007 s)))

/-- R428, R430, R440, R445: a FibreGroup write takes every lit port whose bit changes to DOWN on the selected group and leaves
the others alone; a Coordinate write, with no context loaded, returns ports in IDENTIFY or ACTIVE to IDENTIFY; a RingSize write
darkens the ports of an axis of size 1; both are refused while a context is loaded.
Where the manual leaves a choice, the model's is stated (log entry 55). -/
def Obligations.TorusEntriesMovePorts : Prop :=
  (∀ (s : State) (v : List Byte), calm s.m.dev.st → storedOk s.m 0x5000 0x05 → v.length = 1 →
    ∃ t, exec (.fibreGroupWrite v) s = .next t ∧ dval t.m 0x5000 0x05 = v ∧
      ∀ p, p < 8 →
        (tbit (dnum s.m 0x5000 0x05) p = tbit (leVal v) p → (portAt t.m p).st = (portAt s.m p).st ∧
          (portAt t.m p).alt = (portAt s.m p).alt ∧
          (s.m.tor.ports.list.all (fun x => x.queue.isEmpty) = true → portAt t.m p = portAt s.m p)) ∧
        (tbit (dnum s.m 0x5000 0x05) p ≠ tbit (leVal v) p → (portAt t.m p).alt = tbit (leVal v) p ∧
          ((portAt s.m p).st ≠ 0 → (portAt t.m p).st = 7))) ∧
  (∀ (s : State) (v : List Byte), calm s.m.dev.st → storedOk s.m 0x5000 0x02 → v.length = 4 →
    coordBad (leVal v) (dnum s.m 0x5000 0x03) = false →
    (s.m.ctxs.list.any loaded = false →
      ∃ t, exec (.coordinateWrite false v) s = .next t ∧ dval t.m 0x5000 0x02 = v ∧ t.m.out.getLast? = some .wrote ∧
        ∀ p, p < 8 → (portAt s.m p).st = 5 ∨ (portAt s.m p).st = 6 → mayTrain s.m p = true → (portAt t.m p).st = 5) ∧
    (s.m.ctxs.list.any loaded = true → exec (.coordinateWrite false v) s = .next (refused 0x09200004 s))) ∧
  (∀ (s : State) (v : List Byte), calm s.m.dev.st → storedOk s.m 0x5000 0x03 → v.length = 4 →
    (∀ a, a < 4 → 1 ≤ fld (leVal v) (8 * a + 7) (8 * a) ∧ fld (leVal v) (8 * a + 7) (8 * a) ≤ 32) →
    coordBad (dnum s.m 0x5000 0x02) (leVal v) = false → s.m.ctxs.list.any loaded = false →
    ∃ t, exec (.coordinateWrite true v) s = .next t ∧ dval t.m 0x5000 0x03 = v ∧ t.m.tor.everRing = true ∧
      ∀ p, p < 8 → fld (leVal v) (8 * (p / 2) + 7) (8 * (p / 2)) = 1 → (portAt t.m p).st = 0)

/-- R603, R613: a new subscriber takes a free place, a known one changes its mask or leaves, and a ninth is refused; CounterClear
zeroes the block of a class or every block, and no other counter, but that its own request is counted as served afterwards.
Where the manual leaves a choice, the model's is stated (log entries 44, 49). -/
def Obligations.SubscriptionsAndCounters : Prop :=
  (∀ (s : State) (v : List Byte), writeState s.m.dev.st = 0 → storedOk s.m 0x1100 0x0C → v.length = 8 →
    let mac := octs v 0 6
    let mask := octs v 6 2
    let subs := s.m.mgmt.subs
    (∀ k, k < 8 → (subs.getD k (0, 0)).2 ≠ 0 → (subs.getD k (0, 0)).1 = mac →
        (∀ j, j < k → ¬((subs.getD j (0, 0)).2 ≠ 0 ∧ (subs.getD j (0, 0)).1 = mac)) →
      ∃ t, exec (.notifySubscribe v) s = .next t ∧
        t.m.mgmt.subs = subs.set k (if mask = 0 then (0, 0) else (mac, mask)) ∧ t.m.mgmt.dict = s.m.mgmt.dict ∧ t.m.mem = s.m.mem) ∧
    ((∀ j, j < 8 → ¬((subs.getD j (0, 0)).2 ≠ 0 ∧ (subs.getD j (0, 0)).1 = mac)) → mask ≠ 0 →
      (∀ k, k < 8 → (subs.getD k (0, 0)).2 = 0 → (∀ j, j < k → (subs.getD j (0, 0)).2 ≠ 0) →
        ∃ t, exec (.notifySubscribe v) s = .next t ∧ t.m.mgmt.subs = subs.set k (mac, mask) ∧
          t.m.mgmt.dict = s.m.mgmt.dict ∧ t.m.mem = s.m.mem) ∧
      ((∀ k, k < 8 → (subs.getD k (0, 0)).2 ≠ 0) → exec (.notifySubscribe v) s = .next (refused 0x0E20000E s)))) ∧
  (∀ (s : State) (v : List Byte), writeState s.m.dev.st = 0 → storedOk s.m 0x1100 0x14 → v.length = 1 →
    (leVal v = 0xFF → ∃ t, exec (.counterClear v) s = .next t ∧
      ∀ i j, j < 256 → counterOf t.m i j =
        if i = 0x6E00 ∧ j = 4 then 1 else if 0x6000 ≤ i ∧ i < 0x7000 then 0 else counterOf s.m i j) ∧
    (1 ≤ leVal v → leVal v ≤ 15 → ∃ t, exec (.counterClear v) s = .next t ∧
      ∀ i j, j < 256 → counterOf t.m i j =
        if i = 0x6E00 ∧ j = 4 ∧ leVal v ≠ 14 then min (2 ^ 64 - 1) (counterOf s.m i j + 1)
        else if i = 0x6E00 ∧ j = 4 then 1 else if i / 256 = 0x60 + leVal v then 0 else counterOf s.m i j))

/-- R610, R611: in CONFIG an image that passes every check is applied at one instant: each record's value is stored, and
ImageStatus names the image; one that does not is refused with the abort of its first bad record, reported in ImageStatus, and
stores nothing.
Where the manual leaves a choice, the model's is stated (log entries 69, 73). -/
def Obligations.ImagesAppliedWhole : Prop :=
  ∀ (s : State) (v : List Byte), s.m.dev.st = .config → storedOk s.m 0x1100 0x11 → v.length ≤ 65536 →
    (imageBad s v = none → ∃ t, exec (.dictImageWrite v) s = .next t ∧ t.m.out.getLast? = some .wrote ∧
      t.m.mgmt.imageApplied = true ∧ t.m.mgmt.imageId = octs v 8 8 ∧ octs t.m.mgmt.imageStatus 0 1 = 1 ∧
      ∀ r ∈ (splitRecords (octs v 4 4) (v.drop 64)).getD [], r.index ≠ 0x7000 → dval t.m r.index r.sub = r.value) ∧
    (∀ k code, imageBad s v = some (k, code) → ∃ t, exec (.dictImageWrite v) s = .next t ∧
      t.m.out.getLast? = some (.refusedWith code) ∧ t.m.mgmt.dict = s.m.mgmt.dict ∧ t.boot = s.boot ∧
      octs t.m.mgmt.imageStatus 0 1 = 2 ∧ octs t.m.mgmt.imageStatus 8 4 = code % 2 ^ 32)

/-- R322, R315, R316: in a debug context DebugControl 1 halts the addressed core before its next bundle, 2 lets a halted one issue
one bundle, 3 lets it run.
R659: with TRST_N high the port shifts the register's bits out: the boundary register's, one for each bit shifted in, and
the identification register's, which no state changes; with TRST_N low it does nothing.
Where the manual leaves a choice, the model's is stated (log entries 52, 53). -/
def Obligations.DebugAndBoundaryScanAct : Prop :=
  (∀ s : State, writeState s.m.dev.st = 0 → storedOk s.m 0xA000 0x04 → debugCtx s.m (coreAt s.m (dnum s.m 0xA000 0x02)) = true →
    let k := dnum s.m 0xA000 0x02
    (∃ t, exec .debugHalt s = .next t ∧ (coreAt t.m k).dbg ≠ 0 ∧
      coreAt t.m k = { coreAt s.m k with dbg := (coreAt t.m k).dbg } ∧ (∀ j, j ≠ k → coreAt t.m j = coreAt s.m j)) ∧
    ((coreAt s.m k).dbg ≠ 0 → ∃ t, exec .debugStep s = .next t ∧
      coreAt t.m k = { coreAt s.m k with dbg := 0, dbgStep := true, dbgPass := true } ∧ (∀ j, j ≠ k → coreAt t.m j = coreAt s.m j)) ∧
    (∃ t, exec .debugResume s = .next t ∧ (coreAt t.m k).dbg = 0 ∧ (coreAt t.m k).dbgStep = false ∧
      (∀ j, j ≠ k → coreAt t.m j = coreAt s.m j))) ∧
  ((∀ (s : State) (r : Nat) (bits : List Bool), exec (.boundaryScan false r bits) s = .next s) ∧
  (∀ (s : State) (bits : List Bool), s.m.dev.st ≠ .off →
    exec (.boundaryScan true 1 bits) s = .next (onM (emit (.tdo (idBits bits.length))) s)) ∧
  (∀ (s : State) (bits : List Bool), s.m.dev.st ≠ .off →
    ∃ t out, exec (.boundaryScan true 0 bits) s = .next t ∧ t.m.out = s.m.out ++ [.tdo out] ∧ out.length = bits.length ∧
      t = onM (fun m => { m with out := t.m.out, freeCtr := m.freeCtr + bits.length }) s))

/-! ## Start-up, firmware, identity and security (19) -/

/-- R43, R44, R618: power-up, RESET_N and the reset command bring the machine to RESET, and the removal of power to OFF, with
every field as State.reset has it but what has already left the device and the model's counters of free values.
R619: each strap is the majority of its three samples, and the Unstable bit is set when the samples of any strap disagree; the
time base reads 3 µs after the third sample.
Where the manual leaves a choice, the model's is stated (log entries 3, 4, 6, 54). -/
def Obligations.ResetDiscardsAndStrapsRead : Prop :=
  ((∀ s : State, s.m.dev.st = .off → exec .powerUp s = .next (discarded .reset s)) ∧
  (∀ s : State, exec .powerRemoved s = .next (discarded .off s)) ∧
  (∀ s : State, s.m.dev.st ≠ .off → exec .resetNAssert s = .next (discarded .reset s)) ∧
  (∀ s : State, s.m.dev.st ≠ .off → s.m.dev.st ≠ .reset → s.m.dev.resetDelay = true →
    exec .stateResetDelayExpiry s = .next (discarded .reset s))) ∧
  (∀ (s : State) (a b c : Nat), s.m.dev.st = .reset → s.m.dev.released = false →
    ∃ t, exec (.resetNRelease a b c) s = .next t ∧ t.m.dev.released = true ∧ t.m.dev.time10 = 30000 ∧ t.boot = s.boot ∧
      (∀ k, k ∈ strapBits → tbit t.m.dev.strap k = ((tbit a k && tbit b k) || (tbit a k && tbit c k) || (tbit b k && tbit c k))) ∧
      (tbit t.m.dev.strap 15 = true ↔ ∃ k ∈ strapBits, ¬(tbit a k = tbit b k ∧ tbit a k = tbit c k)))

/-- R620 to R625, R570: the steps of start-up, each when the one before it has ended. SELFTEST reads the PUF; PLL lock; BIST
disables in each die the cluster that failed, or cluster 18, numbers the others 0 to 17 in ascending order (R11),
and goes to TRAIN; the HBM interfaces train; every byte of HBM and
staging memory is zeroed; the optical step ends; TRAIN ends in PREBOOT.
R621 to R623, R627: PLLs that do not lock, a die with two or more failing clusters, a side die whose SRAM fails and a stack
that does not train each take the device to FAULT, with the code and the first such die in FaultReport.
Where the manual leaves a choice, the model's is stated (log entries 1, 46, 54). -/
def Obligations.StartUpRunsOrFaults : Prop :=
  ((∀ (s : State) (puf : List Byte), s.m.dev.st = .reset → s.m.dev.released = true → puf.length = 4064 →
    ∃ t, exec (.selftestEntry puf) s = .next t ∧ t.m.dev.st = .selftest ∧ t.boot.puf = puf ∧ 50000 ≤ t.m.dev.time10) ∧
  (∀ s : State, s.m.dev.st = .selftest →
    exec .pllLock s = .next (onM (fun m => { m with dev := { m.dev with oclk := true } }) s)) ∧
  (∀ (s : State) (fails side : List Nat), s.m.dev.st = .selftest → s.m.dev.oclk = true →
    (∀ d, d < 16 → popcount 19 (fails.getD d 0 % 2 ^ 19) < 2) → (∀ d ∈ side, d < 16 ∨ 32 ≤ d) →
    ∃ t, exec (.bistComplete fails side) s = .next t ∧ t.m.dev.st = .train ∧
      ∀ d, d < 16 → t.boot.failMap.getD d 0 = fails.getD d 0 % 2 ^ 19 ∧
        (∀ k, k < 19 → tbit (fails.getD d 0) k = true → t.boot.repairMap.getD d 0 = k) ∧
        (fails.getD d 0 % 2 ^ 19 = 0 → t.boot.repairMap.getD d 0 = 18) ∧
        t.boot.clusterMap.getD d [] = (List.range 19).filter (fun k => k != t.boot.repairMap.getD d 0) ∧ t.m.mem = s.m.mem) ∧
  (∀ (s : State) (failed : List Nat), s.m.dev.st = .train → s.m.dev.hbmOk = false → (∀ k ∈ failed, 32 ≤ k) →
    ∃ t, exec (.hbmTrainingComplete failed) s = .next t ∧ t.m.dev.hbmOk = true ∧ t.m.dev.st = .train ∧
      t.boot.hbmStatus = List.replicate 32 0) ∧
  (∀ s : State, s.m.dev.st = .train → s.m.dev.hbmOk = true → s.m.dev.zeroed = false →
    ∃ t, exec .hbmZeroingComplete s = .next t ∧ t.m.dev.zeroed = true ∧ t.m.dev.opticalStep = true ∧ t.m.dev.st = .train ∧
      (∀ a, cellGet t.m.mem.phys a = 0#8 ∧ cellGet t.m.mem.staging a = 0#8)) ∧
  (∀ s : State, s.m.dev.st = .train → s.m.dev.opticalStep = true →
    ∃ t, exec .opticalWaitExpiry s = .next t ∧ t.m.dev.opticalStep = false ∧ t.m.dev.stepSix = true ∧ t.m.dev.st = .train ∧
      ∀ p, p < 2 → (cxlPort t.m p).training = (!(cxlPort s.m p).perst && tbit s.m.pwr.refs 2)) ∧
  (∀ s : State, s.m.dev.st = .train → s.m.dev.stepSix = true →
    ∃ t, exec .cxlTrainingTimeout s = .next t ∧ t.m.dev.st = .preboot ∧ t.m.dev.stepSix = false)) ∧
  ((∀ (s : State) (die : Nat), s.m.dev.st = .selftest → s.m.dev.oclk = false → die < 32 →
    ∃ t, exec (.pllLockTimeout die) s = .next t ∧ faultedBy 0x0C07 die t.m ∧ t.m.mem = s.m.mem ∧ t.boot = s.boot) ∧
  (∀ (s : State) (fails side : List Nat) (d : Nat), s.m.dev.st = .selftest → s.m.dev.oclk = true → d < 16 →
    2 ≤ popcount 19 (fails.getD d 0 % 2 ^ 19) → (∀ j, j < d → popcount 19 (fails.getD j 0 % 2 ^ 19) < 2) →
    ∃ t, exec (.bistComplete fails side) s = .next t ∧ faultedBy 0x0F01 d t.m) ∧
  (∀ (s : State) (fails : List Nat) (d : Nat), s.m.dev.st = .selftest → s.m.dev.oclk = true → 16 ≤ d → d < 32 →
    (∀ j, j < 16 → popcount 19 (fails.getD j 0 % 2 ^ 19) < 2) →
    ∃ t, exec (.bistComplete fails [d]) s = .next t ∧ faultedBy 0x0F02 d t.m) ∧
  (∀ (s : State) (k : Nat), s.m.dev.st = .train → s.m.dev.hbmOk = false → k < 32 →
    ∃ t, exec (.hbmTrainingComplete [k]) s = .next t ∧ faultedBy 0x0F03 (16 + k / 4) t.m))

/-- R630 to R632: the first waiting image is verified in PREBOOT. One that passes is accepted with its digest and version, and
every other waiting image is discarded and counted; one that fails is counted, reported in BootStatus with its abort, and the next one
waits for its turn.
R630: an image passes just when its format is correct, its key hashes to the root key's hash, its stepping is not above
the device's and its signature over its digest is correct. The root key's hash is a constant of the implementation: nothing of it is known.
Where the manual leaves a choice, the model's is stated (log entries 5, 6). -/
def Obligations.FirmwareVerified : Prop :=
  (∀ (s : State) (w : FwImage) (rest : List FwImage), s.m.dev.st = .preboot → s.boot.fwAccepted = false → s.boot.waiting = w :: rest →
    ∃ t, exec .firmwareVerifyComplete s = .next t ∧ t.m.dev.st = .preboot ∧
      ((verifyImage w.bytes).1 = 0 → t.boot.fwAccepted = true ∧ t.boot.fwDigest = shake256 (w.bytes.take (128 + octs w.bytes 12 4)) 64 ∧
        t.boot.fwVersion = octs w.bytes 8 4 ∧ t.boot.waiting = [w] ∧ octs t.boot.bootStatus 0 1 = 2 ∧
        (rest ≠ [] → counterOf t.m 0x6F00 0x01 = min (2 ^ 64 - 1) (counterOf s.m 0x6F00 0x01 + rest.length))) ∧
      ((verifyImage w.bytes).1 ≠ 0 → t.boot.fwAccepted = false ∧ t.boot.waiting = rest ∧
        counterOf t.m 0x6F00 0x01 = min (2 ^ 64 - 1) (counterOf s.m 0x6F00 0x01 + 1) ∧
        (rest = [] → octs t.boot.bootStatus 0 1 = 3 ∧ octs t.boot.bootStatus 4 4 = (verifyImage w.bytes).1))) ∧
  (∀ img : List Byte, (verifyImage img).1 = 0 ↔
    slice img 0 4 = [0x50#8, 0x59#8, 0x46#8, 0x57#8] ∧ octs img 4 2 = 1 ∧ 4096 ≤ octs img 12 4 ∧ octs img 12 4 ≤ 8388608 ∧
      octs img 12 4 % 64 = 0 ∧ img.length = 256 + octs img 12 4 ∧ zeroOcts img 16 8 = true ∧ zeroOcts img 81 47 = true ∧
      zeroOcts img (128 + octs img 12 4 + 114) 14 = true ∧ shake256 (slice img 24 57) 32 = Config.rootKeyHash ∧ octs img 6 2 ≤ 1 ∧
      Ed.verify (slice img 24 57) (shake256 (img.take (128 + octs img 12 4)) 64) (slice img (128 + octs img 12 4) 114) = true)

/-- R635 to R639: identity. The device enters CONFIG whatever derivation gives; with no helper block it enrols a fresh secret, with
one that fits it derives the saved one, with one that does not it has no identity; the PUF response is cleared either way.
R631, R635, R640: an image and a helper block are taken before CONFIG, until an image is accepted; a nonce builds and signs
the attestation report, where there is an identity, and is refused where there is none.
Where the manual leaves a choice, the model's is stated (log entries 5, 6). -/
def Obligations.IdentityAndDeliveries : Prop :=
  (∀ s : State, s.m.dev.st = .preboot → s.boot.fwAccepted = true →
    ∃ t, exec .identityDerivationComplete s = .next t ∧ t.m.dev.st = .config ∧ t.boot.puf = [] ∧ t.boot.waiting = [] ∧
      (s.boot.helper = none → t.boot.identityStatus = 2 ∧
        t.boot.secret = (List.range 32).map (fun i => Config.entropyByte (s.boot.entropy + i)) ∧
        t.boot.helperOut = xorBytes s.boot.puf (repKey t.boot.secret) ++ shake256 t.boot.secret 32 ∧
        t.boot.identityKey = Ed.publicKey (shake256 (identityLabel ++ t.boot.secret) 57)) ∧
      (∀ h, s.boot.helper = some h →
        let k := majorityKey (xorBytes s.boot.puf (slice h 0 4064))
        (shake256 k 32 = slice h 4064 32 → t.boot.identityStatus = 1 ∧ t.boot.secret = k ∧
          t.boot.identityKey = Ed.publicKey (shake256 (identityLabel ++ k) 57)) ∧
        (shake256 k 32 ≠ slice h 4064 32 → t.boot.identityStatus = 3 ∧ t.boot.identityKey = s.boot.identityKey ∧ raisedCode 0x0F05 t.m))) ∧
  ((∀ (s : State) (v : List Byte), s.m.dev.st = .selftest ∨ s.m.dev.st = .train ∨ s.m.dev.st = .preboot →
    storedOk s.m 0x1200 0x10 → v.length ≤ 8388864 →
    (s.boot.fwAccepted = false → ∃ t, exec (.firmwareImageWrite v) s = .next t ∧ t.boot.waiting = s.boot.waiting ++ [⟨v, 0, none⟩] ∧
      t.m = doneWrite s.m) ∧
    (s.boot.fwAccepted = true → exec (.firmwareImageWrite v) s = .next (refused 0x0E200004 s))) ∧
  (∀ (s : State) (v : List Byte), s.m.dev.st = .preboot → storedOk s.m 0x1200 0x11 → v.length = 4096 →
    exec (.pufHelperWrite v) s = .next (onM (doneWrite) (onB (fun b => { b with helper := some v }) s))) ∧
  (∀ (s : State) (v : List Byte), writeState s.m.dev.st = 0 → storedOk s.m 0x7000 0x10 → v.length = 32 →
    (s.boot.identityStatus = 1 ∨ s.boot.identityStatus = 2 →
      ∃ t, exec (.attestNonce v) s = .next t ∧ t.boot.attestReport = attestBody s v ++
        Ed.sign (shake256 (identityLabel ++ s.boot.secret) 57) (shake256 (attestBody s v) 64) ++ List.replicate 6 0 ∧
        t.boot = { s.boot with attestReport := t.boot.attestReport } ∧
          counterOf t.m 0x6F00 0x02 = min (2 ^ 64 - 1) (counterOf s.m 0x6F00 0x02 + 1)) ∧
    (s.boot.identityStatus ≠ 1 → s.boot.identityStatus ≠ 2 → exec (.attestNonce v) s = .next (refused 0x0F200006 s))))

/-- R641: `0x7000.20 DebugKeyHash` holds the 32-octet hash; only the first write after reset is accepted, and every later write is
refused with DEBUG_KEY_LOCKED and changes nothing else. After a reset the hash is zero and no write has come. -/
def Obligations.KeyHashWrittenOnce : Prop :=
  (∀ (s : State) (v : List Byte), calm s.m.dev.st → storedOk s.m 0x7000 0x20 → v.length = 32 →
    (s.boot.keyLocked = false → exec (.debugKeyHash v) s =
      .next (onM (doneWrite) (onB (fun b => { b with keyHash := v, keyLocked := true }) s))) ∧
    (s.boot.keyLocked = true → exec (.debugKeyHash v) s = .next (refused 0x0F200009 s))) ∧
  State.reset.boot.keyLocked = false ∧ State.reset.boot.keyHash = List.replicate 32 0#8

/-- R642: each read of `0x7000.21 DebugChallenge` returns 32 fresh octets from the entropy source, and voids every earlier
challenge: the octets returned are the next 32 of the source, no octet of the source is used twice, and they are from then on
the one challenge that a token may carry. -/
def Obligations.ChallengesAreFresh : Prop :=
  ∀ s : State, readAccess s.m.dev.st 0x7000 0x21 = 0 →
    ∃ t v, exec .debugChallenge s = .next t ∧ v = (List.range 32).map (fun i => Config.entropyByte (s.boot.entropy + i)) ∧
      t.m.out = s.m.out ++ [.value v] ∧ t.boot = { s.boot with challenge := some v, entropy := s.boot.entropy + 32 } ∧
      ∀ (b : Boot) (tok : List Byte), b.challenge = t.boot.challenge → (tokenKind b tok).isSome → slice tok 8 32 = v

/-- R643, R644: a token with the device's serial number, the challenge that stands, a key whose hash is the root's or the owner's
and a correct signature grants that key's kind; any other is refused and counted; either voids the challenge. Without an
authorisation DebugEnable is not set to 1.
Where the manual leaves a choice, the model's is stated (log entry 5). -/
def Obligations.TokensGrantDebug : Prop :=
  (∀ (s : State) (v : List Byte), writeState s.m.dev.st = 0 → storedOk s.m 0x7000 0x22 → v.length = 224 →
    (∀ k, tokenKind s.boot v = some k → ∃ t, exec (.debugToken v) s = .next t ∧
      t.boot = { s.boot with challenge := none, keyKind := k } ∧ t.m.out.getLast? = some .wrote) ∧
    (tokenKind s.boot v = none → ∃ t, exec (.debugToken v) s = .next t ∧ t.boot = { s.boot with challenge := none } ∧
      t.m.out.getLast? = some (.refusedWith 0x0F200007) ∧
      counterOf t.m 0x6F00 0x03 = min (2 ^ 64 - 1) (counterOf s.m 0x6F00 0x03 + 1))) ∧
  (∀ (b : Boot) (tok : List Byte) (k : Nat), tokenKind b tok = some k →
    slice tok 0 8 = serialNumber b ∧ b.challenge = some (slice tok 8 32) ∧
    Ed.verify (slice tok 40 57) (shake256 (slice tok 0 104) 64) (slice tok 104 114) = true ∧
    ((k = 1 ∧ shake256 (slice tok 40 57) 32 = Config.rootKeyHash) ∨
     (k = 2 ∧ shake256 (slice tok 40 57) 32 = b.keyHash ∧ b.keyHash.any (· != 0) = true))) ∧
  (∀ s : State, calm s.m.dev.st → storedOk s.m 0xA000 0x01 →
    (s.boot.keyKind ≠ 0 → exec (.debugEnableWrite [1#8]) s = .next (wrote 0xA000 0x01 [1#8] s)) ∧
    (s.boot.keyKind = 0 → exec (.debugEnableWrite [1#8]) s = .next (refused 0x0E20000F s)) ∧
    exec (.debugEnableWrite [0#8]) s = .next (wrote 0xA000 0x01 [0#8] s))

/-- R618, R626: the state commands, from every state that the table lists. RESET waits 10 ms; CONFIG, with no context loaded; READY, from
CONFIG or, with no context in HALT, from HALT, measures PowerFloor; RUN releases every HELD context; QUENCH asks every context in RUN to
hold, and is entered at once where none runs; HALT puts every loaded context into HALT. Each is answered.
R626: where the server takes writes, a state command from a state that the table does not list for it is refused with
STATE_COMMAND and changes nothing. Elsewhere every one is refused with the code of the state.
Where the manual leaves a choice, the model's is stated (log entries 44, 45, 68). -/
def Obligations.StateCommandsActOrRefuse : Prop :=
  ((∀ s : State, writeState s.m.dev.st = 0 →
    exec .stateReset s =
      .next (onM (fun m => doneWrite (count 0x6F00 0x06 { m with dev := { m.dev with resetDelay := true } })) s)) ∧
  (∀ s : State, s.m.dev.st = .ready ∨ s.m.dev.st = .halt → s.m.ctxs.list.any loaded = false →
    ∃ t, exec .stateConfig s = .next t ∧ t.m.dev.st = .config ∧ t.m.ctxs = s.m.ctxs ∧ t.m.mem = s.m.mem ∧
      t.m.mgmt.dict = s.m.mgmt.dict ∧ t.m.out.getLast? = some .wrote ∧ countedOnce 0x6F00 0x06 s.m t.m) ∧
  (∀ (s : State) (w : Nat),
    s.m.dev.st = .config ∨ (s.m.dev.st = .halt ∧ s.m.ctxs.list.all (fun c => c.st != .halt) = true) →
    ∃ t, exec (.stateReady w) s = .next t ∧ t.m.dev.st = .ready ∧ t.m.pwr.floor = w % 2 ^ 32 ∧ t.m.ctxs = s.m.ctxs ∧
      (s.m.mgmt.imageApplied = false → raisedCode 0x0E04 t.m) ∧ t.m.mgmt.dict = s.m.mgmt.dict ∧ t.m.out.getLast? = some .wrote) ∧
  (∀ s : State, s.m.dev.st = .ready ∨ s.m.dev.st = .quench →
    exec .stateRun s = .next (onM (fun m => doneWrite (count 0x6F00 0x06 (enterRun m))) s)) ∧
  (∀ s : State, s.m.dev.st = .ready ∨ s.m.dev.st = .quench →
    (∀ i, i < 16 → (ctxAt s.m i).st ≠ .run ∧ (ctxAt s.m i).grant = 0 ∧ (ctxAt s.m i).repairs = []) →
    ∃ t, exec .stateRun s = .next t ∧ t.m.dev.st = .run ∧
      ∀ i, i < 16 → (ctxAt t.m i).st = (if (ctxAt s.m i).st = .held then .idle else (ctxAt s.m i).st)) ∧
  (∀ s : State, s.m.dev.st = .run →
    ∃ t, exec .stateQuench s = .next t ∧ t.m.out.getLast? = some .wrote ∧
      (∀ i, i < 16 → (ctxAt t.m i).st = (ctxAt s.m i).st ∧ ((ctxAt s.m i).st = .run → (ctxAt t.m i).holdReq = true)) ∧
      ((∀ i, i < 16 → (ctxAt s.m i).st ≠ .run ∧ (ctxAt s.m i).st ≠ .halt) → t.m.dev.st = .quench) ∧
      ((∃ i, i < 16 ∧ (ctxAt s.m i).st = .run) → t.m.dev.st = .run)) ∧
  (∀ s : State, s.m.dev.st = .ready ∨ s.m.dev.st = .run ∨ s.m.dev.st = .quench →
    ∃ t, exec .stateHalt s = .next t ∧ t.m.dev.st = .halt ∧ t.m.out.getLast? = some .wrote ∧
      ∀ i, i < 16 → (ctxAt t.m i).st = (if (ctxAt s.m i).st = .free then .free else .halt))) ∧
  ((∀ s : State, s.m.dev.st = .config ∨ s.m.dev.st = .run ∨ s.m.dev.st = .quench ∨
      ((s.m.dev.st = .ready ∨ s.m.dev.st = .halt) ∧ s.m.ctxs.list.any loaded = true) →
    exec .stateConfig s = .next (refused 0x0F200008 s)) ∧
  (∀ (s : State) (w : Nat), s.m.dev.st = .ready ∨ s.m.dev.st = .run ∨ s.m.dev.st = .quench ∨
      (s.m.dev.st = .halt ∧ s.m.ctxs.list.any (fun c => c.st == .halt) = true) →
    exec (.stateReady w) s = .next (refused 0x0F200008 s)) ∧
  (∀ s : State, s.m.dev.st = .config ∨ s.m.dev.st = .run ∨ s.m.dev.st = .halt → exec .stateRun s = .next (refused 0x0F200008 s)) ∧
  (∀ s : State, s.m.dev.st = .config ∨ s.m.dev.st = .ready ∨ s.m.dev.st = .quench ∨ s.m.dev.st = .halt →
    exec .stateQuench s = .next (refused 0x0F200008 s)) ∧
  (∀ s : State, s.m.dev.st = .config ∨ s.m.dev.st = .halt → exec .stateHalt s = .next (refused 0x0F200008 s)) ∧
  (∀ (s : State) (w : Nat), serverRuns s.m.dev.st = true → writeState s.m.dev.st ≠ 0 →
    ∀ c ∈ [Instr.stateReset, .stateConfig, .stateReady w, .stateRun, .stateQuench, .stateHalt],
      exec c s = .next (refused (writeState s.m.dev.st) s)))

/-! ## The core (07 to 11) -/

/-- R282, R278, R286, R287: a bundle with an S-slot word only. A three-register operation writes its result, modulo 2^32, to Rd and
nothing else; `sc.addi` adds its signed immediate; `sc.jmp` goes to its target and spends one cycle more, now or, where that cycle is
gated, later; a word whose guard is off does nothing. All others go on to the next bundle, or back in a loop.
R305, R306, R271: a bundle that an interlock holds does not issue. Registers, program counter and operand cache stay as they
are; the cycle passes, and is counted. An exhausted loop leaves its place (R287).
R536, R537: a gated cycle issues nothing: registers, operand cache, program counter and vector pipeline stand.
Where the manual leaves a choice, the model's is stated (log entry 12). -/
def Obligations.BundleIssuesOrWaits : Prop :=
  ((∀ (s : State) (k w : Nat), betweenBundles s.m k → scalarOnly (coreAt s.m k) w → guardOn (coreAt s.m k).p w = true →
    1 ≤ swOp w → swOp w ≤ 0x0B → fld w 6 0 = 0 →
    ∃ t, exec (.bundleIssue k) s = .next t ∧
      let c := coreAt s.m k
      let d := coreAt t.m k
      d.s = c.s.set (fld w 21 17) (sAlu (swOp w) (sreg c (fld w 16 12)) (sreg c (fld w 11 7)) % 2 ^ 32) ∧
      d.a = c.a ∧ d.p = c.p ∧ d.v = c.v ∧ d.opc = c.opc ∧ (d.pc, d.loops) = bodyEnd c.pc c.loops ∧ d.aclk = c.aclk + 1 ∧
      t.m.mem = s.m.mem ∧ countedOnce 0x6100 0x01 s.m t.m) ∧
  (∀ (s : State) (k w : Nat), betweenBundles s.m k → scalarOnly (coreAt s.m k) w → guardOn (coreAt s.m k).p w = true → swOp w = 0x10 →
    ∃ t, exec (.bundleIssue k) s = .next t ∧
      let c := coreAt s.m k
      let d := coreAt t.m k
      d.s = c.s.set (fld w 21 17) (toU 32 ((sreg c (fld w 16 12) : Int) + sxt 12 (fld w 11 0)) % 2 ^ 32) ∧
      d.a = c.a ∧ d.p = c.p ∧ d.v = c.v ∧ d.opc = c.opc ∧ (d.pc, d.loops) = bodyEnd c.pc c.loops ∧ t.m.mem = s.m.mem) ∧
  (∀ (s : State) (k w : Nat), betweenBundles s.m k → scalarOnly (coreAt s.m k) w → guardOn (coreAt s.m k).p w = true → swOp w = 0x30 →
    fld w 2 0 = 0 →
    ∃ t, exec (.bundleIssue k) s = .next t ∧
      let c := coreAt s.m k
      let d := coreAt t.m k
      let free := gate (modCore k (fun x => { x with aclk := x.aclk + 1 }) s.m) k = 0
      sameRegs c d ∧ d.opc = c.opc ∧ d.pc = fld w 21 11 ∧ d.loops = c.loops ∧ t.m.mem = s.m.mem ∧
      (free → d.aclk = c.aclk + 2 ∧ d.bubble = false) ∧ (¬free → d.aclk = c.aclk + 1 ∧ d.bubble = true) ∧
      countedOnce 0x6100 0x06 s.m t.m) ∧
  (∀ (s : State) (k w : Nat), betweenBundles s.m k → scalarOnly (coreAt s.m k) w → guardOn (coreAt s.m k).p w = false →
    ∃ t, exec (.bundleIssue k) s = .next t ∧
      let c := coreAt s.m k
      let d := coreAt t.m k
      sameRegs c d ∧ d.opc = c.opc ∧ (d.pc, d.loops) = bodyEnd c.pc c.loops ∧ t.m.mem = s.m.mem)) ∧
  ((∀ (s : State) (k : Nat), betweenBundles s.m k →
    holdBits (modCore k dropLoops s.m) k (coreAt s.m k) (nextBundle (coreAt s.m k)) ≠ 0 →
    ∃ t, exec (.bundleIssue k) s = .next t ∧
      let c := coreAt s.m k
      let d := coreAt t.m k
      sameRegs c d ∧ d.opc = c.opc ∧ d.pc = c.pc ∧ d.loops = c.loops ∧ d.st = .running ∧ d.aclk = c.aclk + 1 ∧
      (c.ops = [] → c.mvs = [] → d.acc = c.acc) ∧
      d.rings = c.rings ∧ t.m.mem = s.m.mem ∧ countedOnce 0x6100 0x02 s.m t.m) ∧
  (∀ (s : State) (k : Nat), s.m.cores.has k = true → issues s.m (coreAt s.m k) = true → gate s.m k ≠ 0 → (coreAt s.m k).dbgOps = [] →
    ∃ t, exec (.bundleIssue k) s = .next t ∧
      let c := coreAt s.m k
      let d := coreAt t.m k
      sameRegs c d ∧ d.opc = c.opc ∧ d.pc = c.pc ∧ d.loops = c.loops ∧ d.pipe = c.pipe ∧ d.vpend = c.vpend ∧
      d.aclk = c.aclk + 1 ∧ t.m.mem = s.m.mem) ∧
  (∀ (s : State) (k : Nat), s.m.cores.has k = true →
    ∃ t, exec (.loopEnd k) s = .next t ∧
      coreAt t.m k = { coreAt s.m k with loops := (coreAt s.m k).loops.filter (fun l => l.left != 0) } ∧
      ∀ j, j ≠ k → coreAt t.m j = coreAt s.m j))

/-- R243, R250, R264, R228, R259: the arrays' completions, in the cycle after they are due. A weight bank becomes ready, and nothing
else changes. Of an array's operations whose retirement cycle has passed, the one that retires earliest leaves; a retiring `mm.mul` replaces
the elements of the rows that it still has to write by its results. It and a retiring matrix-vector operation leave registers, operand cache
and issue as they are.
R341, R342, R387: the drain whose last row was read first is written, row by row, to its buffer, leaves the core,
and posts its entry where it
has a ring; registers and accumulators stay. A tile for the geyser queue is handed over whole, or waits, and each cycle of the core in
which it waits is counted (R346, R455). R503: a drain whose step number disagrees with its complement puts its context into HALT.
Where the manual leaves a choice, the model's is stated (log entries 12, 13). -/
def Obligations.ArrayOperationsAndDrainsComplete : Prop :=
  ((∀ (s : State) (k arr bank : Nat), arr < 2 → bank < 2 →
    let b := bankAt (coreAt s.m k) (bankIx arr bank)
    b.loading = true → b.plan = [] → b.ready ≤ (coreAt s.m k).aclk →
    ∃ t, exec (.weightLoadReady k arr bank) s = .next t ∧ t.m.mem = s.m.mem ∧ t.m.cnt = s.m.cnt ∧
      coreAt t.m k = { coreAt s.m k with banks := (coreAt s.m k).banks.set (bankIx arr bank) { b with loading := false } }) ∧
  (∀ (s : State) (k arr : Nat) (o : MxOp), o ∈ (coreAt s.m k).ops → o.arr = arr → o.plan = [] → o.retire < (coreAt s.m k).aclk →
    (∀ x ∈ (coreAt s.m k).ops, x.arr = arr → x.plan = [] → x ≠ o → o.retire < x.retire) →
    ∃ t, exec (.matrixOpRetire k arr) s = .next t ∧
      let c := coreAt s.m k
      let d := coreAt t.m k
      (cCompact o.cfg = true → stepPairOk (ctxAt s.m c.ctx) = true) → d.ops = c.ops.erase o ∧ sameRegs c d ∧ d.opc = c.opc ∧ d.pc = c.pc ∧ d.st = c.st ∧ d.rings = c.rings ∧ t.m.mem = s.m.mem ∧
      (o.res = [] → d.acc = c.acc) ∧
      (o.op = 0x02 → cCompact o.cfg = false → cellsWf c.acc → (o.res.map (fun r => r.2.1)).Nodup →
        (∀ r ∈ o.res, r.2.2.length ≤ 32) →
        ∀ r ∈ o.res, ∀ j, j < r.2.2.length →
          accGet d o.arr o.tile false (o.row0 + r.2.1) j = (r.2.2.getD j 0) % 2 ^ 32)) ∧
  (∀ (s : State) (k : Nat) (o : MvOp), o ∈ (coreAt s.m k).mvs → o.loads = [] → o.plan = [] → o.retire < (coreAt s.m k).aclk →
    (∀ x ∈ (coreAt s.m k).mvs, x.loads = [] → x.plan = [] → x ≠ o → o.retire < x.retire) →
    (cCompact o.cfg = true → stepPairOk (ctxAt s.m (coreAt s.m k).ctx) = true) →
    ∃ t, exec (.mvRunRetire k) s = .next t ∧
      let c := coreAt s.m k
      let d := coreAt t.m k
      d.mvs = c.mvs.erase o ∧ sameRegs c d ∧ d.opc = c.opc ∧ d.pc = c.pc ∧ d.st = c.st ∧ d.rings = c.rings ∧ t.m.mem = s.m.mem ∧
      (o.done = true → d.acc = c.acc) ∧ countedOnce 0x6200 0x08 s.m t.m)) ∧
  ((∀ (s : State) (k : Nat) (d : Drain) (r : List Drain), stepPairOk (ctxAt s.m (coreAt s.m k).ctx) = true →
    readDrains s.m k = d :: r → d.dest ≠ 1 → eRingEn d.epi = false →
    ∃ t, exec (.drainComplete k) s = .next t ∧
      (coreAt t.m k).drains = (coreAt s.m k).drains.erase d ∧ sameRegs (coreAt s.m k) (coreAt t.m k) ∧
      (coreAt t.m k).acc = (coreAt s.m k).acc ∧ (coreAt t.m k).pc = (coreAt s.m k).pc ∧
      (coreAt t.m k).rings = (coreAt s.m k).rings ∧ t.m.mem.phys = s.m.mem.phys ∧
      (d.dest = 2 → (coreAt t.m k).opc = (coreAt s.m k).opc) ∧ (d.dest ≠ 2 → t.m.mem = s.m.mem)) ∧
  (∀ (s : State) (k : Nat) (d : Drain) (r : List Drain), stepPairOk (ctxAt s.m (coreAt s.m k).ctx) = true →
    readDrains s.m k = d :: r → d.dest ≠ 1 → eRingEn d.epi = true →
    ringTakes (.drain k d.arr) (ringAt (coreAt s.m k) (eRing d.epi)) →
    ∃ t, exec (.drainComplete k) s = .next t ∧
      (coreAt t.m k).drains = (coreAt s.m k).drains.erase d ∧
      (ringAt (coreAt t.m k) (eRing d.epi)).entries = (ringAt (coreAt s.m k) (eRing d.epi)).entries ++ [drainEntry d]) ∧
  (∀ (s : State) (k : Nat) (d : Drain) (r : List Drain) (m1 : Mach), stepPairOk (ctxAt s.m (coreAt s.m k).ctx) = true →
    readDrains s.m k = d :: r → d.dest = 1 → deliverTile k d s.m = some m1 →
    ∃ t, exec (.drainComplete k) s = .next t ∧ (coreAt t.m k).drains = (coreAt m1 k).drains.erase d ∧ t.m.ctxs = m1.ctxs) ∧
  (∀ (s : State) (k : Nat) (d : Drain), stepPairOk (ctxAt s.m (coreAt s.m k).ctx) = true →
    readDrains s.m k = [d] → d.dest = 1 → deliverTile k d s.m = none → exec (.drainComplete k) s = .next s) ∧
  (∀ (m : Mach) (k : Nat) (lanes : Bool) (c : Core), queueWaits m k ≠ 0 →
    countedOnce 0x6300 0x05 m (sideCycle lanes c k m) ∧
    counterOf (sideCycle lanes c k m) 0x6A00 0x06 = min (2 ^ 64 - 1) (counterOf m 0x6A00 0x06 + queueWaits m k)) ∧
  (∀ (s : State) (k : Nat), stepPairOk (ctxAt s.m (coreAt s.m k).ctx) = false → (ctxAt s.m (coreAt s.m k).ctx).st = .run →
    (coreAt s.m k).ctx < 16 →
    ∃ t, exec (.drainComplete k) s = .next t ∧ failedWith (coreAt s.m k).ctx 0x0B07 0x03 t.m ∧ t.m.cores = s.m.cores ∧ t.m.mem = s.m.mem))

/-- R303, R19, R394: a transfer moves its octets, leaves the queue and posts its entry. Into the operand cache from memory or staging;
out of it to staging, or, for a parameter or optimiser object of the context, into the update set with memory unchanged, or into
memory that the context may write, over several of its objects too (R55). An access to memory leaves what the other objects hold as it is.
Where the manual leaves a choice, the model's is stated (log entry 15). -/
def Obligations.TransfersMoveOctets : Prop :=
  ∀ (s : State) (k dir len addr off ring pc : Nat) (got : List (Nat × List Byte)) (rest : List TCmd),
    issues s.m (coreAt s.m k) = true → posting s.m (.te k) = false → (coreAt s.m k).par = [] → s.m.mem.stagingBad = [] →
    takeXfer (coreAt s.m k).queue = some (.xfer dir len addr off ring pc 0 got, rest) →
    ringTakes (.te k) (ringAt (coreAt s.m k) ring) →
    let c := coreAt s.m k
    let bs := clipTo 262144 off (opcGet c off len)
    (dir = 0 → readCheck s.m.mem addr len = 0 → ∃ t, exec (.xferComplete k) s = .next t ∧ transferPosted k ring len rest c t.m ∧
      (coreAt t.m k).opc = cellsPut c.opc off (clipTo 262144 off (xferBytes s.m addr len got)) ∧ onlyAccess s.m.mem t.m.mem) ∧
    (∀ v, dir = 1 → objHolding s.m.mem addr bs.length = some v → readCheck s.m.mem addr bs.length = 0 → oClass v < 2 → oCtx v = c.ctx →
      oShared v = false → c.ctx < 16 →
      ∃ t, exec (.xferComplete k) s = .next t ∧ transferPosted k ring len rest c t.m ∧ onlyAccess s.m.mem t.m.mem ∧
        (ctxAt t.m c.ctx).upd = (ctxAt s.m c.ctx).upd ++ [⟨addr, paramKind (oWidth v), bs, oId v⟩]) ∧
    (∀ v, dir = 1 → objHolding s.m.mem addr bs.length = some v → writeCheck s.m.mem c.ctx addr bs.length = 0 → 2 < oClass v →
      ∃ t, exec (.xferComplete k) s = .next t ∧ transferPosted k ring len rest c t.m ∧ t.m.mem.phys = (vput addr bs s.m.mem).phys ∧
        t.m.mem.staging = s.m.mem.staging ∧ t.m.ctxs = s.m.ctxs) ∧
    (dir = 1 → objHolding s.m.mem addr bs.length = none → writeCheck s.m.mem c.ctx addr bs.length = 0 →
      ∃ t, exec (.xferComplete k) s = .next t ∧ transferPosted k ring len rest c t.m ∧ t.m.mem.phys = (vput addr bs s.m.mem).phys ∧
        t.m.mem.staging = s.m.mem.staging ∧ t.m.ctxs = s.m.ctxs) ∧
    (dir = 2 → ∃ t, exec (.xferComplete k) s = .next t ∧ transferPosted k ring len rest c t.m ∧ t.m.mem = s.m.mem ∧
      (coreAt t.m k).opc =
        cellsPut c.opc off (clipTo 262144 off (cellsGet s.m.mem.staging (stagAddr (clusterOf k) addr) (min len (2 ^ 22 - addr))))) ∧
    (dir = 3 → ∃ t, exec (.xferComplete k) s = .next t ∧ transferPosted k ring len rest c t.m ∧ (coreAt t.m k).opc = c.opc ∧
      t.m.mem.phys = s.m.mem.phys ∧
      t.m.mem.staging =
        cellsPut s.m.mem.staging (stagAddr (clusterOf k) addr) (clipTo (2 ^ 22) addr (opcGet c off (min len (262144 - off)))))

/-- R394, R393, R387: streams. The next queued stream of a free ring begins at its first slot, and acquires every free slot at once;
R386, R403: a ring whose counts or descriptor fail their complements raises STR_RING_CHECK then, and is counted. A slot
whose rows are in HBM lands in the ring's next buffer and is committed: Head goes up by one with its complement. A post that waited
enters its ring, and its unit goes on.
Where the manual leaves a choice, the model's is stated (log entry 16). -/
def Obligations.StreamsAndPostsGoOn : Prop :=
  (∀ (s : State) (k ring id pc : Nat) (rest : List TCmd) (p : Pair) (o : Nat), issues s.m (coreAt s.m k) = true →
    (ringAt (coreAt s.m k) ring).active = none → takeStream s.m k (coreAt s.m k).ctx ring (coreAt s.m k).queue = some (id, pc, rest) →
    streamOf s.m (coreAt s.m k).ctx id = some p → pairOk 512 p.v p.c = true → stCore p.v = k →
    objAt s.m.mem (stVa p.v) = some o → stVa p.v + streamSpan p.v ≤ (objSpan o).2 → readCheck s.m.mem (stVa p.v) 1 = 0 →
    entryBad s.m.mem (stVa p.v) = false →
    ∃ t, exec (.streamStart k ring) s = .next t ∧ (coreAt t.m k).queue = rest ∧
      let r := ringAt (coreAt s.m k) ring
      let q := ringAt (coreAt t.m k) ring
      q.active = some ⟨id, 0, stSlots p.v, pc⟩ ∧ q.head = r.head ∧ q.tail = r.tail ∧ q.racq = r.racq ∧ q.entries = r.entries ∧
      (ringOk r = true → rdKind r ≠ 2 → r.wacq < 2 ^ 32 →
        q.wacq = (r.wacq + min (stSlots p.v - inFetch r) (rdSlots r - diff32 r.wacq r.tail)) % 2 ^ 32) ∧
      (ringOk r = false → (coreAt s.m k).rings.has ring = true → countedOnce 0x6800 0x09 s.m t.m ∧
        (notifies s.m.dev.st = true → raisedCode 0x0801 t.m)) ∧
      sameRegs (coreAt s.m k) (coreAt t.m k) ∧ t.m.mem = s.m.mem) ∧
  (∀ (s : State) (k ring : Nat) (a : Active) (p : Pair), issues s.m (coreAt s.m k) = true → (coreAt s.m k).rings.has ring = true →
    let r := ringAt (coreAt s.m k) ring
    ringOk r = true → inFetch r ≠ 0 → rdKind r ≠ 2 → r.active = some a → streamOf s.m (coreAt s.m k).ctx a.index = some p →
    pairOk 512 p.v p.c = true → hbmCheck s.m (streamRows p.v a.next) = 0 →
    ∃ t, exec (.streamSlotCommit k ring) s = .next t ∧
      let q := ringAt (coreAt t.m k) ring
      let bs := (streamRows p.v a.next).flatMap (fun x => vget s.m.mem x.1 x.2)
      q.head = (r.head + 1) % 2 ^ 32 ∧ q.headC = cpl 32 q.head ∧ q.wacq = r.wacq ∧ q.tail = r.tail ∧ q.racq = r.racq ∧
      q.active = (if a.next + 1 ≥ a.limit then none else some { a with next := a.next + 1 }) ∧
      t.m.mem.phys = s.m.mem.phys ∧
      (rdWhere r = 1 → t.m.mem.staging = cellsPut s.m.mem.staging (stagAddr (clusterOf k) (slotOffset r r.head)) bs ∧
        (coreAt t.m k).opc = (coreAt s.m k).opc) ∧
      (rdWhere r ≠ 1 → (coreAt t.m k).opc = cellsPut (coreAt s.m k).opc (slotOffset r r.head) bs ∧
        t.m.mem.staging = s.m.mem.staging) ∧
      countedOnce 0x6800 0x01 s.m t.m) ∧
  (∀ (s : State) (k ring : Nat) (w : Post) (rest : List Post),
    let r := ringAt (coreAt s.m k) ring
    r.waiting = w :: rest → ringOk r = true → ringRoom r = true →
    ∃ m1, exec (.completionPost k ring) s = .next (onM (fun _ => afterPost w.src m1) s) ∧
      let q := ringAt (coreAt m1 k) ring
      q.waiting = rest ∧ q.entries = r.entries ++ [w.entry] ∧ q.head = (r.head + 1) % 2 ^ 32 ∧ q.headC = cpl 32 q.head ∧ q.tail = r.tail ∧
      sameRegs (coreAt s.m k) (coreAt m1 k) ∧ m1.mem = s.m.mem ∧ ∀ j, j ≠ k → coreAt m1 j = coreAt s.m j)

/-- R34, R265, R396, R489: the layer drain ends once nothing of the layer is in flight on the core and its rings are sound: its tiles are
zero
and its banks and held vectors empty, the layer's slots are released, and it issues again; then the layer's transfer entries fire.
Where the manual leaves a choice, the model's is stated (log entry 17). -/
def Obligations.LayerDrainEndsTheLayer : Prop :=
  ∀ (s : State) (k : Nat), (coreAt s.m k).st = .layer → issues s.m (coreAt s.m k) = true → drainQuiet (coreAt s.m k) = true →
    layerLanded s.m (coreAt s.m k) = true → brokenRing s.m (coreAt s.m k) = none →
    ∃ m1, exec (.layerDrainComplete k) s =
        .next (onM (fun _ => fireEntries (coreAt s.m k).ctx (some k) ((coreAt s.m k).layer - 1) m1) s) ∧
      let d := coreAt m1 k
      d.st = .running ∧ d.acc = [] ∧ d.heldShape = none ∧ (∀ i, i < 4 → bankAt d i = { ready := (coreAt s.m k).aclk }) ∧
      sameRegs (coreAt s.m k) d ∧ d.opc = (coreAt s.m k).opc ∧ d.pc = (coreAt s.m k).pc ∧ m1.mem = s.m.mem ∧
      (∀ p ∈ d.rings, ∀ x ∈ p.2.spans, ofLayer s.m (coreAt s.m k).ctx x.1 ((coreAt s.m k).layer - 1) = false) ∧
      (∀ j, j ≠ k → coreAt m1 j = coreAt s.m j)

/-! ## Samplers, gather/scatter engines and tiers (02 to 04) -/

/-- R115, R107, R116: a sampler that is free, and whose last entry is in its ring, takes the oldest request of its queue. Its frontier is
the seeds without repeats, and it goes on with its first hop: a hop that needs nothing more waits to be written; where it needs remote
nodes, up to 256 of them, each gets one forward, in order.
R109, R111 to R113, R387: a hop whose answers are all there is written at its place in the output and its entry posted; once the entry is
in its ring the sampler is free after the last hop, and otherwise goes on from the nodes found, behind the block; forwards that waited at it
are served in the same turn. R85: what it has read of a graph's structures it keeps in its cache.
Where the manual leaves a choice, the model's is stated (log entries 1, 59, 72, 82). -/
def Obligations.SamplerRequestsRun : Prop :=
  (∀ (s : State) (k key d : Nat) (rest : List Nat) (seeds : List (Nat × Nat)), (smpAt s.m k).run = none →
    (smpAt s.m k).queue = key :: rest → inPass (ctxAt s.m (key / 65536)) = true → posting s.m (.sampler k) = false →
    smpDesc s.m key = .ok d → seedList s.m d = .ok seeds →
    let run : SmpRun := { key := key, out := sdOut d, frontier := seeds.foldl (fun u x => (lookupInsert (sdTimeMode d) u x).2) [] }
    ∃ m1, exec (.samplerRequestStart k) s = .next (onM (fun _ => smpAdvance k m1) s) ∧
      smpAt m1 k = { smpAt s.m k with queue := rest, run := some run } ∧ onlyAccess s.m.mem m1.mem ∧ m1.ctxs = s.m.ctxs) ∧
  (∀ (m : Mach) (k d : Nat) (r : SmpRun), (smpAt m k).run = some r → smpDesc m r.key = .ok d →
    stepPairOk (ctxAt m (r.key / 65536)) = true → ctxOfTag m (ctxAt m (r.key / 65536)).jobTag = some (r.key / 65536) →
    let c := ctxAt m (r.key / 65536)
    let m1 := smpAdvance k m
    (∀ (es : List (Nat × Nat × Nat)) (u : List (Nat × Nat)) (cs : List Nat) (b : Bool), (runHop m c d r).1 = .ok (.done es u cs b) →
      smpAt m1 k = { smpAt m k with run := some { r with log := (runHop m c d r).2 }, cache := (runHop m c d r).2.cached } ∧ onlyAccess m.mem m1.mem ∧ m1.out = m.out) ∧
    (∀ l, (runHop m c d r).1 = .ok (.needs l) → r.fwds = [] → l ≠ [] → l.length ≤ 256 → (∀ n ∈ l,
      routable m (cutPeer m c 3 n.owner) = true) →
      ∃ r1, smpAt m1 k = { smpAt m k with run := some r1, cache := (runHop m c d r).2.cached } ∧ r1.fwds.map FwdOut.item = l.map Need.item ∧
        r1.frontier = r.frontier ∧ r1.hop = r.hop ∧ r1.out = r.out ∧ onlyAccess m.mem m1.mem ∧
        counterOf m1 0x6400 0x05 = min (2 ^ 64 - 1) (counterOf m 0x6400 0x05 + l.length) ∧
        ∀ n ∈ l, hasSent m1 0x06 (cutPeer m c 3 n.owner) (.fwd n.f))) ∧
  (∀ (s : State) (k d : Nat) (r : SmpRun) (seeds : List (Nat × Nat)) (es : List (Nat × Nat × Nat)) (u : List (Nat × Nat)) (cs : List Nat)
    (b : Bool), (smpAt s.m k).run = some r → inPass (ctxAt s.m (r.key / 65536)) = true → posting s.m (.sampler k) = false →
    smpDesc s.m r.key = .ok d → seedList s.m d = .ok seeds → stepPairOk (ctxAt s.m (r.key / 65536)) = true →
    (runHop s.m (ctxAt s.m (r.key / 65536)) d r).1 = .ok (.done es u cs b) →
    let last := isWalk (sdMethod d) || decide (r.hop ≥ sdHops d)
    let blk := blockBytes s.m (ctxAt s.m (r.key / 65536)) d r seeds es u cs b last
    writeCheck s.m.mem (r.key / 65536) r.out blk.2 = 0 →
    ∃ m4 bs, exec (.tephraBlockComplete k) s =
        .next (onM (fun _ => serveIncoming k (if posting m4 (.sampler k) = true then m4 else smpAdvance k m4)) s) ∧
      bs.length = dedupBytes (hopBounds d r.hop).2.2 ∧
      m4.mem.phys = (blk.1.foldl (fun mm p => vput (r.out + p.1) p.2 mm) (vput (r.out + 64) bs s.m.mem)).phys ∧
      (smpAt m4 k).run = (if last = true then none else some { r with
        hop := r.hop + 1, out := r.out + blk.2, frontier := u, resp := [], fwds := [], waited := [], log := {} }) ∧
      (ringTakes (.sampler k) (ringAt (coreAt s.m (sdCore d)) (sdRing d)) → posting m4 (.sampler k) = false ∧
        (ringAt (coreAt m4 (sdCore d)) (sdRing d)).entries =
          (ringAt (coreAt s.m (sdCore d)) (sdRing d)).entries ++ [r.hop * 2 ^ 60 + r.out % 2 ^ 56]))

/-- R121, R122: a forward of the present pass is answered with what the owner's part of the graph gives, and the answer frees the
forward's place in the request that waits for it.
R59, R116, R121: one that needs a page outside HBM, or an entry while forwards hold all of its sampler's, waits at the sampler; one beyond
the 256 that a sampler holds waits in front of it.
Where the manual leaves a choice, the model's is stated (log entries 1, 21). -/
def Obligations.ForwardsAnswered : Prop :=
  (∀ (s : State) (x : Txn) (i : Nat) (f : Fwd), reaches x i s.m → x.body = .fwd f → s.m.tor.held = [] →
    claimedSamplers (ctxAt s.m i) ≠ [] →
    let k := servingSampler (ctxAt s.m i) f
    let w := serveForward s.m (ctxAt s.m i) k x.detail f
    let free := ∀ r, (smpAt s.m k).run = some r → r.fwds.length < 256
    (256 ≤ (smpAt s.m k).incoming.length → exec (.sampleFwd x) s = .next (onM (holdTxn ⟨8, 0, 0, x⟩) s)) ∧
    ((smpAt s.m k).incoming.length < 256 → free →
      (∀ (n : Nat) (es : List (Nat × Nat)), w.1 = .ok (n, es) → routable s.m x.src = true →
        ∃ t, exec (.sampleFwd x) s = .next t ∧ hasSent t.m 0x86 x.src (.fwdRes n es) ∧ countedOnce 0x6400 0x06 s.m t.m ∧
          onlyAccess s.m.mem t.m.mem ∧ t.m.ctxs = s.m.ctxs ∧ t.m.cores = s.m.cores ∧
          smpAt t.m k = { smpAt s.m k with cache := w.2.cached } ∧ (∀ j, j ≠ k → smpAt t.m j = smpAt s.m j)) ∧
      (w.1 = .error pageWaits →
        ∃ t, exec (.sampleFwd x) s = .next t ∧ t.m.out = s.m.out ∧ onlyAccess s.m.mem t.m.mem ∧ t.m.ctxs = s.m.ctxs ∧
          (smpAt t.m k).incoming = (smpAt s.m k).incoming ++ [{ t := x, log := w.2 }]))) ∧
  (∀ (s : State) (x : Txn) (i n k : Nat) (es : List (Nat × Nat)) (y : Sampler) (r : SmpRun) (f : FwdOut), reaches x i s.m →
    x.body = .fwdRes n es →
    s.m.samplers.find? (fun p => match p.2.run with
      | some r => r.key / 65536 == i && r.fwds.any (fun f => f.tag == x.tag)
      | none => false) = some (k, y) →
    y.run = some r → r.fwds.find? (fun f => f.tag == x.tag) = some f →
    ∃ m1, exec (.sampleResult x) s = .next (onM (fun _ => serveIncoming k (smpAdvance k m1)) s) ∧
      smpAt m1 k = { y with run := some { r with resp := r.resp.put f.item (n, es), fwds := r.fwds.filter (fun f => f.tag != x.tag) } } ∧
      m1.mem = s.m.mem)

/-- R123, R138: a transaction of another step or replay is discarded and counted; nothing else changes.
R457: a collective transaction of another step or replay is dropped and counted, and nothing else changes.
R498, R495, R499: READY, BEGIN and ABORT of passes that are over are counted and change nothing. -/
def Obligations.StaleTransactionsDiscarded : Prop :=
  (∀ (s : State) (x : Txn) (i : Nat), listening s.m → ctxOfTag s.m x.jobTag = some i → stepSound s.m i →
    sameTag (ctxAt s.m i) x = false →
    (∀ f, x.body = .fwd f → s.m.tor.held = [] → exec (.sampleFwd x) s = .next (onM (count 0x6400 0x0B) s)) ∧
    (∀ n es, x.body = .fwdRes n es → exec (.sampleResult x) s = .next (onM (count 0x6400 0x0B) s)) ∧
    (∀ a b c d, x.body = .gather a b c d → s.m.tor.held = [] → exec (.gather x) s = .next (onM (count 0x6500 0x0B) s)) ∧
    (∀ a b c, x.body = .gatherRes a b c → exec (.gatherData x) s = .next (onM (count 0x6500 0x0B) s)) ∧
    (∀ a b c, x.body = .scatter a b c → exec (.scatter x) s = .next (onM (count 0x6500 0x0B) s)) ∧
    (∀ a b c d, x.body = .scatterEnd a b c d → exec (.scatterEnd x) s = .next (onM (count 0x6500 0x0B) s))) ∧
  (∀ (s : State) (x : Txn) (c : Instr), c = .contrib x ∨ c = .result x ∨ c = .maxima x ∨ c = .norm x → listening s.m →
    (∀ i, ctxOfTag s.m x.jobTag = some i → stepSound s.m i → sameTag (ctxAt s.m i) x = false →
      exec c s = .next (onM (count 0x6A00 0x07) s))) ∧
  (∀ (s : State) (x : Txn) (i : Nat), listening s.m → ctxOfTag s.m x.jobTag = some i → (ctxAt s.m i).st ≠ .halt →
    stepPairOk (ctxAt s.m i) = true →
    (sameTag (ctxAt s.m i) x = false → exec (.ready x) s = .next (onM (count 0x6B00 0x0C) s)) ∧
    (stalePass (ctxAt s.m i) x = true → exec (.begin x) s = .next (onM (count 0x6B00 0x0C) s)) ∧
    (x.step < (ctxAt s.m i).step → exec (.abort x) s = .next (onM (count 0x6B00 0x05) s)) ∧
    (sameTag (ctxAt s.m i) x = true → (ctxAt s.m i).pass.committed = true → exec (.abort x) s = .next (onM (count 0x6B00 0x05) s)))

/-- R124, R138, R63, R62: a forward, a remote gather or a lower-tier read that is not answered in time, and a lower-tier answer with
poison, abort the pass before commit; time has come to the limit.
R63, R509, R512: a read of another step times out all the same, and a response of the pass with poison is a memory error of the object
that it reads: one whose content the device cannot rebuild ends the step for good.
Where the manual leaves a choice, the model's is stated (log entries 1, 79, 91, 98). -/
def Obligations.LateAnswersAbortThePass : Prop :=
  (∀ (s : State) (k tag : Nat) (r : SmpRun) (f : FwdOut), notifies s.m.dev.st = true → (smpAt s.m k).run = some r →
    r.fwds.find? (fun f => f.tag == tag) = some f → beforeReady s.m (r.key / 65536) →
    ∃ t, exec (.forwardTimeout k tag) s = .next t ∧ abortedFor (r.key / 65536) 0x0404 s.m t.m ∧ t.m.mem = s.m.mem ∧
      t.m.dev.time10 = max s.m.dev.time10 (f.at10 + dlat s.m (ctxAt s.m (r.key / 65536)) 0x4200 0x04 * 10000)) ∧
  (∀ (s : State) (e tag : Nat) (o : GsOp) (g : GsRow), notifies s.m.dev.st = true →
    (engAt s.m e).running.find? (fun o => o.rows.any (fun r => r.remote && r.tag == tag && r.vals.isNone && r.st == 2)) = some o →
    o.rows.find? (fun r => r.remote && r.tag == tag && r.vals.isNone && r.st == 2) = some g → beforeReady s.m (o.key / 65536) →
    ∃ t, exec (.remoteTimeout e tag) s = .next t ∧ abortedFor (o.key / 65536) 0x0504 s.m t.m ∧ t.m.mem = s.m.mem ∧
      t.m.dev.time10 = max s.m.dev.time10 (g.at10 + dlat s.m (ctxAt s.m (o.key / 65536)) 0x4300 0x05 * 10000)) ∧
  (∀ (s : State) (id : Nat) (r : TierRead), notifies s.m.dev.st = true → readById s.m id = some r →
    (r.step = (ctxAt s.m r.ctx).step → r.replay = (ctxAt s.m r.ctx).replay) → beforeReady s.m r.ctx →
    ∃ t, exec (.tierReadTimeout id) s = .next t ∧ abortedFor r.ctx 0x0703 s.m t.m ∧ t.m.mem.phys = s.m.mem.phys ∧
      (sentAgain r.who = false ∨ r.step ≠ (ctxAt s.m r.ctx).step → t.m.mem.reads = s.m.mem.reads.filter (fun x => x.id != id)) ∧
      (∀ v, sentAgain r.who = true → r.step = (ctxAt s.m r.ctx).step → stepPairOk (ctxAt s.m r.ctx) = true →
        walkVpn s.m.mem (vpnOf r.va) = .entry v → pTier v ≠ 0 →
        ∃ q ∈ t.m.mem.reads, q.id = s.m.mem.nextId ∧ q.who = r.who ∧ q.va = r.va ∧ q.len = r.len) ∧
      t.m.dev.time10 = max s.m.dev.time10 (r.issuedAt + tierTimeout10 s.m (ctxAt s.m r.ctx) r.tier)) ∧
  (∀ (s : State) (id : Nat) (r : TierRead), readById s.m id = some r → r.step = (ctxAt s.m r.ctx).step →
    r.replay ≠ (ctxAt s.m r.ctx).replay → exec (.tierReadTimeout id) s =
      .next (onM (fun m => dropRead id (timeTo (r.issuedAt + tierTimeout10 m (ctxAt m r.ctx) r.tier) m)) s)) ∧
  (∀ (s : State) (id : Nat) (data : List Byte) (r : TierRead), notifies s.m.dev.st = true → readById s.m id = some r →
    readCurrent s.m r = true → r.substituted = false → r.lost = false → beforeReady s.m r.ctx →
    (∀ v, objAt s.m.mem r.va = some v → oCtx v = r.ctx) →
    ((∀ v, objAt s.m.mem r.va = some v → recoveryClass s.m r.ctx v = 0) →
      ∃ t, exec (.lowerTierResponse id data true) s = .next t ∧ abortedFor r.ctx 0x0704 s.m t.m ∧ t.m.mem.phys = s.m.mem.phys ∧
        (sentAgain r.who = false → t.m.mem.reads = s.m.mem.reads.filter (fun x => x.id != id))) ∧
    (∀ v, objAt s.m.mem r.va = some v → recoveryClass s.m r.ctx v = 1 →
      ∃ t, exec (.lowerTierResponse id data true) s = .next t ∧ failedWith r.ctx 0x0704 0x03 t.m ∧ raisedCode 0x0704 t.m ∧
        t.m.mem.phys = s.m.mem.phys))

/-- R164, R157, R158: an engine with fewer than eight operations under way starts the oldest of its queue. A GATHER's keys are counted; a
SCATTER takes the next issue ordinal of its program and slice and remembers the core that issues it, once the structures outside its record
that lie in a lower tier have been read (R59).
R141, R143, R148: a GATHER with all its rows writes them at its data address and its record at its path address, and posts its
entry; R152, R159: a SCATTER whose rows are there ends, and its end markers go to every rank of the graph.
Where the manual leaves a choice, the model's is stated (log entries 1, 20). -/
def Obligations.OperationsStartAndComplete : Prop :=
  (∀ (s : State) (e d : Nat) (o : GsOp) (rest : List GsOp), (engAt s.m e).queue = o :: rest → (engAt s.m e).running.length < 8 →
    inPass (ctxAt s.m (o.key / 65536)) = true → posting s.m (.engine e) = false → stepPairOk (ctxAt s.m (o.key / 65536)) = true →
    gsDesc s.m o.key = .ok d →
    let m0 := setEng e { engAt s.m e with queue := rest } s.m
    (scatterLow s.m o ≠ [] → exec (.gsOperationStart e) s = .next (onM (scatterFetch e o (scatterLow s.m o)) s)) ∧
    (∀ o1 n, gdOp d = 0 → startGather m0 o d = .ok (o1, n) →
      ∃ m1, exec (.gsOperationStart e) s = .next (onM (fun _ => advanceOp e o.id m1) s) ∧
        engAt m1 e = { engAt s.m e with queue := rest, running := (engAt s.m e).running ++ [o1] } ∧ onlyAccess s.m.mem m1.mem ∧
        counterOf m1 0x6500 0x0A = min (2 ^ 64 - 1) (counterOf s.m 0x6500 0x0A + n)) ∧
    (∀ o1 m2, gdOp d ≠ 0 → scatterLow s.m o = [] → startScatter e o d m0 = .ok (o1, m2) →
      ∃ m1, exec (.gsOperationStart e) s = .next (onM (fun _ => advanceOp e o.id m1) s) ∧
        (engAt m1 e).running = (engAt m2 e).running ++ [o1] ∧
        o1.ordinal = (engAt s.m e).ordinals.get (o.key * 16 + o.slice) 0 ∧ o1.ordinal < 255)) ∧
  ((∀ (s : State) (e id d : Nat) (o : GsOp) (p : SlicePlan) (outs : List (List Byte)) (parts : List (Nat × List Byte)),
    runningOp s.m e id = some o → rowsReady o = true → inPass (ctxAt s.m (o.key / 65536)) = true → posting s.m (.engine e) = false →
    gsDesc s.m o.key = .ok d → gdOp d = 0 → gatherOutput s.m o d = .ok (p, outs, parts) →
    writeCheck s.m.mem (o.key / 65536) o.path (parts.foldl (fun a x => max a (x.1 + x.2.length)) 0) = 0 →
    let put := parts.foldl (fun mm x => vput (o.path + x.1) x.2 mm)
      ((outs.zip (List.range outs.length)).foldl (fun m x => dataPut o.core (o.data + x.2 * gdStride d) x.1 m) s.m).mem
    ∃ m4, exec (.gatherComplete e id) s =
        .next (onM (fun _ => if posting m4 (.engine e) = true then m4 else enginePosted e m4) s) ∧
      runningOp m4 e id = some { o with posting := true } ∧ m4.mem.phys = put.phys ∧ m4.mem.staging = put.staging ∧
      (ringTakes (.engine e) (ringAt (coreAt s.m (gdCore d)) (gdRing d)) → posting m4 (.engine e) = false ∧
        (ringAt (coreAt m4 (gdCore d)) (gdRing d)).entries =
          (ringAt (coreAt s.m (gdCore d)) (gdRing d)).entries ++ [2 ^ 60 + o.path % 2 ^ 56])) ∧
  (∀ (s : State) (e id d g : Nat) (o : GsOp) (p : SlicePlan) (h : List Byte) (tg : Target),
    runningOp s.m e id = some o → rowsReady o = true → inPass (ctxAt s.m (o.key / 65536)) = true → posting s.m (.engine e) = false →
    gsDesc s.m o.key = .ok d → gdOp d = 1 → checkRecord s.m o d = .ok (g, p, h) → targetOf s.m (o.key / 65536) (gdTarget d) = .ok tg →
    stepPairOk (ctxAt s.m (o.key / 65536)) = true → ctxOfTag s.m (ctxAt s.m (o.key / 65536)).jobTag = some (o.key / 65536) →
    (writesGrads d h = true → (dataRead s.m o.core o.data (p.count * gdStride d)).toOption.isSome = true) →
    ∃ m1, exec (.scatterComplete e id) s = .next (onM (fun _ => advanceEngine e m1) s) ∧ runningOp m1 e id = none ∧
      (sgKind tg.desc.v ≠ 1 → ∀ r, r < graphSize s.m (ctxAt s.m (o.key / 65536)) → r ≠ graphRank s.m (ctxAt s.m (o.key / 65536)) →
        routable s.m (cutPeer s.m (ctxAt s.m (o.key / 65536)) 3 r) = true →
        hasSent m1 0x05 (cutPeer s.m (ctxAt s.m (o.key / 65536)) 3 r) (.scatterEnd (gdTarget d) (o.key % 65536) o.slice o.ordinal))))

/-- R60, R59, R61, R45: a lower-tier answer of the present pass brings the octets of its page to the row or transfer that waits for it,
and one of a pass that is over is dropped and counted. A read past its deadline counts a miss; in a strict pass its row stalls,
in any other the table's ash
row takes the row's place, once (R667).
Where the manual leaves a choice, the model's is stated (log entries 1, 67). -/
def Obligations.TierReadsAnswered : Prop :=
  (∀ (s : State) (id k : Nat) (data : List Byte) (r : TierRead), readById s.m id = some r →
    r.lost = false → readCurrent s.m r = true → r.substituted = false → r.who = .xfer k →
    ∃ t, exec (.lowerTierResponse id data false) s = .next t ∧
      (coreAt t.m k).queue = xferGot r.va (vget s.m.mem r.va r.len) (coreAt s.m k).queue ∧ t.m.mem.phys = s.m.mem.phys ∧
      t.m.mem.reads = s.m.mem.reads.filter (fun x => x.id != id)) ∧
  (∀ (s : State) (id e op n : Nat) (data : List Byte) (r : TierRead) (o : GsOp) (src : GsSrc) (re : Bool) (row : GsRow),
    readById s.m id = some r → r.lost = false → readCurrent s.m r = true → r.substituted = false →
    r.who = .item e op n → runningOp s.m e op = some o → opSource s.m o = .ok (src, re) → o.rows[n]? = some row →
    ∃ m1, exec (.lowerTierResponse id data false) s = .next (onM (fun _ => advanceEngine e m1) s) ∧
      runningOp m1 e op = some { o with
        rows := o.rows.set n (finishRow r.ctx src (rowFound (rowGot r.va (vget s.m.mem r.va r.len) row)) (dropRead id s.m)).1 }) ∧
  (∀ (s : State) (id : Nat) (data : List Byte) (poison : Bool) (r : TierRead), readById s.m id = some r →
    r.lost = false → readCurrent s.m r = false ∨ r.substituted = true →
    exec (.lowerTierResponse id data poison) s = .next (onM (fun m => entryFreed r (count 0x6700 0x06 (dropRead id m))) s)) ∧
  (∀ (s : State) (id dl : Nat) (r : TierRead), readById s.m id = some r → r.deadline = some dl → r.missed = false →
    readCurrent s.m r = true →
    inPass (ctxAt s.m r.ctx) = true → r.substituted = false → r.stalled = false → (ctxAt s.m r.ctx).pass.strict = true →
    ∃ t, exec (.readDeadlineMiss id) s = .next t ∧ countedOnce 0x6700 (if r.tier = 1 then 0x01 else 0x02) s.m t.m ∧
      countedOnce 0x6700 0x03 s.m t.m ∧ t.m.dev.time10 = max s.m.dev.time10 dl ∧ t.m.mem.phys = s.m.mem.phys ∧
      t.m.ctxs = s.m.ctxs ∧ ∀ x ∈ t.m.mem.reads, x.who = r.who → x.stalled = true) ∧
  (∀ (s : State) (id e op n d key dl : Nat) (r : TierRead) (o : GsOp) (row : GsRow), readById s.m id = some r → r.deadline = some dl →
    r.missed = false → readCurrent s.m r = true → inPass (ctxAt s.m r.ctx) = true → r.ctx < 16 → r.substituted = false →
    (ctxAt s.m r.ctx).pass.strict = false → readTable s.m r = some (d, key) → tdAsh d ≠ 0 → r.who = .item e op n →
    runningOp s.m e op = some o → o.rows[n]? = some row →
    ∃ t, exec (.readDeadlineMiss id) s = .next t ∧
      runningOp t.m e op = some { o with rows := o.rows.set n { row with
        vals := some (ashRow s.m d key), ash := true, need := 0, got := [], offer := false } } ∧
      (ctxAt t.m r.ctx).pass.nonStrict = true ∧ (ctxAt t.m r.ctx).pass.ashSubs = (ctxAt s.m r.ctx).pass.ashSubs + 1 ∧
      countedOnce 0x6500 0x03 s.m t.m ∧ t.m.mem.phys = s.m.mem.phys ∧ ∀ x ∈ t.m.mem.reads, x.who = r.who → x.substituted = true)

/-- R136, R137: the owner of a key answers a gather with its row as soon as it has it, and keeps it until then; the answer becomes the
value of every row that waits for its tag, and an ash row makes the pass non-strict. One beyond the 256 entries of its engine waits in
front of it; one for a table before the owner's own S waits for S (R184).
R156, R158 to R161: an open target appends a contribution to its log, and counts an end marker by its origin, closing once it has
all; a closed one takes no contribution and the error aborts the pass. A closed target is written once: the sums of its log by
destination, of ROWS in order and of LOCAL each in its row, and its entry is posted; a LOCAL row outside the object is a fault of the
program.
Where the manual leaves a choice, the model's is stated (log entries 20, 21, 60). -/
def Obligations.RemoteGathersAndTargetsAnswered : Prop :=
  ((∀ (s : State) (x : Txn) (i key e : Nat) (src : GsSrc) (re ash : Bool), reaches x i s.m → s.m.tor.held = [] →
    askedSource x = some (src, key, re, ash) → (ctxAt s.m i).claims.engines ≠ [] →
    e = (ctxAt s.m i).claims.engines.getD (askedPart src key % (ctxAt s.m i).claims.engines.length) 0 →
    let room := (s.m.served.filter (fun v => v.engine == e)).length < 256
    let begun := src.kind ≠ 1 ∨ inPass (ctxAt s.m i) = true ∨ (s.m.tabSnap.find (dkeyOf i src.obj)).isSome = true
    (¬room → exec (.gather x) s = .next (onM (holdTxn ⟨8, 0, 0, x⟩) s)) ∧
    (room → ¬begun → exec (.gather x) s = .next (onM (fun m =>
      { m with served := m.served ++ [⟨e, x, { key := key, loc := key, ash := ash }⟩] }) s)) ∧
    (∀ code, startRow i e (.remote e x) src re false { key := key, loc := key, ash := ash } s.m = .error code →
      room → begun → exec (.gather x) s = .next (onM (gsFault code i) s)) ∧
    (∀ r m1, startRow i e (.remote e x) src re false { key := key, loc := key, ash := ash } s.m = .ok (some (r, m1)) →
      r.vals.isSome = true →
      room → begun → routable s.m x.src = true → ∃ t, exec (.gather x) s = .next t ∧
        hasSent t.m 0x83 x.src (.gatherRes (r.vals.getD []) r.ash r.version) ∧ onlyAccess m1.mem t.m.mem) ∧
    (∀ r m1, startRow i e (.remote e x) src re false { key := key, loc := key, ash := ash } s.m = .ok (some (r, m1)) →
      r.vals.isSome = false →
      room → begun → exec (.gather x) s = .next { s with m := { m1 with served := m1.served ++ [⟨e, x, r⟩] } }) ∧
    (startRow i e (.remote e x) src re false { key := key, loc := key, ash := ash } s.m = .ok none →
      room → begun → exec (.gather x) s = .next (onM (fun m => count 0x6500 0x06
        { m with served := m.served ++ [⟨e, x, { key := key, loc := key, ash := ash, st := 1 }⟩] }) s))) ∧
  (∀ (s : State) (x : Txn) (i e ver d : Nat) (vals : List Nat) (ash : Bool) (o : GsOp), reaches x i s.m → i < 16 →
    x.body = .gatherRes vals ash ver →
    let mine := fun (r : GsRow) => r.remote && r.tag == x.tag && r.vals.isNone && r.st == 2
    s.m.engines.findSome? (fun p => (p.2.running.find? (fun o => o.key / 65536 == i && o.rows.any mine)).map (fun o => (p.1,
      o))) = some (e, o) →
    runningOp s.m e o.id = some o → gsDesc s.m o.key = .ok d → (∀ r ∈ o.rows, mine r = true → r.version = ver) →
    ∃ t, exec (.gatherData x) s = .next t ∧
      runningOp t.m e o.id = some { o with rows := o.rows.map (fun r =>
          if mine r = true then { r with vals := some (vals.map F32.canon), ash := ash } else r) } ∧
      (ash = true → gdOp d ≠ 1 → (ctxAt t.m i).pass.nonStrict = true) ∧ t.m.mem = s.m.mem)) ∧
  ((∀ (s : State) (x : Txn) (i tid key : Nat) (row : List Nat) (tg : Target), reaches x i s.m → x.body = .scatter tid key row →
    targetOf s.m i tid = .ok tg →
    let w := sgWidth tg.desc.v
    let short := tg.log.findIdx? (fun y => y.1 == key && decide (y.2.length < w))
    let n := short.getD tg.log.length
    let whole := (tg.log.getD n (0, [])).2 ++ row.map F32.canon
    let log := if short = none then tg.log ++ [(key, whole)] else tg.log.set n (key, whole)
    (tg.closed = false → sgKind tg.desc.v = 1 → ∃ t, exec (.scatter x) s = .next t ∧
      targetOf t.m i tid = .ok { tg with log := log } ∧ (short = none → countedOnce 0x6500 0x09 s.m t.m) ∧
      t.m = { s.m with targets := t.m.targets, cnt := t.m.cnt }) ∧
    (∀ v, tg.closed = false → sgKind tg.desc.v = 0 → objById s.m.mem tid = some v →
      let at' := (objSpan v).1 + tg.bound * a64 (8 + 4 * w) + n * a64 (24 + 4 * w)
      let ent := leBytes 24 key ++ whole.flatMap (leBytes 4)
      rightCheck s.m.mem i at' ent.length = 0 →
      ∃ t, exec (.scatter x) s = .next t ∧ targetOf t.m i tid = .ok { tg with log := log } ∧
        (short = none → countedOnce 0x6500 0x09 s.m t.m) ∧ putAt at' ent s.m.mem t.m.mem ∧ t.m.ctxs = s.m.ctxs) ∧
    (tg.closed = true → notifies s.m.dev.st = true → beforeReady s.m i →
      ∃ t, exec (.scatter x) s = .next t ∧ abortedFor i 0x0508 s.m t.m ∧ t.m.targets = s.m.targets)) ∧
  (∀ (s : State) (x : Txn) (i tid a b c : Nat) (tg : Target), reaches x i s.m → x.body = .scatterEnd tid a b c →
    targetOf s.m i tid = .ok tg → tg.closed = false →
    let origin := match cutAxis (ctxAt s.m i) 3 with | some a => axisOf x.src a | none => 0
    let ends := tg.ends.put origin (tg.ends.get origin 0 + 1)
    ∃ t, exec (.scatterEnd x) s = .next t ∧
      targetOf t.m i tid = .ok { tg with ends := ends, closed := targetFull s.m i { tg with ends := ends } } ∧ t.m.mem = s.m.mem) ∧
  (∀ (s : State) (i tid v : Nat) (tg : Target), targetOf s.m i tid = .ok tg → objById s.m.mem tid = some v → tg.closed = true →
    tg.written = false → inPass (ctxAt s.m i) = true →
    ringTakes .target (ringAt (coreAt s.m (sgCore tg.desc.v)) (sgRing tg.desc.v)) →
    let w := sgWidth tg.desc.v
    let base := (objSpan v).1
    let sums := segmentAdd (sortBy (fun a b => decide (a.1 ≤ b.1)) tg.log)
    let pad := fun (e : List Byte) => e ++ List.replicate (a64 (8 + 4 * w) - e.length) 0
    let rows := ((objSpan v).2 - base) / a64 (4 * w)
    let posted := fun (t : State) => targetOf t.m i tid = .ok { tg with written := true } ∧
      (ringAt (coreAt t.m (sgCore tg.desc.v)) (sgRing tg.desc.v)).entries =
        (ringAt (coreAt s.m (sgCore tg.desc.v)) (sgRing tg.desc.v)).entries ++ [2 * 2 ^ 60 + base % 2 ^ 56]
    (∀ x ∈ tg.log, x.2.length = w) →
    (sgKind tg.desc.v = 0 → rightCheck s.m.mem i base ((sums.length + 1) * a64 (8 + 4 * w)) = 0 →
      ∃ t, exec (.scatterTargetResult i tid) s = .next t ∧ posted t ∧
        putAt base (sums.flatMap (fun x => pad (leBytes 8 x.1 ++ x.2.flatMap (leBytes 4))) ++
          pad (List.replicate 8 0xFF#8 ++ List.replicate (4 * w) 0)) s.m.mem t.m.mem) ∧
    (sgKind tg.desc.v = 1 → (∀ x ∈ sums, x.1 < rows) →
      (∀ k, k < rows → rightCheck s.m.mem i (base + k * a64 (4 * w)) (4 * w) = 0) →
      ∃ t, exec (.scatterTargetResult i tid) s = .next t ∧ posted t ∧
        t.m.mem.phys = ((List.range rows).foldl (fun mm k => vput (base + k * a64 (4 * w))
          (((SMap.find sums k).getD (List.replicate w 0)).flatMap (leBytes 4)) mm) s.m.mem).phys) ∧
    (sgKind tg.desc.v = 1 → i < 16 → ∀ x ∈ sums, rows ≤ x.1 →
      ∃ t, exec (.scatterTargetResult i tid) s = .next t ∧ failedWith i 0x0506 0x09 t.m ∧ t.m.mem = s.m.mem)))

/-- R59, R70, R71, R75: a migration's copy whose reads and writes of lower tiers are all done puts the page's octets at its destination,
and the migration waits for the quench with the dirty bits it has; one that is not done stays as it is. A copy's own write is noted in
it. Another lower-tier write that fails ends the context's step for good, one that succeeds only leaves the list where no READ waits for
it; a region that is lost is reported once and aborts every pass before commit, and its reads stay unanswered (R572).
Where the manual leaves a choice, the model's is stated (log entries 1, 62, 76, 79). -/
def Obligations.TierEventsAct : Prop :=
  (∀ (s : State) (vpn : Nat) (g : Mig), s.m.mem.migs.find? (fun g => g.vpn == vpn && !g.copied) = some g →
    (copyDone g = false → exec (.migrationCopyComplete vpn) s = .next s) ∧
    (copyDone g = true → ∃ t, exec (.migrationCopyComplete vpn) s = .next t ∧
      t.m.mem.phys = cellsCopy s.m.mem.phys (placeOf g.srcTier g.srcFrame 0) (placeOf g.dstTier g.dstFrame 0) (2 ^ 21) ∧
      (g.srcTier = 0 → g.srcFrame ∈ t.m.mem.touched) ∧ (g.dstTier = 0 → g.dstFrame ∈ t.m.mem.touched) ∧
      (∀ x ∈ t.m.mem.migs, x.vpn = vpn → x.copied = true) ∧ t.m.mem.migs.map Mig.dirty = s.m.mem.migs.map Mig.dirty ∧
      t.m.mem.pages = s.m.mem.pages ∧ t.m.ctxs = s.m.ctxs)) ∧
  (∀ (s : State) (id : Nat) (w : TierWrite), s.m.mem.writes.find? (fun x => x.id == id) = some w → writeCurrent s.m w = true →
    s.m.mem.heldReads = [] →
    let rest := fun (x : Mem) => { x with writes := x.writes.filter (fun y => y.id != id) }
    (w.mig = none → exec (.lowerTierWriteComplete id false) s = .next (onM (onMem rest) s)) ∧
    (∀ v, w.mig = some v →
      exec (.lowerTierWriteComplete id false) s = .next (onM (fun m => modMig v (fun g => { g with stored := true }) (onMem rest m)) s) ∧
      exec (.lowerTierWriteComplete id true) s = .next (onM (fun m => modMig v (fun g => { g with begun := false }) (onMem rest m)) s)) ∧
    (w.mig = none → w.ctx < 16 → (ctxAt s.m w.ctx).st ≠ .halt → (ctxAt s.m w.ctx).st ≠ .free →
      ∃ t, exec (.lowerTierWriteComplete id true) s = .next t ∧ failedWith w.ctx 0x0705 0x06 t.m ∧
        t.m.mem.writes = s.m.mem.writes.filter (fun y => y.id != id) ∧ t.m.mem.phys = s.m.mem.phys)) ∧
  (∀ (s : State) (k : Nat), s.m.mem.lostRegions.contains k = true → exec (.tierRegionUnreachable k) s = .next s) ∧
  (∀ (s : State) (k : Nat), s.m.mem.lostRegions.contains k = false → (regionAt s.m k).kind ≠ 0 → notifies s.m.dev.st = true →
    ∃ t, exec (.tierRegionUnreachable k) s = .next t ∧ t.m.mem.lostRegions = s.m.mem.lostRegions ++ [k] ∧ raisedCode 0x0706 t.m ∧
      t.m.mem.phys = s.m.mem.phys ∧ (∀ r ∈ t.m.mem.reads, r.region = k → r.lost = true) ∧
      ∀ i, beforeReady s.m i → (ctxAt t.m i).pass.aborted = true ∧ (ctxAt t.m i).pass.errCode = 0x0706)

/-! ## Tables and the sinter unit (05, 10) -/

/-- R182: a published version becomes the table's pending one where it may, and is refused with the abort of the first check that it
fails: too many versions, too early a step, a field, a limit.
R193, R195, R203, R197: an accepted plan ends the wait of its snapshot and is held, where its version is still current; a HOT row's copy,
once the row is read, puts it, encoded in its class, into its slot; an ash scan whose rows are read writes the inactive bank, which the
next quench makes active; a plan that never comes puts the context into HALT.
Where the manual leaves a choice, the model's is stated (log entries 22, 24, 25, 79, 96). -/
def Obligations.PublishesAndRefreshGoOn : Prop :=
  (∀ (s : State) (v : List Byte), writeState s.m.dev.st = 0 → storedOk s.m 0x4100 0x10 → v.length = 66 →
    let id := octs v 0 2
    let d := octs v 2 64
    let c := ctxAt s.m (tdCtx d)
    let early := if c.st = .run then tdEff d ≤ c.step else tdEff d < c.step
    let few := (liveVersions (tabAt s.m id)).length < 2
    (few → ¬early → publishFields s.m id d = true → publishLimits s.m id d = true → exec (.tablePublish id v) s =
      .next (onM (fun m => doneWrite (setTab id { tabAt m id with pend := some ⟨d, cpl 512 d⟩ } m)) s)) ∧
    (¬few → exec (.tablePublish id v) s = .next (refused 0x06200001 s)) ∧
    (few → early → exec (.tablePublish id v) s = .next (refused 0x06200002 s)) ∧
    (few → ¬early → publishFields s.m id d = false →
      exec (.tablePublish id v) s = .next (refused 0x06200003 { s with m := publishFaults v s.m })) ∧
    (few → ¬early → publishFields s.m id d = true → publishLimits s.m id d = false →
      exec (.tablePublish id v) s = .next (refused 0x06200004 s))) ∧
  ((∀ (s : State) (v : List Byte), writeState s.m.dev.st = 0 → storedOk s.m 0x4100 0x11 → v.length = 16 →
    (∀ m1, postPlan v s.m = .ok m1 → exec (.refreshPost v) s = .next { s with m := doneWrite (startHot (octs v 0 2) m1) } ∧
      (tabAt m1 (octs v 0 2)).awaiting = none ∧ m1.mem = s.m.mem ∧
      ∃ n ver p, (tabAt s.m (octs v 0 2)).awaiting = some (n, ver) ∧ (tabAt s.m (octs v 0 2)).cur = some p ∧
        (ver = tdVersion p.v → ∃ pl, (tabAt m1 (octs v 0 2)).plan = some pl ∧ pl.n = n) ∧
        (ver ≠ tdVersion p.v → (tabAt m1 (octs v 0 2)).plan = none)) ∧
    (∀ code, postPlan v s.m = .error code → code ≠ 0 → exec (.refreshPost v) s =
      .next (refused code { s with m := postFaults v s.m }))) ∧
  (∀ (s : State) (id slot cls va l : Nat) (p : Pair) (pl : Plan) (e : PlanEnt) (areas counts : List Nat), (tabAt s.m id).cur = some p →
    (tabAt s.m id).plan = some pl → pl.entries.find? (fun e => e.action == 1 && e.slot == slot && !e.copied) = some e →
    pairOk 512 p.v p.c = true → hotReady s.m p.v e = true → (ctxAt s.m (tdCtx p.v)).st ≠ .halt →
    rowPlace s.m p.v e.key = .ok (cls, va) → hotHeader s.m p.v = .ok (l, areas, counts) →
    readCheck s.m.mem va (rowBytesOf cls (tdWidth p.v)) = 0 →
    let row := encodeRow e.cls (tdElem p.v) (srKeyTable (ctxAt s.m (tdCtx p.v)).seed (planKey s.m p.v pl) e.key (tdId p.v))
      (decodeRow cls (tdWidth p.v) (tdElem p.v) (vget s.m.mem va (rowBytesOf cls (tdWidth p.v))))
    readCheck s.m.mem (hotVa areas (tdWidth p.v) e.cls slot) row.length = 0 →
    ∃ t, exec (.hotCopyComplete id slot) s = .next t ∧
      tabAt t.m id = { tabAt s.m id with plan := some { pl with entries := markCopied slot pl.entries } } ∧
      t.m.mem.phys = (vput (hotVa areas (tdWidth p.v) e.cls slot) row s.m.mem).phys ∧ t.m.mem.pages = s.m.mem.pages) ∧
  (∀ (s : State) (id slot : Nat) (p : Pair) (pl : Plan) (e : PlanEnt), (tabAt s.m id).cur = some p → (tabAt s.m id).plan = some pl →
    pl.entries.find? (fun e => e.action == 1 && e.slot == slot && !e.copied) = some e → pairOk 512 p.v p.c = true →
    hotReady s.m p.v e = false → exec (.hotCopyComplete id slot) s = .next s) ∧
  (∀ (s : State) (id : Nat) (p : Pair) (sums : SMap (List Nat × Nat)), (tabAt s.m id).cur = some p → (tabAt s.m id).scanning = true →
    pairOk 512 p.v p.c = true → ((tabAt s.m id).scanRead = true ∨ lowSpans s.m.mem (scanReads s.m p.v) = []) →
    tdAsh p.v = 2 → ashSums s.m p.v = .ok sums →
    let row := fun q xs => encodeRow 4 (tdElem p.v) (srKeyTable (ctxAt s.m (tdCtx p.v)).seed (ctxAt s.m (tdCtx p.v)).step q id) xs
    ∃ t, exec (.ashScanComplete id) s = .next t ∧
      tabAt t.m id = { tabAt s.m id with scanning := false, scanRead := false, scanned := true, swap := true } ∧
      countedOnce 0x6600 0x0D s.m t.m ∧
      t.m.ctxs = s.m.ctxs ∧ t.m.mem.pages = s.m.mem.pages ∧
      t.m.mem.phys = ((List.range (2 ^ tdAshLog p.v)).foldl (fun mm q =>
        match sums.find q with
        | none => vput (ashVa p.v (1 - (tabAt s.m id).bank) q) (row q (List.replicate (tdWidth p.v) 0)) mm
        | some (sum, n) => vput (ashCountVa p.v q) (leBytes 4 n) (vput (ashSumVa p.v q) (sum.flatMap (leBytes 4))
            (vput (ashVa p.v (1 - (tabAt s.m id).bank) q) (row q (ashMean sum n)) mm))) s.m.mem).phys) ∧
  (∀ (s : State) (i : Nat), i < 16 → (ctxAt s.m i).st = .run → (ctxAt s.m i).pass.waitPlan = true →
    planMissing s.m i = true → ∃ t, exec (.refreshWaitLimit i) s = .next t ∧ failedWith i 0x0605 0x06 t.m ∧
      t.m.dev.time10 = max s.m.dev.time10 ((ctxAt s.m i).pass.planSince + dnum s.m 0x4100 0x09 * 10000) ∧
      t.m.mem = s.m.mem))

/-- R367, R361, R387: a free sinter unit whose last entry is in its ring takes the command in the oldest slot of the next ring,
frees the slot, and writes what the command
gives; when it ends the unit is free and, where the command asks, its entry is posted. It reports for the bundle that posted the
command (R309, R369).
Where the manual leaves a choice, the model's is stated (log entry 1). -/
def Obligations.SinterCommandsRun : Prop :=
  (∀ (s : State) (cl q : Nat) (m2 : Mach), (s.m.sinters.get cl {}).run = none → nextSinter s.m cl = some q →
    let k := cl * 16 + q / 8
    let r := ringAt (coreAt s.m k) (q % 8)
    let b := if rdWhere r = 1 then cellsGet s.m.mem.staging (stagAddr cl (slotOffset r r.racq)) 32
      else opcGet (coreAt s.m k) (slotOffset r r.racq) 32
    issues s.m (coreAt s.m k) = true → ringOk r = true → posting s.m (.sinter cl) = false →
    slotParity s.m k (slotOffset r r.racq) (rdWhere r == 1) = false → runSinter k b s.m = .ok m2 →
    ∃ t, exec (.sinterCommand cl) s = .next t ∧
      t.m.sinters.get cl {} = { ptr := q + 1, run := some ⟨k, r.posted.headD (coreAt s.m k).pc, b⟩ } ∧
      t.m.mem.phys = m2.mem.phys ∧ t.m.mem.staging = m2.mem.staging ∧ t.m.mem.pages = s.m.mem.pages ∧
      (ringAt (coreAt t.m k) (q % 8)).tail = (r.tail + 1) % 2 ^ 32 ∧
      (ringAt (coreAt t.m k) (q % 8)).racq = (r.racq + 1) % 2 ^ 32 ∧ (ringAt (coreAt t.m k) (q % 8)).head = r.head) ∧
  (∀ (s : State) (cl k pc : Nat) (b : List Byte), (s.m.sinters.get cl {}).run = some ⟨k, pc, b⟩ →
    (tbit (sntOf b).done 7 = false →
      exec (.sinterCommandComplete cl) s =
        .next { s with m := { s.m with sinters := s.m.sinters.put cl { s.m.sinters.get cl {} with run := none } } }) ∧
    (tbit (sntOf b).done 7 = true → ringTakes (.sinter cl) (ringAt (coreAt s.m k) ((sntOf b).done % 8)) →
      ∃ t, exec (.sinterCommandComplete cl) s = .next t ∧ (t.m.sinters.get cl {}).run = none ∧ t.m.mem = s.m.mem ∧
        (ringAt (coreAt t.m k) ((sntOf b).done % 8)).entries =
          (ringAt (coreAt s.m k) ((sntOf b).done % 8)).entries ++ [4 * 2 ^ 60 + (sntOf b).dst % 2 ^ 56]))

/-! ## Gradient reduction (13) -/

/-- R456, R464, R465, R461, R471: what arrives for a bucket of the present pass is taken before the engines go on: records of the own
slice to their places in the receive area; results with their maxima and flags; maxima of a calibration pass; norms.
Where the manual leaves a choice, the model's is stated (log entry 26). -/
def Obligations.CollectivesTaken : Prop :=
  (∀ (s : State) (x : Txn) (i k : Nat), reaches x i s.m → i < 16 → bucketIx s.m i (collFields x).1 = some k →
    bucketsOk s.m i = true → (collFields x).2.1 + (collFields x).2.2 ≤ bdBlocks (bucketAt s.m i k).desc.v →
    let first := (collFields x).2.1
    let n := (collFields x).2.2
    let r := senderRank s.m i x
    let v := (bucketAt s.m i k).desc.v
    let raw := rawOf x
    ((∀ j, j < n → ownBlock s.m i k (first + j) = true →
        rightCheck s.m.mem i (recvVa s.m i v r (first + j)) (slice raw (72 * j) 72).length = 0) →
      ∃ m1, exec (.contrib x) s = .next (onM (fun _ => geyAdvance i m1) s) ∧
      (∀ j, j < n → ownBlock s.m i k (first + j) = true → (r, first + j) ∈ (bucketAt m1 i k).arrived) ∧
      onlyOctets s.m.mem m1.mem ∧
      m1.mem.phys = (((List.range n).filter (fun j => ownBlock s.m i k (first + j))).foldl (fun mm j =>
        vput (recvVa s.m i v r (first + j)) (slice raw (72 * j) 72) mm) s.m.mem).phys) ∧
    ((∀ j, j < n → bdF32 v = false → rightCheck s.m.mem i (bdResult v + 128 * (first + j))
        (slice raw ((2 * n + 15) / 16 * 16 + 128 * j) 128).length = 0) →
      ∃ m1, exec (.result x) s = .next (onM (fun _ => geyAdvance i m1) s) ∧
      (∀ j, j < n → (bucketAt m1 i k).glob.find (first + j) = some (sxt 8 (octs raw (2 * j) 1), octs raw (2 * j + 1) 1)) ∧
      onlyOctets s.m.mem m1.mem ∧
      m1.mem.phys = (if bdF32 v = true then s.m.mem else (List.range n).foldl (fun mm j =>
        vput (bdResult v + 128 * (first + j)) (slice raw ((2 * n + 15) / 16 * 16 + 128 * j) 128) mm) s.m.mem).phys) ∧
    (∃ m1, exec (.maxima x) s = .next (onM (fun _ => geyAdvance i m1) s) ∧ m1.mem = s.m.mem ∧
      ∀ j, j < n → let g := (sxt 8 (octs raw (2 * j) 1), octs raw (2 * j + 1) 1)
        (ownBlock s.m i k (first + j) = true → (r, first + j, g.1, g.2) ∈ (bucketAt m1 i k).maxima) ∧
        (ownBlock s.m i k (first + j) = false → (bucketAt m1 i k).glob.find (first + j) = some g))) ∧
  (∀ (s : State) (x : Txn) (i : Nat) (d : Nat × Nat), reaches x i s.m → i < 16 →
    (normScope s.m i).find? (fun d => d.2 == x.src) = some d →
    ∃ t, exec (.norm x) s = .next t ∧ (ctxAt t.m i).gey.norms.find d.1 = some (octs (rawOf x) 0 8, octs (rawOf x) 8 8) ∧
      (∀ k, k ≠ d.1 → (ctxAt t.m i).gey.norms.find k = (ctxAt s.m i).gey.norms.find k) ∧ t.m.mem = s.m.mem)

/-- R469, R461 to R463, R472, R498: X completes once, and its notices are posted. After a calibration pass the working exponents are set from
the maxima and the pass is run again; where too many blocks saturated and repeats are left, they rise and the pass is run again, or the
entry that cannot be used aborts it; otherwise the norm record of the step is written and the step goes on. A device asks its group for
the repeat by an ABORT of its own. In a pass that is aborted already X ends the wait of the discard (R500).
Where the manual leaves a choice, the model's is stated (log entries 39, 61, 98). -/
def Obligations.ExchangeCompletes : Prop :=
  (∀ (s : State) (i : Nat), beforeReady s.m i → (ctxAt s.m i).pass.xDone = false → bucketsOk s.m i = true → xReady s.m i = true →
    let c := ctxAt s.m i
    let g := c.gey
    noticesSound s.m i → normApart s.m i →
    let sat := (flagged s.m i).length
    let tooMany := dlat s.m c 0x5100 0x06 < sat
    let again := c.pass.satRepeats < dlat s.m c 0x5100 0x07
    let done := fun (t : State) => (ctxAt t.m i).pass.xDone = true ∧ (ctxAt t.m i).gey.satBlocks = sat ∧
      (∀ k, k < c.noticeCount → ringClassOk .notice (noticeRing c s.m.mem s.m k) = true →
        let e := noticeEntry (octs (noticeWord c s.m.mem k) 2 1)
        e ∈ (noticeRing c s.m.mem t.m k).entries ∨ ∃ w ∈ (noticeRing c s.m.mem t.m k).waiting, w.entry = e) ∧
      (g.calibPass = true ∨ g.header.v = 0 → t.m.mem = s.m.mem) ∧
      (g.calibPass = false → g.header.v ≠ 0 → putAt (chNormVa g) (ctxAt t.m i).gey.normRec s.m.mem t.m.mem ∧
        octs (ctxAt t.m i).gey.normRec 0 8 = c.step % 2 ^ 64 ∧
        octs (ctxAt t.m i).gey.normRec 8 8 = (normSums g).1 % 2 ^ 64 ∧ octs (ctxAt t.m i).gey.normRec 16 8 = (normSums g).2 % 2 ^ 64)
    let repeats := fun (bit : Nat) (pend : List (Nat × Nat × Int)) (t : State) => (ctxAt t.m i).pass.aborted = true ∧
      tbit (ctxAt t.m i).pass.causes bit = true ∧ (ctxAt t.m i).gey.pending = pend ∧
      (tbit c.pass.sentCauses bit = false → ∀ d ∈ othersOf s.m c, ∃ x, Out.txn x ∈ t.m.out ∧ x.typ = 0x0A ∧ x.dest = d ∧
        x.detail = 3 * 2 ^ 60 + 2 ^ bit * 2 ^ 52)
    (g.calibPass = true → ∃ t, exec (.xComplete i) s = .next t ∧ done t ∧ repeats 4 (calibration s.m i) t) ∧
    (∀ pend, g.calibPass = false → tooMany → again → saturation s.m i = .ok pend →
      ∃ t, exec (.xComplete i) s = .next t ∧ done t ∧ repeats 3 pend t) ∧
    (g.calibPass = false → tooMany → again → saturation s.m i = .error 0x0A01 → notifies s.m.dev.st = true →
      ∃ t, exec (.xComplete i) s = .next t ∧ done t ∧ abortedFor i 0x0A01 s.m t.m) ∧
    (g.calibPass = false → ¬(tooMany ∧ again) → ∃ t, exec (.xComplete i) s = .next t ∧ done t ∧
      (ctxAt t.m i).pass.aborted = false ∧ (tooMany → (ctxAt t.m i).pass.satPersist = true) ∧
      (tooMany → notifies s.m.dev.st = true → raisedCode 0x0A05 t.m))) ∧
  (∀ (s : State) (i : Nat), i < 16 → (ctxAt s.m i).st = .run → (ctxAt s.m i).pass.running = true → (ctxAt s.m i).pass.xDone = false →
    (ctxAt s.m i).pass.aborted = true → (ctxAt s.m i).pass.waitX = true → bucketsOk s.m i = true → xReady s.m i = true →
    ∃ t, exec (.xComplete i) s = .next t ∧ (ctxAt t.m i).pass.discarding = true ∧ (ctxAt t.m i).pass.waitX = false)

/-! ## Step control (01, 14) -/

/-- R24, R520: the limits of a step's waits. The commit wait and the barrier wait end in HALT with their causes; a step deadline aborts the
pass with the cause DEADLINE.
Where the manual leaves a choice, the model's is stated (log entries 1, 26, 98). -/
def Obligations.WaitLimitsAct : Prop :=
  (∀ (s : State) (i : Nat), i < 16 → (ctxAt s.m i).st = .run → (ctxAt s.m i).pass.sentReady = true →
    (ctxAt s.m i).pass.committed = false → (ctxAt s.m i).pass.aborted = false →
    ∃ t, exec (.commitWaitLimit i) s = .next t ∧ failedWith i 0x0B05 0x05 t.m ∧
      t.m.dev.time10 = max s.m.dev.time10 ((ctxAt s.m i).pass.readyAt + (ctxAt s.m i).pass.commitUs * 10000) ∧ t.m.mem = s.m.mem) ∧
  (∀ (s : State) (i : Nat), i < 16 → (ctxAt s.m i).st = .run → (ctxAt s.m i).pass.sentBegin = true →
    (ctxAt s.m i).pass.running = false → (ctxAt s.m i).pass.aborted = false →
    ∃ t, exec (.barrierWaitTimeout i) s = .next t ∧ failedWith i 0 0x07 t.m ∧
      t.m.dev.time10 = max s.m.dev.time10 ((ctxAt s.m i).pass.waitSince + (ctxAt s.m i).pass.deadlineUs * 10000) ∧ t.m.mem = s.m.mem) ∧
  (∀ (s : State) (i : Nat), beforeReady s.m i →
    ∃ t, exec (.stepDeadline i) s = .next t ∧ (ctxAt t.m i).pass.aborted = true ∧ tbit (ctxAt t.m i).pass.causes 1 = true ∧
      (notifies s.m.dev.st = true → raisedCode 0x0B04 t.m) ∧ countedOnce 0x6B00 0x09 s.m t.m ∧
      t.m.dev.time10 = max s.m.dev.time10 ((ctxAt s.m i).pass.startAt + (ctxAt s.m i).pass.deadlineUs * 10000) ∧
      (bucketsOk s.m i = false → (ctxAt t.m i).pass.errCode = 0x0A01) ∧
      (bucketsOk s.m i = true → (ctxAt s.m i).gey.buckets.all bucketDone = true → (ctxAt t.m i).pass.errCode = 0x0B04) ∧
      (bucketsOk s.m i = true → (ctxAt s.m i).gey.buckets.all bucketDone = false → (ctxAt t.m i).pass.errCode = 0x0A02) ∧
      (tbit (ctxAt s.m i).pass.sentCauses 1 = false → ∀ d ∈ othersOf s.m (ctxAt s.m i), ∃ x, Out.txn x ∈ t.m.out ∧ x.typ = 0x0A ∧ x.dest = d ∧ x.detail = 3 * 2 ^ 60 + 2 * 2 ^ 52))

/-- R496, R497: a BEGIN with the job's data is held; the barrier is not passed before one of every device is held. One that differs is a
fault of the program. When the last one comes and no device asks for a replay, the pass begins.
R498, R21, R495: a device whose step work is done sends READY to every other device of its group, and takes READYs of the pass; once
it has sent its own and holds one of every device, the step is committed.
Where the manual leaves a choice, the model's is stated (log entry 26). -/
def Obligations.BarrierOpensAndStepsCommit : Prop :=
  ((∀ (s : State) (x : Txn) (i : Nat), listening s.m → ctxOfTag s.m x.jobTag = some i → i < 16 → (ctxAt s.m i).st ≠ .halt →
    stepPairOk (ctxAt s.m i) = true → stalePass (ctxAt s.m i) x = false →
    let b : BeginRec := ⟨x.src, x.step, x.replay, fld x.detail 59 52⟩
    let keep := (ctxAt s.m i).pass.begins.filter (fun y => !(y.coord == b.coord && y.step == b.step && y.replay == b.replay))
    (slice (rawOf x) 0 16 ≠ beginData (ctxAt s.m i) → (ctxAt s.m i).st ≠ .free →
      ∃ t, exec (.begin x) s = .next t ∧ failedWith i 0x0B08 0x09 t.m ∧ t.m.mem = s.m.mem) ∧
    (slice (rawOf x) 0 16 = beginData (ctxAt s.m i) → (ctxAt s.m i).repairs = [] → (ctxAt s.m i).pass.sentBegin = false →
      exec (.begin x) s = .next (onM (modPass i (fun p => { p with begins := keep ++ [b] })) s)) ∧
    (slice (rawOf x) 0 16 = beginData (ctxAt s.m i) → (ctxAt s.m i).repairs = [] → (ctxAt s.m i).st = .run →
      (ctxAt s.m i).pass.sentBegin = true → (ctxAt s.m i).pass.running = false → (ctxAt s.m i).pass.aborted = false →
      (ctxAt s.m i).gey.entries = [] → (∀ q ∈ (ctxAt s.m i).gey.buckets, bucketOk q = true ∧ ∀ blk, blk < bdBlocks q.desc.v →
        (expGet s.m q.desc.v 0 blk).toOption.isSome = true ∧ rightCheck s.m.mem i (expVa q.desc.v 2 blk) 1 = 0 ∧
        rightCheck s.m.mem i (expVa q.desc.v 3 blk) 1 = 0) →
      (∀ e ∈ (ctxAt s.m i).claims.engines, (engAt s.m e).running = [] ∧ ∀ v ∈ s.m.served, v.engine ≠ e) →
      let bs := (keep ++ [b]).filter (fun y => y.step == (ctxAt s.m i).step && y.replay == (ctxAt s.m i).replay % 65536)
      (groupOf s.m (ctxAt s.m i)).all (fun d => bs.any (fun y => y.coord == d)) = true → (∀ y ∈ bs, y.causes = 0) →
      ∃ t, exec (.begin x) s = .next t ∧ (ctxAt t.m i).pass.running = true ∧ (ctxAt t.m i).everRan = true ∧
        (ctxAt t.m i).pass.passes = (ctxAt s.m i).pass.passes + 1 ∧ (ctxAt t.m i).pass.startAt = s.m.dev.time10 ∧
        countedOnce 0x6B00 0x02 s.m t.m ∧
        ∀ k, s.m.cores.has k = true → (coreAt s.m k).ctx = i →
          (coreAt t.m k).pc = (coreAt s.m k).entry ∧ (coreAt t.m k).s = .fill 32 0 ∧
          (coreAt t.m k).st = (if (coreAt s.m k).resident = [] then .ended else .running)))) ∧
  ((∀ (s : State) (i : Nat), i < 16 → oReady s.m i = true → (ctxAt s.m i).pass.committed = false → stepPairOk (ctxAt s.m i) = true →
    let all := (groupOf s.m (ctxAt s.m i)).all (fun d => ((ctxAt s.m i).pass.readies ++ [ownCoord s.m]).contains d)
    ∃ t, exec (.oComplete i) s = .next t ∧ (ctxAt t.m i).pass.sentReady = true ∧ (ctxAt t.m i).pass.oDone = true ∧
      (ctxAt t.m i).pass.readies = (ctxAt s.m i).pass.readies ++ [ownCoord s.m] ∧ (ctxAt t.m i).pass.readyAt = s.m.dev.time10 ∧
      (ctxAt t.m i).pass.committed = all ∧ (all = true → (ctxAt t.m i).lastCommitted = (ctxAt s.m i).step ∧
        countedOnce 0x6B00 0x01 s.m t.m) ∧
      t.m.mem = s.m.mem ∧
      ∀ d ∈ othersOf s.m (ctxAt s.m i), ∃ x, Out.txn x ∈ t.m.out ∧ x.typ = 0x0A ∧ x.dest = d ∧ x.detail = 2 * 2 ^ 60 ∧
        x.jobTag = (ctxAt s.m i).jobTag ∧ x.step = (ctxAt s.m i).step) ∧
  (∀ (s : State) (x : Txn) (i : Nat), reaches x i s.m → i < 16 → (ctxAt s.m i).st = .run → (ctxAt s.m i).pass.sentBegin = true →
    let rs := if (ctxAt s.m i).pass.readies.contains x.src then (ctxAt s.m i).pass.readies else (ctxAt s.m i).pass.readies ++ [x.src]
    let now := (ctxAt s.m i).pass.sentReady && !(ctxAt s.m i).pass.committed && !(ctxAt s.m i).pass.aborted &&
      (groupOf s.m (ctxAt s.m i)).all (fun d => rs.contains d)
    ∃ t, exec (.ready x) s = .next t ∧ (ctxAt t.m i).pass.readies = rs ∧
      (ctxAt t.m i).pass.committed = ((ctxAt s.m i).pass.committed || now) ∧
      (now = true → (ctxAt t.m i).lastCommitted = (ctxAt s.m i).step) ∧ (ctxAt t.m i).step = (ctxAt s.m i).step ∧ t.m.mem = s.m.mem))

/-- R499, R500, R26 to R28: the first ABORT of a pass ends it with its causes; the replay discard drops the pass's work and update set
and adds one to the replay count; HALT of another device is final. A notice changes nothing (R425).
Where the manual leaves a choice, the model's is stated (log entries 1, 26, 66). -/
def Obligations.AbortsAndReplays : Prop :=
  (∀ (s : State) (x : Txn) (i : Nat), reaches x i s.m → i < 16 → (ctxAt s.m i).st = .run → (ctxAt s.m i).pass.sentBegin = true →
    (ctxAt s.m i).pass.committed = false → (ctxAt s.m i).pass.aborted = false →
    ∃ t, exec (.abort x) s = .next t ∧ (ctxAt t.m i).pass.aborted = true ∧ (ctxAt t.m i).pass.committed = false ∧
      (ctxAt t.m i).pass.causes = (ctxAt s.m i).pass.causes ||| fld x.detail 59 52 ∧
      (fld x.detail 59 52 % 8 ≠ 0 → (ctxAt t.m i).pass.discarding = true) ∧ (ctxAt t.m i).step = (ctxAt s.m i).step ∧
      t.m.out = s.m.out ∧ t.m.mem = s.m.mem) ∧
  (∀ (s : State) (i : Nat), i < 16 → (ctxAt s.m i).st = .run → (ctxAt s.m i).pass.discarding = true →
    ∃ t, exec (.replayDiscardComplete i) s = .next t ∧ (ctxAt t.m i).replay = (ctxAt s.m i).replay + 1 ∧ (ctxAt t.m i).upd = [] ∧
      (ctxAt t.m i).step = (ctxAt s.m i).step ∧ (∀ p ∈ t.m.samplers, ∀ key ∈ p.2.queue, key / 65536 ≠ i) ∧
      (∀ p ∈ t.m.engines, ∀ o ∈ p.2.queue ++ p.2.running, o.key / 65536 ≠ i) ∧
      (∀ j, j ≠ i → (ctxAt t.m j).upd = (ctxAt s.m j).upd)) ∧
  (∀ (s : State) (x : Txn) (i : Nat), listening s.m → ctxOfTag s.m x.jobTag = some i → i < 16 → (ctxAt s.m i).st ≠ .halt →
    (ctxAt s.m i).st ≠ .free → stepPairOk (ctxAt s.m i) = true →
    ∃ t, exec (.halt x) s = .next t ∧ failedWith i 0x0B06 0x08 t.m ∧ (ctxAt t.m i).pass.running = false ∧
      (ctxAt t.m i).step = (ctxAt s.m i).step ∧ t.m.mem = s.m.mem) ∧
  (∀ (s : State) (x : Txn) (i : Nat), listening s.m → ctxOfTag s.m x.jobTag = some i → stepSound s.m i → exec (.notify x) s = .next s)

/-- R484, R504, R505: the context commands, where the server takes writes. HOLD holds an idle context at once and asks a running one;
RELEASE makes a held one idle and makes current what a Q4 would (R183); HALT stops a loaded one and tells its group; CLEAR_GRANT clears the
grant.
R505: a context command from a state that does not take it is refused and changes nothing.
Where the manual leaves a choice, the model's is stated (log entry 35). -/
def Obligations.ContextCommandsActOrRefuse : Prop :=
  (∀ (s : State) (i : Nat), writeState s.m.dev.st = 0 → i < 16 →
    ((ctxAt s.m i).st = .idle ∨ (ctxAt s.m i).st = .run ∨ (ctxAt s.m i).st = .held → ∃ t, exec (.hold i) s = .next t ∧
      ctxAt t.m i = { ctxAt s.m i with holdReq := true, st := if (ctxAt s.m i).st = .idle then .held else (ctxAt s.m i).st } ∧
      (∀ j, j ≠ i → ctxAt t.m j = ctxAt s.m j) ∧ Out.wrote ∈ t.m.out) ∧
    ((ctxAt s.m i).st = .held → (ctxAt s.m i).grant = 0 → (ctxAt s.m i).repairs = [] →
      exec (.release i) s =
        .next (onM (fun m => doneWrite (repeatQ4 i (modCtx i (fun c => { c with holdReq := false, st := .idle }) m))) s)) ∧
    ((ctxAt s.m i).st = .idle ∨ (ctxAt s.m i).st = .run ∨ (ctxAt s.m i).st = .held → ∃ t, exec (.contextHalt i) s = .next t ∧
      (ctxAt t.m i).st = .halt ∧ (ctxAt t.m i).pass.running = false ∧ (ctxAt t.m i).step = (ctxAt s.m i).step ∧
      (∀ j, j ≠ i → ctxAt t.m j = ctxAt s.m j) ∧ t.m.mem = s.m.mem ∧ Out.wrote ∈ t.m.out ∧
      ∀ d ∈ othersOf s.m (ctxAt s.m i), ∃ x, Out.txn x ∈ t.m.out ∧ x.typ = 0x0A ∧ x.dest = d ∧ x.detail = 4 * 2 ^ 60) ∧
    ((ctxAt s.m i).st ≠ .free →
      exec (.clearGrant i) s = .next (onM (fun m => doneWrite (modCtx i (fun c => { c with grant := 0 }) m)) s))) ∧
  (∀ (s : State) (i : Nat), writeState s.m.dev.st = 0 →
    ((ctxAt s.m i).st = .free ∨ (ctxAt s.m i).st = .halt → exec (.hold i) s = .next (refused 0x0B200001 s) ∧
      exec (.contextHalt i) s = .next (refused 0x0B200001 s)) ∧
    ((ctxAt s.m i).st ≠ .held → exec (.release i) s = .next (refused 0x0B200001 s)) ∧
    ((ctxAt s.m i).st = .free → exec (.clearGrant i) s = .next (refused 0x0B200001 s)))

/-- R30, R31, R502, R503, R197: QUENCH does nothing before the commit point; it waits, once counted, while a plan is missing; at its end the
step number goes up by one with its complement, the step's record is written, one step of the grant is used, the replay count is 0, and
a context asked to hold is HELD.
Where the manual leaves a choice, the model's is stated (log entry 36). -/
def Obligations.QuenchEndsTheStep : Prop :=
  (∀ (s : State) (i : Nat), (ctxAt s.m i).st ≠ .run ∨ (ctxAt s.m i).pass.committed = false → exec (.quench i) s = .next s) ∧
  (∀ (s : State) (i : Nat), i < 16 → (ctxAt s.m i).st = .run → (ctxAt s.m i).pass.committed = true → (ctxAt s.m i).pass.quench = 0 →
    planMissing s.m i = true →
    ((ctxAt s.m i).pass.waitPlan = true → exec (.quench i) s = .next s) ∧
    ((ctxAt s.m i).pass.waitPlan = false → exec (.quench i) s = .next (onM (fun m =>
      count 0x6600 0x0B (modPass i (fun p => { p with waitPlan := true, planSince := m.dev.time10 }) m)) s))) ∧
  (∀ (s : State) (i : Nat), i < 16 → (ctxAt s.m i).st = .run → (ctxAt s.m i).pass.committed = true → (ctxAt s.m i).pass.quench = 3 →
    writesDone s.m i = true →
    let m6 := quenchQ6 i (quenchQ5 i (tablesQ4 i s.m))
    let c6 := ctxAt m6 i
    c6.st = .run → stepPairOk c6 = true →
    readCheck m6.mem (c6.logVa + 32 * (if c6.logEntries = 0 then 0 else c6.step % c6.logEntries)) 32 = 0 →
    ∃ t, exec (.quench i) s = .next t ∧ (ctxAt t.m i).step = (c6.step + 1) % 2 ^ 64 ∧ (ctxAt t.m i).stepC = cpl 64 (c6.step + 1) ∧
      (ctxAt t.m i).lastRec = stepRecord c6 (ctxAt s.m i).mb ∧ (ctxAt t.m i).replay = 0 ∧ (ctxAt t.m i).grant = c6.grant - 1 ∧
      (c6.holdReq = true → c6.repairs = [] →
        (dlat m6 c6 0x8100 0x0E = 0 ∨ routable m6 (portPeer m6 (dnum m6 0x8100 0x0F)) = true) → (ctxAt t.m i).st = .held))

/-- R490, R492, R493: a PIPE chunk of the present pass lands at its place in the receiver's own entry (log entry 34); an arriving RSCATTER
sum waits until the entry has fired. The notice follows the last part. -/
def Obligations.TransferChunksLand : Prop :=
  (∀ (s : State) (x : Txn) (i k : Nat), reaches x i s.m → i < 16 → (ctxAt s.m i).st = .run →
    chunkEntry s.m i x = some k →
    entriesOk s.m i = true → teKind (entryAt s.m i k).desc.v = 0 → fld x.detail 63 60 = 0 →
    let v := (entryAt s.m i k).desc.v
    let off := fld x.detail 39 8
    rightCheck s.m.mem i (teDest v + off) (rawOf x).length = 0 → (entryAt s.m i k).landed.contains (0, off) = false →
    (ringTakes .notice (ringAt (coreAt s.m (teNoticeCore v)) (teNoticeRing v)) ∨ (entryAt s.m i k).noticed = true) →
    let l := (entryAt s.m i k).landed ++ [(0, off)]
    let due := !(entryAt s.m i k).noticed && (wantedParts s.m i v).all (fun p => l.contains p)
    ∃ t, exec (.pipeSlot x) s = .next t ∧ putAt (teDest v + off) (rawOf x) s.m.mem t.m.mem ∧ (entryAt t.m i k).landed = l ∧
      (entryAt t.m i k).noticed = ((entryAt s.m i k).noticed || due) ∧
      (due = true → (ringAt (coreAt t.m (teNoticeCore v)) (teNoticeRing v)).entries =
        (ringAt (coreAt s.m (teNoticeCore v)) (teNoticeRing v)).entries ++ [noticeEntry (teNoticeRing v)])) ∧
  (∀ (s : State) (x : Txn) (i k : Nat), reaches x i s.m → i < 16 → (ctxAt s.m i).st = .run →
    chunkEntry s.m i x = some k →
    entriesOk s.m i = true → teKind (entryAt s.m i k).desc.v = fld x.detail 63 60 →
    let e := entryAt s.m i k
    (teKind e.desc.v = 3 → e.fired = false → exec (.shard x) s =
      .next (onM (modEntry i k (fun y => { y with parts := y.parts ++ [(fld x.detail 39 8, (rawOf x).drop 16)] })) s)) ∧
    (teKind e.desc.v = 2 → octs (slice (rawOf x) 0 16) 2 2 < cutSize s.m (ctxAt s.m i) 1 → beforeReady s.m i → notifies s.m.dev.st = true →
      routable s.m (entryPeer s.m i e.desc.v 0) = true →
      readCheck s.m.mem (teReceipt e.desc.v + 16 * octs (slice (rawOf x) 0 16) 2 2) 16 = 0 →
      receiptDiffers s.m (teReceipt e.desc.v + 16 * octs (slice (rawOf x) 0 16) 2 2) (slice (rawOf x) 0 16) = true →
      ∃ t, exec (.shard x) s = .next t ∧ (ctxAt t.m i).pass.aborted = true ∧ tbit (ctxAt t.m i).pass.causes 2 = true ∧
        raisedCode 0x0B03 t.m ∧ countedOnce 0x6B00 0x08 s.m t.m ∧ onlyAccess s.m.mem t.m.mem))

/-! ## Recovery (15) -/

/-- R509, R512, R532: an HBM burst whose second read passes is recorded as such and nothing else. One that fails again, and any error of
another source, ends the step for good for an object whose content the device cannot rebuild, and for octets that a plan's copy or
re-encode reads in Q1 or Q3 (R205), and replays it for one that a replay rebuilds; a burst of HBM fails from then on until it is
written. In the caldera the set's cached rows go and nothing else. In the update set an error before commit replays the step, and one
that Q1 meets is classed by the object of the rows that it would write.
Where the manual leaves a choice, the model's is stated (log entries 31, 32, 91). -/
def Obligations.MemoryErrorsHandled : Prop :=
  (∀ (s : State) (place va stack : Nat), s.m.dev.st ≠ .off → s.m.dev.st ≠ .reset → s.m.dev.st ≠ .fault →
    ∃ t, exec (.hbmRereadResult 0 place va stack true) s = .next t ∧
      t.m = { s.m with lastDataError := t.m.lastDataError, recStats := t.m.recStats } ∧
      (place = 0 → octs t.m.lastDataError 0 8 = va % 2 ^ 64) ∧ octs t.m.lastDataError 13 1 = 1 ∧
      t.m.recStats = s.m.recStats.set 0 (min (2 ^ 64 - 1) (s.m.recStats.getD 0 0 + 1))) ∧
  (∀ (s : State) (source va stack v : Nat) (passed : Bool), listening s.m → (passed = false ∨ source ≠ 0) → objAt s.m.mem va = some v →
    let i := oCtx v
    let fails := fun (t : State) => t.m.mem = { s.m.mem with failing := t.m.mem.failing } ∧
      ∀ q, source = 0 → place? s.m.mem va = some q → q / 32 ∈ t.m.mem.failing
    (i < 16 → (ctxAt s.m i).st ≠ .free → (ctxAt s.m i).st ≠ .halt → recoveryClass s.m i v = 1 ∨ reencodeRead s.m i va = true →
      let in' := reencodeRead s.m i va = true
      ∃ t, exec (.hbmRereadResult source 0 va stack passed) s = .next t ∧ fails t ∧
        failedWith i (if in' then 0x0606 else 0) (if in' then 0x06 else 0x03) t.m ∧
        octs (ctxAt t.m i).failure 32 8 = va % 2 ^ 64 ∧ octs t.m.lastDataError 13 1 = 4) ∧
    (beforeReady s.m i → recoveryClass s.m i v = 0 →
      ∃ t, exec (.hbmRereadResult source 0 va stack passed) s = .next t ∧ fails t ∧ (ctxAt t.m i).pass.aborted = true ∧
        tbit (ctxAt t.m i).pass.causes 0 = true ∧ octs t.m.lastDataError 13 1 = 2)) ∧
  (∀ (s : State) (source va stack : Nat) (passed : Bool), listening s.m → (passed = false ∨ source ≠ 0) →
    ∃ t, exec (.hbmRereadResult source 1 va stack passed) s = .next t ∧ t.m.mem = s.m.mem ∧ t.m.ctxs = s.m.ctxs ∧
      octs t.m.lastDataError 13 1 = 5 ∧ (∀ p ∈ t.m.tables, p.1 = va / 2 ^ 32 → ∀ w ∈ p.2.ways, w.1 / 16 ≠ va % 2 ^ 32)) ∧
  (∀ (s : State) (source i k stack : Nat) (passed : Bool) (u : UpdWrite), listening s.m → (passed = false ∨ source ≠ 0) → i < 16 →
    k < 2 ^ 32 → (ctxAt s.m i).upd[k]? = some u →
    (beforeReady s.m i → ∃ t, exec (.hbmRereadResult source 3 (i * 2 ^ 32 + k) stack passed) s = .next t ∧ t.m.mem = s.m.mem ∧
      (ctxAt t.m i).pass.aborted = true ∧ tbit (ctxAt t.m i).pass.causes 0 = true ∧ octs t.m.lastDataError 13 1 = 2) ∧
    ((ctxAt s.m i).st = .run → (ctxAt s.m i).pass.committed = true → recoveryClass s.m i ((objAt s.m.mem u.va).getD 0) ≠ 2 →
      ∃ t, exec (.hbmRereadResult source 3 (i * 2 ^ 32 + k) stack passed) s = .next t ∧ t.m.mem = s.m.mem ∧ failedWith i 0 0x03 t.m ∧
        octs t.m.lastDataError 13 1 = 4))

/-- R516, R515: a READ of units that may be served is answered with their octets and digest, in two transactions where one cannot hold them
(log entry 21), once no Q1 writes their pages any more, any other with ERROR; a chunk whose digest
agrees is kept for its repair, one whose digest differs is asked for once more.
R517, R519: a page whose chunks have all arrived is written into the frame that holds it and the repair ends; one that does not read
back, or is not done in time, puts the context into HALT.
Where the manual leaves a choice, the model's is stated (log entry 1). -/
def Obligations.ReadsRepairsAndChunks : Prop :=
  ((∀ (s : State) (x : Txn) (i : Nat), listening s.m → ctxOfTag s.m x.jobTag = some i → stepSound s.m i →
    let va := fld x.detail 55 0
    let n := fld x.detail 63 56 * 512
    let b := vget s.m.mem va n ++ shake256 (vget s.m.mem va n) 32
    let answered := fun (m : Mach) (err : Bool) (bs : List Byte) => ∃ y, Out.txn y ∈ m.out ∧ y.typ = 0x81 ∧ y.dest = x.src ∧
      y.tag = x.tag ∧ y.err = err ∧ y.body = .raw bs
    let ok := 512 ≤ n ∧ n ≤ 16384 ∧ servable s.m i va n = true
    (ok → q1Writes s.m va n = true → exec (.read x) s = .next (onM (onMem (fun y => { y with heldReads := y.heldReads ++ [x] })) s)) ∧
    (¬(ok ∧ q1Writes s.m va n = true) → ok ∨ readCheck s.m.mem va n ≠ 0x0701 → routable s.m x.src = true → ∃ t,
      exec (.read x) s = .next t ∧ t.m.mem.phys = s.m.mem.phys ∧ t.m.ctxs = s.m.ctxs ∧
      (ok → n < 16384 → answered t.m false b) ∧
      (ok → n = 16384 → answered t.m false (b.take 16384) ∧ answered t.m false (b.drop 16384)) ∧
      (¬ok → answered t.m true []))) ∧
  (∀ (s : State) (x : Txn) (i j chunk : Nat) (r : Repair), listening s.m → ctxOfTag s.m x.jobTag = some i → i < 16 → stepSound s.m i →
    repairOf (ctxAt s.m i) x.tag = some (j, chunk) → repairAt s.m i j = some r → x.err = false →
    let d := slice (rawOf x) 0 8192
    let asked := r.asked.filter (fun a => a.1 != x.tag)
    (shake256 d 32 = slice (rawOf x) 8192 32 →
      ∃ m1, exec (.readData x) s = .next (onM (fun _ => askMore i j m1) s) ∧
        repairAt m1 i j = some { r with asked := asked, data := r.data.put chunk d } ∧ m1.mem = s.m.mem) ∧
    (shake256 d 32 ≠ slice (rawOf x) 8192 32 → r.retried.contains chunk = false →
      ∃ m1, exec (.readData x) s = .next (onM (fun _ => askMore i j (askChunk i j chunk m1)) s) ∧
        repairAt m1 i j = some { r with asked := asked, retried := r.retried ++ [chunk] } ∧ m1.mem = s.m.mem)) ∧
  (∀ (s : State) (x : Txn) (i : Nat) (e : Nat × List Byte), listening s.m → ctxOfTag s.m x.jobTag = some i → i < 16 → stepSound s.m i →
    repairOf (ctxAt s.m i) x.tag = none → (ctxAt s.m i).ckpt.verifying.find? (fun e => e.1 == x.tag) = some e →
    ∃ t, exec (.readData x) s = .next t ∧ (ctxAt t.m i).ckpt.verifying = (ctxAt s.m i).ckpt.verifying.filter (fun y => y.1 != x.tag) ∧
      (ctxAt t.m i).ckpt.verifyBad = (ctxAt s.m i).ckpt.verifyBad ++
        (if x.err = false ∧ slice (rawOf x) 0 48 = e.2 then [] else [octs e.2 0 2]))) ∧
  ((∀ (s : State) (i j v : Nat) (r : Repair), i < 16 →
    (List.range (ctxAt s.m i).repairs.length).find? (fun j => match (ctxAt s.m i).repairs[j]? with
      | some r => r.data.length == 256
      | none => false) = some j →
    repairAt s.m i j = some r → walkVpn s.m.mem r.page = .entry v → (ctxAt s.m i).st ≠ .free → (ctxAt s.m i).st ≠ .halt →
    stepPairOk (ctxAt s.m i) = true →
    let phys := cellsPut s.m.mem.phys (placeOf (pTier v) (pFrame v) 0) (r.data.flatMap Prod.snd)
    (∃ m1, exec (.repairComplete i true) s = .next (onM (fun _ => startPass i m1) s) ∧ m1.mem.phys = phys ∧
      (ctxAt m1 i).repairs = (ctxAt s.m i).repairs.eraseIdx j ∧
      m1.recStats = s.m.recStats.set 2 (min (2 ^ 64 - 1) (s.m.recStats.getD 2 0 + 1))) ∧
    (∃ t, exec (.repairComplete i false) s = .next t ∧ failedWith i 0 0x04 t.m ∧ t.m.mem.phys = phys ∧
      (pTier v = 0 → pFrame v ∈ t.m.mem.retired))) ∧
  (∀ (s : State) (i j : Nat) (r : Repair), i < 16 →
    (List.range (ctxAt s.m i).repairs.length).find? (fun j => match (ctxAt s.m i).repairs[j]? with
      | some r => r.started || r.usedOther
      | none => false) = some j →
    repairAt s.m i j = some r → (ctxAt s.m i).st ≠ .free → (ctxAt s.m i).st ≠ .halt →
    ∃ t, exec (.repairTimeout i) s = .next t ∧ failedWith i 0 0x04 t.m ∧ t.m.mem = s.m.mem ∧
      t.m.dev.time10 = max s.m.dev.time10 (r.since10 + dlatB s.m (ctxAt s.m i) 0x8100 0x03 * 10000)))

/-- R523, R525, R532: a checkpoint command that its conditions allow is busy until it completes, and any other is refused. RECORD's
completion writes the state record; RESTORE's takes step number, micro-batches and margins from it; DIGEST's writes the present
digests; VERIFY's tells what differed. RECORD and DIGEST wait for their reads of lower tiers (R59), and write nothing into an object of a
context that has left HELD or IDLE meanwhile (R52).
R528, R529: a WRITE of a neighbour into the reserve is written and acknowledged; one from elsewhere or outside it is answered with
ERROR and writes nothing. After the last acknowledgement of the data the half's header is sent, and once that is acknowledged the
copy is complete.
Where the manual leaves a choice, the model's is stated (log entries 1, 41, 42, 43). -/
def Obligations.CheckpointsRun : Prop :=
  ((∀ (s : State) (i cmd : Nat) (c : Instr), (cmd = 1 ∧ c = .record i) ∨ (cmd = 2 ∧ c = .restore i) ∨ (cmd = 3 ∧ c = .digest i) ∨
      (cmd = 4 ∧ c = .verify i) → writeState s.m.dev.st = 0 → i < 16 →
    (ckptAllowed s.m i cmd = false → exec c s = .next (refused 0x0E200007 s)) ∧
    (ckptAllowed s.m i cmd = true → ∃ t, exec c s = .next t ∧ Out.wrote ∈ t.m.out ∧ t.m.mem.phys = s.m.mem.phys ∧
      (lowSpans s.m.mem (digestSpans s.m i cmd) = [] → t.m.mem = s.m.mem) ∧
      (ctxAt t.m i).ckpt.status = ckptStatus cmd 1 0 0
        (if cmd = 1 then (ctxAt s.m i).step else vnum s.m.mem ((ctxAt s.m i).ckpt.va + 8) 8) ∧ (ctxAt t.m i).ckpt.verifyBad = [])) ∧
  (∀ (s : State) (i : Nat), i < 16 → octs (ctxAt s.m i).ckpt.status 1 1 = 1 → (ctxAt s.m i).ckpt.verifying = [] →
    digestReads s.m i = false →
    let c := ctxAt s.m i
    let rec' := readRecord s.m c.ckpt.va
    let next := octs c.ckpt.status 8 8
    let may := ckptWritable s.m i (octs c.ckpt.status 0 1) = true
    (octs c.ckpt.status 0 1 = 1 ∨ octs c.ckpt.status 0 1 = 3 → ¬may → exec (.checkpointCommandComplete i) s =
      .next (onM (modCtx i (fun c => { c with ckpt := { c.ckpt with status := ckptStatus (octs c.ckpt.status 0 1) 3 0 0 next } })) s)) ∧
    (octs c.ckpt.status 0 1 = 1 → may → ∃ t, exec (.checkpointCommandComplete i) s = .next t ∧
      t.m.mem = vput c.ckpt.va (stateRecord s.m i) s.m.mem ∧ (ctxAt t.m i).ckpt.status = ckptStatus 1 2 0 0 next) ∧
    (octs c.ckpt.status 0 1 = 2 → octs rec' 0 2 = 1 → c.st = .idle → c.everRan = false →
      ∃ t, exec (.checkpointCommandComplete i) s = .next t ∧ t.m.mem = s.m.mem ∧ (ctxAt t.m i).step = octs rec' 8 8 ∧
        (ctxAt t.m i).stepC = cpl 64 (octs rec' 8 8) ∧ (ctxAt t.m i).mb = octs rec' 3 1 ∧
        (ctxAt t.m i).margins = (List.range 64).map (fun l => octs rec' (32 + 4 * l) 4) ∧
        (ctxAt t.m i).ckpt.status = ckptStatus 2 2 0 0 next) ∧
    (octs c.ckpt.status 0 1 = 3 → may → ∃ t, exec (.checkpointCommandComplete i) s = .next t ∧
      t.m.mem = vput (c.ckpt.va + 4194304) (digestAll s.m i).1.flatten s.m.mem ∧ (ctxAt t.m i).ckpt.digested = true ∧
      (ctxAt t.m i).ckpt.status =
        ckptStatus 3 (if (digestAll s.m i).2 = [] then 2 else 3) ((digestAll s.m i).2.headD 0) (digestAll s.m i).2.length next) ∧
    (octs c.ckpt.status 0 1 = 4 → ∃ t, exec (.checkpointCommandComplete i) s = .next t ∧ t.m.mem = s.m.mem ∧
      (ctxAt t.m i).ckpt.status = ckptStatus 4 (if c.ckpt.verifyBad = [] then 2 else 3) (c.ckpt.verifyBad.headD 0) c.ckpt.verifyBad.length
        next))) ∧
  ((∀ (s : State) (x : Txn) (i : Nat), listening s.m → ctxOfTag s.m x.jobTag = some i → stepSound s.m i →
    let off := fld x.detail 55 0 - reserveVa
    let half := s.m.mem.reserve.length / 2 * 2 ^ 21
    let bs := rawOf x
    let acked := fun (err : Bool) (m : Mach) => ∃ y, Out.txn y ∈ m.out ∧ y.typ = 0x82 ∧ y.dest = x.src ∧ y.tag = x.tag ∧ y.err = err
    routable s.m x.src = true →
    (reserveVa ≤ fld x.detail 55 0 → fromNeighbour s.m none x.src = true → 0 < bs.length → off + bs.length ≤ 2 * half →
      ∃ t, exec (.write x) s = .next t ∧ acked false t.m ∧
        (off + bs.length ≤ half → t.m.mem = (reservePut 0 off bs s.m).mem) ∧
        (half ≤ off → t.m.mem = (reservePut 1 (off - half) bs s.m).mem) ∧
        (off < half → half < off + bs.length →
          t.m.mem = (reservePut 1 0 (bs.drop (half - off)) (reservePut 0 off (bs.take (half - off)) s.m)).mem)) ∧
    (fld x.detail 55 0 < reserveVa ∨ 2 * half < off + bs.length ∨ fromNeighbour s.m none x.src = false →
      ∃ t, exec (.write x) s = .next t ∧ acked true t.m ∧ t.m.mem = s.m.mem)) ∧
  (∀ (s : State) (x : Txn) (i : Nat), listening s.m → ctxOfTag s.m x.jobTag = some i → i < 16 → stepSound s.m i →
    (ctxAt s.m i).ckpt.fast = true →
    (ctxAt s.m i).ckpt.fastTags.contains x.tag = true →
    let tags := (ctxAt s.m i).ckpt.fastTags.filter (fun y => y != x.tag)
    (x.err = false → (tags ≠ [] ∨ (ctxAt s.m i).ckpt.fastHead = true) →
      exec (.writeAck x) s = .next (onM (modCtx i (fun c => { c with ckpt := { c.ckpt with fastTags := tags } })) s)) ∧
    (x.err = false → tags = [] → (ctxAt s.m i).ckpt.fastHead = false → routable s.m (portPeer s.m (dnum s.m 0x8100 0x0F)) = true →
      ∃ t, exec (.writeAck x) s = .next t ∧ (ctxAt t.m i).ckpt.fastHead = true ∧ (ctxAt t.m i).ckpt.fastTags = [s.m.tor.nextTag] ∧
        hasSent t.m 0x02 (portPeer s.m (dnum s.m 0x8100 0x0F)) (.raw (fastHeader s.m (ctxAt s.m i) true))) ∧
    (x.err = true → ∃ t, exec (.writeAck x) s = .next t ∧ (ctxAt t.m i).ckpt.fast = false ∧
      t.m.recStats = s.m.recStats.set 6 (min (2 ^ 64 - 1) (s.m.recStats.getD 6 0 + 1)))) ∧
  (∀ (s : State) (i : Nat), i < 16 → (ctxAt s.m i).ckpt.fast = true → (ctxAt s.m i).ckpt.fastHead = true →
    (ctxAt s.m i).ckpt.fastTags = [] →
    ∃ t, exec (.fastCkptCopyComplete i) s = .next t ∧ (ctxAt t.m i).ckpt.fast = false ∧ t.m.mem = s.m.mem ∧
      t.m.recStats = s.m.recStats.set 5 (min (2 ^ 64 - 1) (s.m.recStats.getD 5 0 + 1))))

/-! ## The whole device -/

/-- A step on the state with a command at the front of its queue is that command's effect on the state with the queue's rest; on an
empty queue, where the device is powered and out of reset, the stored pairs of the dictionary are checked (R580) and 1 ns of the time
base passes; where every pair agrees nothing but the time base differs (log entries 2, 49: the model's choice). -/
def Obligations.StepRunsTheFrontCommand : Prop :=
  (∀ (c : Instr) (rest : List Instr) (s : State), step { s with pending := c :: rest } = exec c { s with pending := rest }) ∧
  (∀ s : State, s.pending = [] → alive s.m = true → step s = .next (onM (fun m => timeBy 10 (scrubStore m)) s)) ∧
  (∀ s : State, s.pending = [] → alive s.m = false → step s = .next s) ∧
  (∀ s : State, s.pending = [] → alive s.m = true → (∀ p ∈ s.m.mgmt.dict, p.2.2 = cplBytes p.2.1) →
    step s = .next { s with m := { s.m with dev := { s.m.dev with time10 := s.m.dev.time10 + 10 } } })

/-- Every command, in every state and with every operand, answers a next state, and leaves the commands that wait as they are: none
stops the device, none is refused by the model, none is added, dropped or moved.
Where the manual leaves a choice, the model's is stated (log entry 1). -/
def Obligations.EveryCommandAnswers : Prop :=
  ∀ (c : Instr) (s : State), ∃ t, exec c s = .next t ∧ t.pending = s.pending

/-- R637, R641 to R644: the security state's invariant is kept by every step: until a hash is locked it is zero, an identity exists only
behind accepted firmware and its public key is that of its secret, and an owner's authorisation needs an owner's hash. -/
def Obligations.SecurityStateKept : Prop :=
  ∀ s t : State, SecInv s.boot → step s = .next t → SecInv t.boot

/-- R618, R641, R642: after reset the security state's invariant holds, no firmware is accepted, no hash is locked, and no challenge
or authorisation stands; the device is in RESET, no context is loaded, memory lists nothing and no command waits.
Where the manual leaves a choice, the model's is stated (log entries 3, 4). -/
def Obligations.SecurityAtReset : Prop :=
  SecInv State.reset.boot ∧ State.reset.boot.fwAccepted = false ∧ State.reset.boot.keyLocked = false ∧
  State.reset.boot.challenge = none ∧ State.reset.boot.keyKind = 0 ∧ State.reset.m.dev.st = .reset ∧
  (∀ i, i < 16 → (ctxAt State.reset.m i).st = .free) ∧ State.reset.m.mem.phys = [] ∧ State.reset.pending = []

/-- R425: a destination discards every transaction whose JobTag matches the tag of no loaded context, whatever its kind, and counts
it in `CNT_LNK_TAG_DISCARD`; nothing else differs. -/
def Obligations.UntaggedDiscarded : Prop :=
  ∀ (c : Instr) (x : Txn) (s : State), torusTxn c = some x → listening s.m →
    (c = .gather x ∨ c = .sampleFwd x → s.m.tor.held = []) →
    (∀ i, i < 16 → loaded (ctxAt s.m i) = true → (ctxAt s.m i).jobTag ≠ x.jobTag) →
    exec c s = .next (onM (count 0x6900 0x0C) s) ∧
    ∃ t, exec c s = .next t ∧ countedOnce 0x6900 0x0C s.m t.m ∧ t = { s with m := { s.m with cnt := t.m.cnt } }
end

