-- ==== Sys2Proof/Laws/Memory.lean ====
section
/-!
SUPPORT. The canonical list of cells (addresses rising, no zero octet): every memory operation keeps it, reset has it, and
a read after a write gives the octet written there and the old one elsewhere.
-/

namespace Sys2Proof.Laws

open Sys2Proof.Machine

/-- The canonical form, said with library words. -/
theorem cellsWf_iff (l : List Host.Cell) :
    cellsWf l = true ↔ (∀ p ∈ l, p.2 ≠ 0) ∧ l.Pairwise (fun a b => a.1 < b.1) := by
  induction l with
  | nil => simp [cellsWf]
  | cons x r ih =>
    cases r with
    | nil => obtain ⟨a, b⟩ := x; simp [cellsWf]
    | cons y r =>
      obtain ⟨a, b⟩ := x
      obtain ⟨a', b'⟩ := y
      simp only [cellsWf, Bool.and_eq_true, ih, bne_iff_ne, decide_eq_true_eq]
      constructor
      · rintro ⟨⟨hb, hlt⟩, hz, hp⟩
        refine ⟨?_, ?_⟩
        · intro p hp'
          rcases List.mem_cons.mp hp' with rfl | h
          · exact hb
          · exact hz p h
        · refine List.pairwise_cons.mpr ⟨?_, hp⟩
          intro p hp'
          rcases List.mem_cons.mp hp' with rfl | h
          · exact hlt
          · exact Nat.lt_trans hlt ((List.pairwise_cons.mp hp).1 p h)
      · rintro ⟨hz, hp⟩
        have hp' := List.pairwise_cons.mp hp
        exact ⟨⟨hz (a, b) (by simp), hp'.1 (a', b') (by simp)⟩, fun p h => hz p (by simp [h]), hp'.2⟩

/-- Three canonical lists, each wholly below the next, make one. -/
theorem cellsWf_append3 {x y z : List Host.Cell} (hx : cellsWf x) (hy : cellsWf y) (hz : cellsWf z)
    (hxy : ∀ p ∈ x, ∀ q ∈ y, p.1 < q.1) (hxz : ∀ p ∈ x, ∀ q ∈ z, p.1 < q.1) (hyz : ∀ p ∈ y, ∀ q ∈ z, p.1 < q.1) :
    cellsWf (x ++ y ++ z) := by
  rw [cellsWf_iff] at *
  refine ⟨?_, ?_⟩
  · intro p hp
    simp only [List.mem_append] at hp
    rcases hp with (h | h) | h
    · exact hx.1 p h
    · exact hy.1 p h
    · exact hz.1 p h
  · rw [List.pairwise_append, List.pairwise_append]
    refine ⟨⟨hx.2, hy.2, hxy⟩, hz.2, ?_⟩
    intro p hp q hq
    rcases List.mem_append.mp hp with h | h
    · exact hxz p h q hq
    · exact hyz p h q hq

theorem cellsWf_filter {l : List Host.Cell} (f : Host.Cell → Bool) (h : cellsWf l) : cellsWf (l.filter f) := by
  rw [cellsWf_iff] at *
  exact ⟨fun p hp => h.1 p (List.mem_filter.mp hp).1, h.2.filter f⟩

theorem zipCells_ge (bs : List Byte) (a : Nat) : ∀ p ∈ zipCells a bs, a ≤ p.1 ∧ p.1 < a + bs.length := by
  induction bs generalizing a with
  | nil => simp [zipCells]
  | cons b r ih =>
    intro p hp
    simp only [zipCells] at hp
    split at hp
    · have := ih (a + 1) p hp; simp only [List.length_cons]; omega
    · rcases List.mem_cons.mp hp with rfl | h
      · simp
      · have := ih (a + 1) p h; simp only [List.length_cons]; omega

theorem zipCells_wf (bs : List Byte) (a : Nat) : cellsWf (zipCells a bs) := by
  induction bs generalizing a with
  | nil => simp [zipCells, cellsWf]
  | cons b r ih =>
    simp only [zipCells]
    split
    · exact ih (a + 1)
    · rename_i hb
      have h := ih (a + 1)
      rw [cellsWf_iff] at *
      refine ⟨?_, List.pairwise_cons.mpr ⟨?_, h.2⟩⟩
      · intro p hp
        rcases List.mem_cons.mp hp with rfl | hp
        · simpa using hb
        · exact h.1 p hp
      · intro p hp
        exact (zipCells_ge r (a + 1) p hp).1

/-- Writing octets keeps the canonical form. -/
theorem cellsPut_wf {l : List Host.Cell} (a : Nat) (bs : List Byte) (h : cellsWf l) : cellsWf (cellsPut l a bs) := by
  refine cellsWf_append3 (cellsWf_filter _ h) (zipCells_wf bs a) (cellsWf_filter _ h) ?_ ?_ ?_
  · intro p hp q hq
    have h1 := (List.mem_filter.mp hp).2
    have h2 := (zipCells_ge bs a q hq).1
    simp only [decide_eq_true_eq] at h1
    omega
  · intro p hp q hq
    have h1 := (List.mem_filter.mp hp).2
    have h2 := (List.mem_filter.mp hq).2
    simp only [decide_eq_true_eq] at h1 h2
    omega
  · intro p hp q hq
    have h1 := (zipCells_ge bs a p hp).2
    have h2 := (List.mem_filter.mp hq).2
    simp only [decide_eq_true_eq] at h2
    omega

/-- Writing one octet keeps the canonical form. -/
theorem cellPut_wf {l : List Host.Cell} (a : Nat) (b : Byte) (h : cellsWf l) : cellsWf (cellPut l a b) := by
  have key : ∀ l : List Host.Cell, cellsWf l →
      cellsWf (cellPut l a b) ∧ ∀ p ∈ cellPut l a b, p ∈ l ∨ p.1 = a := by
    intro l
    induction l with
    | nil => intro _; simp only [cellPut]; split <;> simp_all [cellsWf]
    | cons x r ih =>
      obtain ⟨a', b'⟩ := x
      intro hw
      have hw' := hw
      rw [cellsWf_iff] at hw'
      have hp := List.pairwise_cons.mp hw'.2
      have hr : cellsWf r := by
        rw [cellsWf_iff]; exact ⟨fun p h => hw'.1 p (by simp [h]), hp.2⟩
      simp only [cellPut]
      split
      · rename_i hlt
        split
        · exact ⟨hw, fun p h => Or.inl h⟩
        · rename_i hb
          refine ⟨?_, ?_⟩
          · rw [cellsWf_iff]
            refine ⟨?_, List.pairwise_cons.mpr ⟨?_, hw'.2⟩⟩
            · intro p h
              rcases List.mem_cons.mp h with rfl | h
              · simpa using hb
              · exact hw'.1 p h
            · intro p h
              rcases List.mem_cons.mp h with rfl | h
              · exact hlt
              · exact Nat.lt_trans hlt (hp.1 p h)
          · intro p h
            rcases List.mem_cons.mp h with rfl | h
            · exact Or.inr rfl
            · exact Or.inl h
      · split
        · rename_i heq
          have e : a = a' := by simpa using heq
          subst e
          split
          · exact ⟨hr, fun p h => Or.inl (by simp [h])⟩
          · rename_i hb
            refine ⟨?_, ?_⟩
            · rw [cellsWf_iff]
              refine ⟨?_, List.pairwise_cons.mpr ⟨hp.1, hp.2⟩⟩
              intro p h
              rcases List.mem_cons.mp h with rfl | h
              · simpa using hb
              · exact hw'.1 p (by simp [h])
            · intro p h
              rcases List.mem_cons.mp h with rfl | h
              · exact Or.inr rfl
              · exact Or.inl (by simp [h])
        · rename_i hlt hne
          have hlt' : a' < a := by
            have : a ≠ a' := by simpa using hne
            omega
          obtain ⟨h1, h2⟩ := ih hr
          refine ⟨?_, ?_⟩
          · rw [cellsWf_iff] at h1 ⊢
            refine ⟨?_, List.pairwise_cons.mpr ⟨?_, h1.2⟩⟩
            · intro p h
              rcases List.mem_cons.mp h with rfl | h
              · exact hw'.1 (a', b') (by simp)
              · exact h1.1 p h
            · intro p h
              rcases h2 p h with h | h
              · exact hp.1 p h
              · rw [h]; exact hlt'
          · intro p h
            rcases List.mem_cons.mp h with rfl | h
            · exact Or.inl (by simp)
            · rcases h2 p h with h | h
              · exact Or.inl (by simp [h])
              · exact Or.inr h
  exact (key l h).1

/-- Copying a span keeps the canonical form. -/
theorem cellsCopy_wf {l : List Host.Cell} (src dst n : Nat) (h : cellsWf l) : cellsWf (cellsCopy l src dst n) := by
  have hw := h
  rw [cellsWf_iff] at hw
  have inside : ∀ p ∈ l.filter (fun p => decide (src ≤ p.1) && decide (p.1 < src + n)), src ≤ p.1 ∧ p.1 < src + n := by
    intro p hp
    have := (List.mem_filter.mp hp).2
    simpa using this
  refine cellsWf_append3 (cellsWf_filter _ h) ?_ (cellsWf_filter _ h) ?_ ?_ ?_
  · rw [cellsWf_iff]
    refine ⟨?_, ?_⟩
    · intro p hp
      obtain ⟨q, hq, rfl⟩ := List.mem_map.mp hp
      exact hw.1 q (List.mem_filter.mp hq).1
    · rw [List.pairwise_map]
      refine (hw.2.filter _).imp_of_mem ?_
      intro p q hp hq hlt
      have h1 := inside p hp
      have h2 := inside q hq
      show p.1 - src + dst < q.1 - src + dst
      omega
  · intro p hp q hq
    have h1 := (List.mem_filter.mp hp).2
    obtain ⟨x, hx, rfl⟩ := List.mem_map.mp hq
    simp only [decide_eq_true_eq] at h1
    show p.1 < x.1 - src + dst
    omega
  · intro p hp q hq
    have h1 := (List.mem_filter.mp hp).2
    have h2 := (List.mem_filter.mp hq).2
    simp only [decide_eq_true_eq] at h1 h2
    omega
  · intro p hp q hq
    obtain ⟨x, hx, rfl⟩ := List.mem_map.mp hp
    have h1 := inside x hx
    have h2 := (List.mem_filter.mp hq).2
    simp only [decide_eq_true_eq] at h2
    show x.1 - src + dst < q.1
    omega

/-- The memories right after reset are in canonical form. -/
theorem reset_mem_wf : State.reset.m.mem.wf = true := rfl

/-- An octet reads back as it was written. -/
theorem cellGet_cellPut_self (l : List Host.Cell) (a : Nat) (b : Byte) (h : cellsWf l) : cellGet (cellPut l a b) a = b := by
  induction l with
  | nil => simp only [cellPut]; split <;> simp_all [cellGet]
  | cons x r ih =>
    obtain ⟨a', b'⟩ := x
    rw [cellsWf_iff] at h
    have hp := List.pairwise_cons.mp h.2
    have hr : cellsWf r := by
      rw [cellsWf_iff]; exact ⟨fun p q => h.1 p (by simp [q]), hp.2⟩
    have absent : ∀ (l : List Host.Cell), (∀ p ∈ l, a < p.1) → cellGet l a = 0 := by
      intro l hl
      induction l with
      | nil => rfl
      | cons y s ihs =>
        obtain ⟨c, d⟩ := y
        have hc := hl (c, d) (by simp)
        have : ¬ (a == c) = true := by
          simp only [beq_iff_eq]
          simp only at hc
          omega
        simp only [cellGet, this]
        exact ihs (fun p q => hl p (by simp [q]))
    simp only [cellPut]
    split
    · rename_i hlt
      split
      · rename_i hb
        have : b = 0 := by simpa using hb
        rw [this]
        exact absent _ (by
          intro p q
          rcases List.mem_cons.mp q with rfl | q
          · exact hlt
          · exact Nat.lt_trans hlt (hp.1 p q))
      · simp [cellGet]
    · split
      · rename_i heq
        have e : a = a' := by simpa using heq
        subst e
        split
        · rename_i hb
          have : b = 0 := by simpa using hb
          rw [this]
          exact absent r hp.1
        · simp [cellGet]
      · rename_i hne
        simp only [cellGet]
        rw [if_neg hne]
        exact ih hr

/-- Other octets read as before. -/
theorem cellGet_cellPut_ne (l : List Host.Cell) (a c : Nat) (b : Byte) (h : c ≠ a) :
    cellGet (cellPut l a b) c = cellGet l c := by
  induction l with
  | nil => simp only [cellPut]; split <;> simp [cellGet, h]
  | cons x r ih =>
    obtain ⟨a', b'⟩ := x
    simp only [cellPut]
    split
    · split
      · rfl
      · simp [cellGet, h]
    · split
      · rename_i heq
        have e : a = a' := by simpa using heq
        subst e
        split <;> simp [cellGet, h]
      · simp only [cellGet]
        rw [ih]

/-! ### Operations over device virtual addresses -/

theorem foldl_keeps {α β : Type} (P : β → Prop) (f : β → α → β) (l : List α) (b : β) (h : P b) (hf : ∀ b a, P b → P (f b a)) :
    P (l.foldl f b) := by
  induction l generalizing b with
  | nil => exact h
  | cons a r ih => exact ih (f b a) (hf b a h)

theorem markDirty_phys (va n : Nat) (m : Mem) : (markDirty va n m).phys = m.phys := by
  simp only [markDirty]; split <;> rfl

theorem markDirty_staging (va n : Nat) (m : Mem) : (markDirty va n m).staging = m.staging := by
  simp only [markDirty]; split <;> rfl

/-- Writing a span keeps both memories canonical. -/
theorem vputs_wf (va : Nat) (bs : List Byte) (m : Mem) (h : m.wf) : (vputs va bs m).wf := by
  refine foldl_keeps (fun x : Mem => x.wf = true) _ _ m h ?_
  intro x p hx
  split
  · simp only [Mem.wf, Bool.and_eq_true, markDirty_phys, markDirty_staging] at hx ⊢
    exact ⟨cellsPut_wf _ _ hx.1, hx.2⟩
  · exact hx

/-- Setting an access flag changes no octet. -/
theorem touchPage_cells (p : Nat) (m : Mem) : (touchPage p m).phys = m.phys ∧ (touchPage p m).staging = m.staging := by
  unfold touchPage
  split
  · split <;> exact ⟨rfl, rfl⟩
  · exact ⟨rfl, rfl⟩

/-- Setting access flags changes no octet. -/
theorem vtouch_cells (va n : Nat) (m : Mem) : (vtouch va n m).phys = m.phys ∧ (vtouch va n m).staging = m.staging := by
  refine foldl_keeps (fun x : Mem => x.phys = m.phys ∧ x.staging = m.staging) _ _ m ⟨rfl, rfl⟩ ?_
  intro x p hx
  have h := touchPage_cells p x
  exact ⟨h.1.trans hx.1, h.2.trans hx.2⟩

/-- Writing a span and setting its access flags keeps both memories canonical. -/
theorem vput_wf (va : Nat) (bs : List Byte) (m : Mem) (h : m.wf) : (vput va bs m).wf := by
  have hc := vtouch_cells va bs.length (vputs va bs m)
  have hw := vputs_wf va bs m h
  simp only [Mem.wf] at hw ⊢
  simp only [vput, hc.1, hc.2]
  exact hw

end Sys2Proof.Laws
end

