-- ==== Sys2Proof/Laws/Access.lean ====
section
/-!
SUPPORT. What an access of a unit to virtual addresses can do (02 R54, R65, 11 R398), and what sending a lower-tier read or
write can do (R57, R60).
-/

namespace Sys2Proof.Laws

open Sys2Proof.Machine

/-- `b` differs from `a` at most in what an access writes: counters, the counter of free values, translation caches, grant
pointers and access flags. -/
def Accessed (a b : Mach) : Prop :=
  b = { a with cnt := b.cnt, freeCtr := b.freeCtr, mem := { a.mem with xlate := b.mem.xlate, grants := b.mem.grants, touched := b.mem.touched } }

theorem accessed_refl (a : Mach) : Accessed a a := rfl

theorem accessed_trans {a b c : Mach} (h : Accessed a b) (k : Accessed b c) : Accessed a c := by
  unfold Accessed at *
  rw [k, h]

theorem accessed_touchPage (p : Nat) (m : Mach) : Accessed m (onMem (touchPage p) m) := by
  simp only [Accessed, onMem, touchPage]
  split
  · split <;> rfl
  · rfl

theorem accessed_grantPage (x p : Nat) (m : Mach) : Accessed m (onMem (grantPage x p) m) := by
  simp only [Accessed, onMem, grantPage]
  split
  · split <;> rfl
  · rfl

theorem accessed_xlateOne (x p : Nat) (m : Mach) : Accessed m (xlateOne x p m) := by
  simp only [xlateOne]
  split
  · exact accessed_refl m
  · split <;> rfl

/-- An access touches no octet, page, object or context. -/
theorem accessed_accessPages (x : Nat) (ps : List Nat) (m : Mach) : Accessed m (accessPages x ps m) :=
  foldl_keeps (fun y => Accessed m y) _ ps m (accessed_refl m) (fun y p h =>
    accessed_trans h (accessed_trans (accessed_xlateOne x p y) (accessed_trans (accessed_grantPage x p _) (accessed_touchPage p _))))

theorem accessed_access (x va n : Nat) (m : Mach) : Accessed m (access x va n m) := accessed_accessPages x _ m

theorem accessed_accessAll (x : Nat) (l : List (Nat × Nat)) (m : Mach) : Accessed m (accessAll x l m) :=
  foldl_keeps (fun y => Accessed m y) _ l m (accessed_refl m) (fun y p h => accessed_trans h (accessed_access x p.1 p.2 y))

/-- A translation in the die of a page's HBM home is an access that meets its cache alone. -/
theorem accessed_homeXlate (va n : Nat) (m : Mach) : Accessed m (homeXlate va n m) :=
  foldl_keeps (fun y => Accessed m y) _ _ m (accessed_refl m) (fun y p h => accessed_trans h (accessed_xlateOne _ p y))

theorem accessed_vtouch (va n : Nat) (m : Mach) : Accessed m (onMem (vtouch va n) m) := by
  have k : ∀ (ps : List Nat) (y : Mach), Accessed m y → Accessed m (onMem (fun x => ps.foldl (fun x p => touchPage p x) x) y) := by
    intro ps
    induction ps with
    | nil => intro y h; exact h
    | cons p ps ih => intro y h; exact ih _ (accessed_trans h (accessed_touchPage p y))
  exact k _ m (accessed_refl m)

/-- The accesses of an engine that works in the background touch no octet, page, object or context either (R65). -/
theorem accessed_homeAccess (l : List (Nat × Nat)) (m : Mach) : Accessed m (homeAccess l m) :=
  foldl_keeps (fun y => Accessed m y) _ l m (accessed_refl m) (fun y p h =>
    accessed_trans h (accessed_trans (accessed_homeXlate p.1 p.2 y) (accessed_vtouch p.1 p.2 _)))

/-- A page that the cache holds is no miss: nothing counts (R54). -/
theorem xlateOne_hit (x p : Nat) (m : Mach) (h : (m.mem.xlate.get x []).contains p = true) : xlateOne x p m = m := by
  simp only [xlateOne, h, if_true]

/-- Where the context's step number agrees with its complement, what uses it runs (R503). -/
theorem stepUsed_ok (i : Nat) (f : Mach → Mach) (m : Mach) (h : stepPairOk (ctxAt m i) = true) : stepUsed i f m = f m := by
  simp only [stepUsed, h, if_true]

/-- Sending a lower-tier read puts one read among those outstanding, takes an identifier and moves grant pointers; octets, pages and
objects stay. -/
theorem sendTierRead_mem (i : Nat) (who : Waiter) (va len tier frame : Nat) (d : Option Nat) (m : Mach)
    (h : stepPairOk (ctxAt m i) = true) :
    ∃ (r : TierRead) (g : SMap Nat), r.who = who ∧ r.va = va ∧ r.len = len ∧ r.step = (ctxAt m i).step ∧ r.replay = (ctxAt m i).replay ∧
      (sendTierRead i who va len tier frame d m).mem =
        { m.mem with reads := m.mem.reads ++ [r], nextId := m.mem.nextId + 1, grants := g } := by
  simp only [sendTierRead, stepUsed_ok i id m h, id]
  split <;> exact ⟨_, _, rfl, rfl, rfl, rfl, rfl, rfl⟩

/-- Sending a lower-tier write puts one write among those outstanding, takes an identifier and moves grant pointers. -/
theorem sendTierWrite_mem (i vpn frame off : Nat) (mig : Bool) (out : Nat → Nat → Nat → Out) (m : Mach)
    (h : stepPairOk (ctxAt m i) = true) :
    ∃ g : SMap Nat, (sendTierWrite i vpn frame off mig out m).mem = { m.mem with
      writes := m.mem.writes ++ [⟨m.mem.nextId, i, frameRegion frame, frame, (ctxAt m i).step, (ctxAt m i).replay, if mig then some vpn else none⟩]
      nextId := m.mem.nextId + 1, grants := g } := by
  simp only [sendTierWrite, stepUsed_ok i id m h, id]
  exact ⟨_, rfl⟩

end Sys2Proof.Laws
end

