-- ==== Sys2Proof/Laws/Host.lean ====
section
/-!
SUPPORT. What the device's reads and writes of host addresses, and the end of a ring's command, can do (17 R563, R564, R566, R569).
-/

namespace Sys2Proof.Laws

open Sys2Proof.Machine

/-- `b` differs from `a` at most in what a host read shows: counters, what left the device, and access flags. -/
def HostRead (a b : Mach) : Prop :=
  b = { a with cnt := b.cnt, out := b.out, mem := { a.mem with touched := b.mem.touched } }

/-- `b` differs from `a` at most in what a host write shows: the same, and octets of HBM. -/
def HostWritten (a b : Mach) : Prop :=
  b = { a with cnt := b.cnt, out := b.out, mem := { a.mem with phys := b.mem.phys, touched := b.mem.touched } }

theorem hostRead_refl (a : Mach) : HostRead a a := rfl
theorem hostWritten_refl (a : Mach) : HostWritten a a := rfl

theorem hostRead_trans {a b c : Mach} (h : HostRead a b) (k : HostRead b c) : HostRead a c := by
  unfold HostRead at *
  rw [k, h]

theorem hostWritten_trans {a b c : Mach} (h : HostWritten a b) (k : HostWritten b c) : HostWritten a c := by
  unfold HostWritten at *
  rw [k, h]

theorem hostRead_snoop (x off n : Nat) (m : Mach) : HostRead m (hdmTouch off n (snoopLine x m)) := rfl

/-- Reading a span of host addresses leaves every octet, page, object, context and ring as it is. -/
theorem readLines_keeps (x n : Nat) (m : Mach) : HostRead m (readLines x n m) :=
  foldl_keeps (fun y => HostRead m y) _ _ m (hostRead_refl m) (fun y p h => hostRead_trans h (by
    split
    · exact hostRead_snoop p _ _ y
    · rfl))

/-- Writing a span of host addresses leaves every page, object, context and ring as it is. -/
theorem writeLines_keeps (x : Nat) (bs : List Byte) (m : Mach) : HostWritten m (writeLines x bs m) := by
  unfold writeLines
  split
  · rfl
  · exact foldl_keeps (fun y => HostWritten m y) _ _ m (hostWritten_refl m) (fun y p h => hostWritten_trans h (by
      dsimp only
      split <;> rfl))

/-- Fetching an entry moves the ring's consumer count and the turn, and reads the entry's octets. -/
theorem fetchEntry_keeps (k : Nat) (m : Mach) :
    fetchEntry k m = { m with
      cxl := (fetchEntry k m).cxl, cnt := (fetchEntry k m).cnt, out := (fetchEntry k m).out,
      mem := { m.mem with touched := (fetchEntry k m).mem.touched } } := by
  have h := readLines_keeps (cmdPlace (cmdRing m k) (cmdRing m k).consumed) 64
    (setCmdRing k { cmdRing m k with consumed := ((cmdRing m k).consumed + 1) % 2 ^ 32 } m)
  unfold HostRead at h
  unfold fetchEntry
  dsimp only
  rw [h]
  rfl

end Sys2Proof.Laws
end

