-- ==== Sys2Proof/Laws/State.lean ====
section
/-!
SUPPORT. What each named update of the state changes and what it leaves: one lemma a field an update, each true by
definition.
-/

namespace Sys2Proof.Laws

open Sys2Proof.Machine

/-! ### onMem -/

@[simp] theorem onMem_dev (f : Mem → Mem) (m : Mach) : (onMem f m).dev = m.dev := rfl
@[simp] theorem onMem_mgmt (f : Mem → Mem) (m : Mach) : (onMem f m).mgmt = m.mgmt := rfl
@[simp] theorem onMem_cxl (f : Mem → Mem) (m : Mach) : (onMem f m).cxl = m.cxl := rfl
@[simp] theorem onMem_pwr (f : Mem → Mem) (m : Mach) : (onMem f m).pwr = m.pwr := rfl
@[simp] theorem onMem_tor (f : Mem → Mem) (m : Mach) : (onMem f m).tor = m.tor := rfl
@[simp] theorem onMem_mem (f : Mem → Mem) (m : Mach) : (onMem f m).mem = f m.mem := rfl
@[simp] theorem onMem_ctxs (f : Mem → Mem) (m : Mach) : (onMem f m).ctxs = m.ctxs := rfl
@[simp] theorem onMem_cores (f : Mem → Mem) (m : Mach) : (onMem f m).cores = m.cores := rfl
@[simp] theorem onMem_sinters (f : Mem → Mem) (m : Mach) : (onMem f m).sinters = m.sinters := rfl
@[simp] theorem onMem_streams (f : Mem → Mem) (m : Mach) : (onMem f m).streams = m.streams := rfl
@[simp] theorem onMem_samplers (f : Mem → Mem) (m : Mach) : (onMem f m).samplers = m.samplers := rfl
@[simp] theorem onMem_smpDescs (f : Mem → Mem) (m : Mach) : (onMem f m).smpDescs = m.smpDescs := rfl
@[simp] theorem onMem_engines (f : Mem → Mem) (m : Mach) : (onMem f m).engines = m.engines := rfl
@[simp] theorem onMem_gsDescs (f : Mem → Mem) (m : Mach) : (onMem f m).gsDescs = m.gsDescs := rfl
@[simp] theorem onMem_served (f : Mem → Mem) (m : Mach) : (onMem f m).served = m.served := rfl
@[simp] theorem onMem_targets (f : Mem → Mem) (m : Mach) : (onMem f m).targets = m.targets := rfl
@[simp] theorem onMem_tables (f : Mem → Mem) (m : Mach) : (onMem f m).tables = m.tables := rfl
@[simp] theorem onMem_tabSnap (f : Mem → Mem) (m : Mach) : (onMem f m).tabSnap = m.tabSnap := rfl
@[simp] theorem onMem_copies (f : Mem → Mem) (m : Mach) : (onMem f m).copies = m.copies := rfl
@[simp] theorem onMem_shards (f : Mem → Mem) (m : Mach) : (onMem f m).shards = m.shards := rfl
@[simp] theorem onMem_cnt (f : Mem → Mem) (m : Mach) : (onMem f m).cnt = m.cnt := rfl
@[simp] theorem onMem_lastDataError (f : Mem → Mem) (m : Mach) : (onMem f m).lastDataError = m.lastDataError := rfl
@[simp] theorem onMem_recStats (f : Mem → Mem) (m : Mach) : (onMem f m).recStats = m.recStats := rfl
@[simp] theorem onMem_out (f : Mem → Mem) (m : Mach) : (onMem f m).out = m.out := rfl
@[simp] theorem onMem_freeCtr (f : Mem → Mem) (m : Mach) : (onMem f m).freeCtr = m.freeCtr := rfl

/-! ### onPwr -/

@[simp] theorem onPwr_dev (f : Power → Power) (m : Mach) : (onPwr f m).dev = m.dev := rfl
@[simp] theorem onPwr_mgmt (f : Power → Power) (m : Mach) : (onPwr f m).mgmt = m.mgmt := rfl
@[simp] theorem onPwr_cxl (f : Power → Power) (m : Mach) : (onPwr f m).cxl = m.cxl := rfl
@[simp] theorem onPwr_pwr (f : Power → Power) (m : Mach) : (onPwr f m).pwr = f m.pwr := rfl
@[simp] theorem onPwr_tor (f : Power → Power) (m : Mach) : (onPwr f m).tor = m.tor := rfl
@[simp] theorem onPwr_mem (f : Power → Power) (m : Mach) : (onPwr f m).mem = m.mem := rfl
@[simp] theorem onPwr_ctxs (f : Power → Power) (m : Mach) : (onPwr f m).ctxs = m.ctxs := rfl
@[simp] theorem onPwr_cores (f : Power → Power) (m : Mach) : (onPwr f m).cores = m.cores := rfl
@[simp] theorem onPwr_sinters (f : Power → Power) (m : Mach) : (onPwr f m).sinters = m.sinters := rfl
@[simp] theorem onPwr_streams (f : Power → Power) (m : Mach) : (onPwr f m).streams = m.streams := rfl
@[simp] theorem onPwr_samplers (f : Power → Power) (m : Mach) : (onPwr f m).samplers = m.samplers := rfl
@[simp] theorem onPwr_smpDescs (f : Power → Power) (m : Mach) : (onPwr f m).smpDescs = m.smpDescs := rfl
@[simp] theorem onPwr_engines (f : Power → Power) (m : Mach) : (onPwr f m).engines = m.engines := rfl
@[simp] theorem onPwr_gsDescs (f : Power → Power) (m : Mach) : (onPwr f m).gsDescs = m.gsDescs := rfl
@[simp] theorem onPwr_served (f : Power → Power) (m : Mach) : (onPwr f m).served = m.served := rfl
@[simp] theorem onPwr_targets (f : Power → Power) (m : Mach) : (onPwr f m).targets = m.targets := rfl
@[simp] theorem onPwr_tables (f : Power → Power) (m : Mach) : (onPwr f m).tables = m.tables := rfl
@[simp] theorem onPwr_tabSnap (f : Power → Power) (m : Mach) : (onPwr f m).tabSnap = m.tabSnap := rfl
@[simp] theorem onPwr_copies (f : Power → Power) (m : Mach) : (onPwr f m).copies = m.copies := rfl
@[simp] theorem onPwr_shards (f : Power → Power) (m : Mach) : (onPwr f m).shards = m.shards := rfl
@[simp] theorem onPwr_cnt (f : Power → Power) (m : Mach) : (onPwr f m).cnt = m.cnt := rfl
@[simp] theorem onPwr_lastDataError (f : Power → Power) (m : Mach) : (onPwr f m).lastDataError = m.lastDataError := rfl
@[simp] theorem onPwr_recStats (f : Power → Power) (m : Mach) : (onPwr f m).recStats = m.recStats := rfl
@[simp] theorem onPwr_out (f : Power → Power) (m : Mach) : (onPwr f m).out = m.out := rfl
@[simp] theorem onPwr_freeCtr (f : Power → Power) (m : Mach) : (onPwr f m).freeCtr = m.freeCtr := rfl

/-! ### setCtx -/

@[simp] theorem setCtx_dev (i : Nat) (c : Ctx) (m : Mach) : (setCtx i c m).dev = m.dev := rfl
@[simp] theorem setCtx_mgmt (i : Nat) (c : Ctx) (m : Mach) : (setCtx i c m).mgmt = m.mgmt := rfl
@[simp] theorem setCtx_cxl (i : Nat) (c : Ctx) (m : Mach) : (setCtx i c m).cxl = m.cxl := rfl
@[simp] theorem setCtx_pwr (i : Nat) (c : Ctx) (m : Mach) : (setCtx i c m).pwr = m.pwr := rfl
@[simp] theorem setCtx_tor (i : Nat) (c : Ctx) (m : Mach) : (setCtx i c m).tor = m.tor := rfl
@[simp] theorem setCtx_mem (i : Nat) (c : Ctx) (m : Mach) : (setCtx i c m).mem = m.mem := rfl
@[simp] theorem setCtx_ctxs (i : Nat) (c : Ctx) (m : Mach) : (setCtx i c m).ctxs = m.ctxs.set i c := rfl
@[simp] theorem setCtx_cores (i : Nat) (c : Ctx) (m : Mach) : (setCtx i c m).cores = m.cores := rfl
@[simp] theorem setCtx_sinters (i : Nat) (c : Ctx) (m : Mach) : (setCtx i c m).sinters = m.sinters := rfl
@[simp] theorem setCtx_streams (i : Nat) (c : Ctx) (m : Mach) : (setCtx i c m).streams = m.streams := rfl
@[simp] theorem setCtx_samplers (i : Nat) (c : Ctx) (m : Mach) : (setCtx i c m).samplers = m.samplers := rfl
@[simp] theorem setCtx_smpDescs (i : Nat) (c : Ctx) (m : Mach) : (setCtx i c m).smpDescs = m.smpDescs := rfl
@[simp] theorem setCtx_engines (i : Nat) (c : Ctx) (m : Mach) : (setCtx i c m).engines = m.engines := rfl
@[simp] theorem setCtx_gsDescs (i : Nat) (c : Ctx) (m : Mach) : (setCtx i c m).gsDescs = m.gsDescs := rfl
@[simp] theorem setCtx_served (i : Nat) (c : Ctx) (m : Mach) : (setCtx i c m).served = m.served := rfl
@[simp] theorem setCtx_targets (i : Nat) (c : Ctx) (m : Mach) : (setCtx i c m).targets = m.targets := rfl
@[simp] theorem setCtx_tables (i : Nat) (c : Ctx) (m : Mach) : (setCtx i c m).tables = m.tables := rfl
@[simp] theorem setCtx_tabSnap (i : Nat) (c : Ctx) (m : Mach) : (setCtx i c m).tabSnap = m.tabSnap := rfl
@[simp] theorem setCtx_copies (i : Nat) (c : Ctx) (m : Mach) : (setCtx i c m).copies = m.copies := rfl
@[simp] theorem setCtx_shards (i : Nat) (c : Ctx) (m : Mach) : (setCtx i c m).shards = m.shards := rfl
@[simp] theorem setCtx_cnt (i : Nat) (c : Ctx) (m : Mach) : (setCtx i c m).cnt = m.cnt := rfl
@[simp] theorem setCtx_lastDataError (i : Nat) (c : Ctx) (m : Mach) : (setCtx i c m).lastDataError = m.lastDataError := rfl
@[simp] theorem setCtx_recStats (i : Nat) (c : Ctx) (m : Mach) : (setCtx i c m).recStats = m.recStats := rfl
@[simp] theorem setCtx_out (i : Nat) (c : Ctx) (m : Mach) : (setCtx i c m).out = m.out := rfl
@[simp] theorem setCtx_freeCtr (i : Nat) (c : Ctx) (m : Mach) : (setCtx i c m).freeCtr = m.freeCtr := rfl

/-! ### modCtx -/

@[simp] theorem modCtx_dev (i : Nat) (f : Ctx → Ctx) (m : Mach) : (modCtx i f m).dev = m.dev := rfl
@[simp] theorem modCtx_mgmt (i : Nat) (f : Ctx → Ctx) (m : Mach) : (modCtx i f m).mgmt = m.mgmt := rfl
@[simp] theorem modCtx_cxl (i : Nat) (f : Ctx → Ctx) (m : Mach) : (modCtx i f m).cxl = m.cxl := rfl
@[simp] theorem modCtx_pwr (i : Nat) (f : Ctx → Ctx) (m : Mach) : (modCtx i f m).pwr = m.pwr := rfl
@[simp] theorem modCtx_tor (i : Nat) (f : Ctx → Ctx) (m : Mach) : (modCtx i f m).tor = m.tor := rfl
@[simp] theorem modCtx_mem (i : Nat) (f : Ctx → Ctx) (m : Mach) : (modCtx i f m).mem = m.mem := rfl
@[simp] theorem modCtx_ctxs (i : Nat) (f : Ctx → Ctx) (m : Mach) : (modCtx i f m).ctxs = m.ctxs.set i (f (ctxAt m i)) := rfl
@[simp] theorem modCtx_cores (i : Nat) (f : Ctx → Ctx) (m : Mach) : (modCtx i f m).cores = m.cores := rfl
@[simp] theorem modCtx_sinters (i : Nat) (f : Ctx → Ctx) (m : Mach) : (modCtx i f m).sinters = m.sinters := rfl
@[simp] theorem modCtx_streams (i : Nat) (f : Ctx → Ctx) (m : Mach) : (modCtx i f m).streams = m.streams := rfl
@[simp] theorem modCtx_samplers (i : Nat) (f : Ctx → Ctx) (m : Mach) : (modCtx i f m).samplers = m.samplers := rfl
@[simp] theorem modCtx_smpDescs (i : Nat) (f : Ctx → Ctx) (m : Mach) : (modCtx i f m).smpDescs = m.smpDescs := rfl
@[simp] theorem modCtx_engines (i : Nat) (f : Ctx → Ctx) (m : Mach) : (modCtx i f m).engines = m.engines := rfl
@[simp] theorem modCtx_gsDescs (i : Nat) (f : Ctx → Ctx) (m : Mach) : (modCtx i f m).gsDescs = m.gsDescs := rfl
@[simp] theorem modCtx_served (i : Nat) (f : Ctx → Ctx) (m : Mach) : (modCtx i f m).served = m.served := rfl
@[simp] theorem modCtx_targets (i : Nat) (f : Ctx → Ctx) (m : Mach) : (modCtx i f m).targets = m.targets := rfl
@[simp] theorem modCtx_tables (i : Nat) (f : Ctx → Ctx) (m : Mach) : (modCtx i f m).tables = m.tables := rfl
@[simp] theorem modCtx_tabSnap (i : Nat) (f : Ctx → Ctx) (m : Mach) : (modCtx i f m).tabSnap = m.tabSnap := rfl
@[simp] theorem modCtx_copies (i : Nat) (f : Ctx → Ctx) (m : Mach) : (modCtx i f m).copies = m.copies := rfl
@[simp] theorem modCtx_shards (i : Nat) (f : Ctx → Ctx) (m : Mach) : (modCtx i f m).shards = m.shards := rfl
@[simp] theorem modCtx_cnt (i : Nat) (f : Ctx → Ctx) (m : Mach) : (modCtx i f m).cnt = m.cnt := rfl
@[simp] theorem modCtx_lastDataError (i : Nat) (f : Ctx → Ctx) (m : Mach) : (modCtx i f m).lastDataError = m.lastDataError := rfl
@[simp] theorem modCtx_recStats (i : Nat) (f : Ctx → Ctx) (m : Mach) : (modCtx i f m).recStats = m.recStats := rfl
@[simp] theorem modCtx_out (i : Nat) (f : Ctx → Ctx) (m : Mach) : (modCtx i f m).out = m.out := rfl
@[simp] theorem modCtx_freeCtr (i : Nat) (f : Ctx → Ctx) (m : Mach) : (modCtx i f m).freeCtr = m.freeCtr := rfl

/-! ### modPass -/

@[simp] theorem modPass_dev (i : Nat) (f : Pass → Pass) (m : Mach) : (modPass i f m).dev = m.dev := rfl
@[simp] theorem modPass_mgmt (i : Nat) (f : Pass → Pass) (m : Mach) : (modPass i f m).mgmt = m.mgmt := rfl
@[simp] theorem modPass_cxl (i : Nat) (f : Pass → Pass) (m : Mach) : (modPass i f m).cxl = m.cxl := rfl
@[simp] theorem modPass_pwr (i : Nat) (f : Pass → Pass) (m : Mach) : (modPass i f m).pwr = m.pwr := rfl
@[simp] theorem modPass_tor (i : Nat) (f : Pass → Pass) (m : Mach) : (modPass i f m).tor = m.tor := rfl
@[simp] theorem modPass_mem (i : Nat) (f : Pass → Pass) (m : Mach) : (modPass i f m).mem = m.mem := rfl
@[simp] theorem modPass_cores (i : Nat) (f : Pass → Pass) (m : Mach) : (modPass i f m).cores = m.cores := rfl
@[simp] theorem modPass_sinters (i : Nat) (f : Pass → Pass) (m : Mach) : (modPass i f m).sinters = m.sinters := rfl
@[simp] theorem modPass_streams (i : Nat) (f : Pass → Pass) (m : Mach) : (modPass i f m).streams = m.streams := rfl
@[simp] theorem modPass_samplers (i : Nat) (f : Pass → Pass) (m : Mach) : (modPass i f m).samplers = m.samplers := rfl
@[simp] theorem modPass_smpDescs (i : Nat) (f : Pass → Pass) (m : Mach) : (modPass i f m).smpDescs = m.smpDescs := rfl
@[simp] theorem modPass_engines (i : Nat) (f : Pass → Pass) (m : Mach) : (modPass i f m).engines = m.engines := rfl
@[simp] theorem modPass_gsDescs (i : Nat) (f : Pass → Pass) (m : Mach) : (modPass i f m).gsDescs = m.gsDescs := rfl
@[simp] theorem modPass_served (i : Nat) (f : Pass → Pass) (m : Mach) : (modPass i f m).served = m.served := rfl
@[simp] theorem modPass_targets (i : Nat) (f : Pass → Pass) (m : Mach) : (modPass i f m).targets = m.targets := rfl
@[simp] theorem modPass_tables (i : Nat) (f : Pass → Pass) (m : Mach) : (modPass i f m).tables = m.tables := rfl
@[simp] theorem modPass_tabSnap (i : Nat) (f : Pass → Pass) (m : Mach) : (modPass i f m).tabSnap = m.tabSnap := rfl
@[simp] theorem modPass_copies (i : Nat) (f : Pass → Pass) (m : Mach) : (modPass i f m).copies = m.copies := rfl
@[simp] theorem modPass_shards (i : Nat) (f : Pass → Pass) (m : Mach) : (modPass i f m).shards = m.shards := rfl
@[simp] theorem modPass_cnt (i : Nat) (f : Pass → Pass) (m : Mach) : (modPass i f m).cnt = m.cnt := rfl
@[simp] theorem modPass_lastDataError (i : Nat) (f : Pass → Pass) (m : Mach) : (modPass i f m).lastDataError = m.lastDataError := rfl
@[simp] theorem modPass_recStats (i : Nat) (f : Pass → Pass) (m : Mach) : (modPass i f m).recStats = m.recStats := rfl
@[simp] theorem modPass_out (i : Nat) (f : Pass → Pass) (m : Mach) : (modPass i f m).out = m.out := rfl
@[simp] theorem modPass_freeCtr (i : Nat) (f : Pass → Pass) (m : Mach) : (modPass i f m).freeCtr = m.freeCtr := rfl

/-! ### modGey -/

@[simp] theorem modGey_dev (i : Nat) (f : Geyser → Geyser) (m : Mach) : (modGey i f m).dev = m.dev := rfl
@[simp] theorem modGey_mgmt (i : Nat) (f : Geyser → Geyser) (m : Mach) : (modGey i f m).mgmt = m.mgmt := rfl
@[simp] theorem modGey_cxl (i : Nat) (f : Geyser → Geyser) (m : Mach) : (modGey i f m).cxl = m.cxl := rfl
@[simp] theorem modGey_pwr (i : Nat) (f : Geyser → Geyser) (m : Mach) : (modGey i f m).pwr = m.pwr := rfl
@[simp] theorem modGey_tor (i : Nat) (f : Geyser → Geyser) (m : Mach) : (modGey i f m).tor = m.tor := rfl
@[simp] theorem modGey_mem (i : Nat) (f : Geyser → Geyser) (m : Mach) : (modGey i f m).mem = m.mem := rfl
@[simp] theorem modGey_cores (i : Nat) (f : Geyser → Geyser) (m : Mach) : (modGey i f m).cores = m.cores := rfl
@[simp] theorem modGey_sinters (i : Nat) (f : Geyser → Geyser) (m : Mach) : (modGey i f m).sinters = m.sinters := rfl
@[simp] theorem modGey_streams (i : Nat) (f : Geyser → Geyser) (m : Mach) : (modGey i f m).streams = m.streams := rfl
@[simp] theorem modGey_samplers (i : Nat) (f : Geyser → Geyser) (m : Mach) : (modGey i f m).samplers = m.samplers := rfl
@[simp] theorem modGey_smpDescs (i : Nat) (f : Geyser → Geyser) (m : Mach) : (modGey i f m).smpDescs = m.smpDescs := rfl
@[simp] theorem modGey_engines (i : Nat) (f : Geyser → Geyser) (m : Mach) : (modGey i f m).engines = m.engines := rfl
@[simp] theorem modGey_gsDescs (i : Nat) (f : Geyser → Geyser) (m : Mach) : (modGey i f m).gsDescs = m.gsDescs := rfl
@[simp] theorem modGey_served (i : Nat) (f : Geyser → Geyser) (m : Mach) : (modGey i f m).served = m.served := rfl
@[simp] theorem modGey_targets (i : Nat) (f : Geyser → Geyser) (m : Mach) : (modGey i f m).targets = m.targets := rfl
@[simp] theorem modGey_tables (i : Nat) (f : Geyser → Geyser) (m : Mach) : (modGey i f m).tables = m.tables := rfl
@[simp] theorem modGey_tabSnap (i : Nat) (f : Geyser → Geyser) (m : Mach) : (modGey i f m).tabSnap = m.tabSnap := rfl
@[simp] theorem modGey_copies (i : Nat) (f : Geyser → Geyser) (m : Mach) : (modGey i f m).copies = m.copies := rfl
@[simp] theorem modGey_shards (i : Nat) (f : Geyser → Geyser) (m : Mach) : (modGey i f m).shards = m.shards := rfl
@[simp] theorem modGey_cnt (i : Nat) (f : Geyser → Geyser) (m : Mach) : (modGey i f m).cnt = m.cnt := rfl
@[simp] theorem modGey_lastDataError (i : Nat) (f : Geyser → Geyser) (m : Mach) : (modGey i f m).lastDataError = m.lastDataError := rfl
@[simp] theorem modGey_recStats (i : Nat) (f : Geyser → Geyser) (m : Mach) : (modGey i f m).recStats = m.recStats := rfl
@[simp] theorem modGey_out (i : Nat) (f : Geyser → Geyser) (m : Mach) : (modGey i f m).out = m.out := rfl
@[simp] theorem modGey_freeCtr (i : Nat) (f : Geyser → Geyser) (m : Mach) : (modGey i f m).freeCtr = m.freeCtr := rfl

/-! ### setPort -/

@[simp] theorem setPort_dev (p : Nat) (x : Port) (m : Mach) : (setPort p x m).dev = m.dev := rfl
@[simp] theorem setPort_mgmt (p : Nat) (x : Port) (m : Mach) : (setPort p x m).mgmt = m.mgmt := rfl
@[simp] theorem setPort_cxl (p : Nat) (x : Port) (m : Mach) : (setPort p x m).cxl = m.cxl := rfl
@[simp] theorem setPort_pwr (p : Nat) (x : Port) (m : Mach) : (setPort p x m).pwr = m.pwr := rfl
@[simp] theorem setPort_tor (p : Nat) (x : Port) (m : Mach) : (setPort p x m).tor = { m.tor with ports := m.tor.ports.set p x } := rfl
@[simp] theorem setPort_mem (p : Nat) (x : Port) (m : Mach) : (setPort p x m).mem = m.mem := rfl
@[simp] theorem setPort_ctxs (p : Nat) (x : Port) (m : Mach) : (setPort p x m).ctxs = m.ctxs := rfl
@[simp] theorem setPort_cores (p : Nat) (x : Port) (m : Mach) : (setPort p x m).cores = m.cores := rfl
@[simp] theorem setPort_sinters (p : Nat) (x : Port) (m : Mach) : (setPort p x m).sinters = m.sinters := rfl
@[simp] theorem setPort_streams (p : Nat) (x : Port) (m : Mach) : (setPort p x m).streams = m.streams := rfl
@[simp] theorem setPort_samplers (p : Nat) (x : Port) (m : Mach) : (setPort p x m).samplers = m.samplers := rfl
@[simp] theorem setPort_smpDescs (p : Nat) (x : Port) (m : Mach) : (setPort p x m).smpDescs = m.smpDescs := rfl
@[simp] theorem setPort_engines (p : Nat) (x : Port) (m : Mach) : (setPort p x m).engines = m.engines := rfl
@[simp] theorem setPort_gsDescs (p : Nat) (x : Port) (m : Mach) : (setPort p x m).gsDescs = m.gsDescs := rfl
@[simp] theorem setPort_served (p : Nat) (x : Port) (m : Mach) : (setPort p x m).served = m.served := rfl
@[simp] theorem setPort_targets (p : Nat) (x : Port) (m : Mach) : (setPort p x m).targets = m.targets := rfl
@[simp] theorem setPort_tables (p : Nat) (x : Port) (m : Mach) : (setPort p x m).tables = m.tables := rfl
@[simp] theorem setPort_tabSnap (p : Nat) (x : Port) (m : Mach) : (setPort p x m).tabSnap = m.tabSnap := rfl
@[simp] theorem setPort_copies (p : Nat) (x : Port) (m : Mach) : (setPort p x m).copies = m.copies := rfl
@[simp] theorem setPort_shards (p : Nat) (x : Port) (m : Mach) : (setPort p x m).shards = m.shards := rfl
@[simp] theorem setPort_cnt (p : Nat) (x : Port) (m : Mach) : (setPort p x m).cnt = m.cnt := rfl
@[simp] theorem setPort_lastDataError (p : Nat) (x : Port) (m : Mach) : (setPort p x m).lastDataError = m.lastDataError := rfl
@[simp] theorem setPort_recStats (p : Nat) (x : Port) (m : Mach) : (setPort p x m).recStats = m.recStats := rfl
@[simp] theorem setPort_out (p : Nat) (x : Port) (m : Mach) : (setPort p x m).out = m.out := rfl
@[simp] theorem setPort_freeCtr (p : Nat) (x : Port) (m : Mach) : (setPort p x m).freeCtr = m.freeCtr := rfl

/-! ### setCxlPort -/

@[simp] theorem setCxlPort_dev (p : Nat) (x : CxlPort) (m : Mach) : (setCxlPort p x m).dev = m.dev := rfl
@[simp] theorem setCxlPort_mgmt (p : Nat) (x : CxlPort) (m : Mach) : (setCxlPort p x m).mgmt = m.mgmt := rfl
@[simp] theorem setCxlPort_cxl (p : Nat) (x : CxlPort) (m : Mach) : (setCxlPort p x m).cxl = { m.cxl with ports := m.cxl.ports.set p x } := rfl
@[simp] theorem setCxlPort_pwr (p : Nat) (x : CxlPort) (m : Mach) : (setCxlPort p x m).pwr = m.pwr := rfl
@[simp] theorem setCxlPort_tor (p : Nat) (x : CxlPort) (m : Mach) : (setCxlPort p x m).tor = m.tor := rfl
@[simp] theorem setCxlPort_mem (p : Nat) (x : CxlPort) (m : Mach) : (setCxlPort p x m).mem = m.mem := rfl
@[simp] theorem setCxlPort_ctxs (p : Nat) (x : CxlPort) (m : Mach) : (setCxlPort p x m).ctxs = m.ctxs := rfl
@[simp] theorem setCxlPort_cores (p : Nat) (x : CxlPort) (m : Mach) : (setCxlPort p x m).cores = m.cores := rfl
@[simp] theorem setCxlPort_sinters (p : Nat) (x : CxlPort) (m : Mach) : (setCxlPort p x m).sinters = m.sinters := rfl
@[simp] theorem setCxlPort_streams (p : Nat) (x : CxlPort) (m : Mach) : (setCxlPort p x m).streams = m.streams := rfl
@[simp] theorem setCxlPort_samplers (p : Nat) (x : CxlPort) (m : Mach) : (setCxlPort p x m).samplers = m.samplers := rfl
@[simp] theorem setCxlPort_smpDescs (p : Nat) (x : CxlPort) (m : Mach) : (setCxlPort p x m).smpDescs = m.smpDescs := rfl
@[simp] theorem setCxlPort_engines (p : Nat) (x : CxlPort) (m : Mach) : (setCxlPort p x m).engines = m.engines := rfl
@[simp] theorem setCxlPort_gsDescs (p : Nat) (x : CxlPort) (m : Mach) : (setCxlPort p x m).gsDescs = m.gsDescs := rfl
@[simp] theorem setCxlPort_served (p : Nat) (x : CxlPort) (m : Mach) : (setCxlPort p x m).served = m.served := rfl
@[simp] theorem setCxlPort_targets (p : Nat) (x : CxlPort) (m : Mach) : (setCxlPort p x m).targets = m.targets := rfl
@[simp] theorem setCxlPort_tables (p : Nat) (x : CxlPort) (m : Mach) : (setCxlPort p x m).tables = m.tables := rfl
@[simp] theorem setCxlPort_tabSnap (p : Nat) (x : CxlPort) (m : Mach) : (setCxlPort p x m).tabSnap = m.tabSnap := rfl
@[simp] theorem setCxlPort_copies (p : Nat) (x : CxlPort) (m : Mach) : (setCxlPort p x m).copies = m.copies := rfl
@[simp] theorem setCxlPort_shards (p : Nat) (x : CxlPort) (m : Mach) : (setCxlPort p x m).shards = m.shards := rfl
@[simp] theorem setCxlPort_cnt (p : Nat) (x : CxlPort) (m : Mach) : (setCxlPort p x m).cnt = m.cnt := rfl
@[simp] theorem setCxlPort_lastDataError (p : Nat) (x : CxlPort) (m : Mach) : (setCxlPort p x m).lastDataError = m.lastDataError := rfl
@[simp] theorem setCxlPort_recStats (p : Nat) (x : CxlPort) (m : Mach) : (setCxlPort p x m).recStats = m.recStats := rfl
@[simp] theorem setCxlPort_out (p : Nat) (x : CxlPort) (m : Mach) : (setCxlPort p x m).out = m.out := rfl
@[simp] theorem setCxlPort_freeCtr (p : Nat) (x : CxlPort) (m : Mach) : (setCxlPort p x m).freeCtr = m.freeCtr := rfl

/-! ### setCmdRing -/

@[simp] theorem setCmdRing_dev (k : Nat) (r : CmdRing) (m : Mach) : (setCmdRing k r m).dev = m.dev := rfl
@[simp] theorem setCmdRing_mgmt (k : Nat) (r : CmdRing) (m : Mach) : (setCmdRing k r m).mgmt = m.mgmt := rfl
@[simp] theorem setCmdRing_cxl (k : Nat) (r : CmdRing) (m : Mach) : (setCmdRing k r m).cxl = { m.cxl with rings := m.cxl.rings.set k r } := rfl
@[simp] theorem setCmdRing_pwr (k : Nat) (r : CmdRing) (m : Mach) : (setCmdRing k r m).pwr = m.pwr := rfl
@[simp] theorem setCmdRing_tor (k : Nat) (r : CmdRing) (m : Mach) : (setCmdRing k r m).tor = m.tor := rfl
@[simp] theorem setCmdRing_mem (k : Nat) (r : CmdRing) (m : Mach) : (setCmdRing k r m).mem = m.mem := rfl
@[simp] theorem setCmdRing_ctxs (k : Nat) (r : CmdRing) (m : Mach) : (setCmdRing k r m).ctxs = m.ctxs := rfl
@[simp] theorem setCmdRing_cores (k : Nat) (r : CmdRing) (m : Mach) : (setCmdRing k r m).cores = m.cores := rfl
@[simp] theorem setCmdRing_sinters (k : Nat) (r : CmdRing) (m : Mach) : (setCmdRing k r m).sinters = m.sinters := rfl
@[simp] theorem setCmdRing_streams (k : Nat) (r : CmdRing) (m : Mach) : (setCmdRing k r m).streams = m.streams := rfl
@[simp] theorem setCmdRing_samplers (k : Nat) (r : CmdRing) (m : Mach) : (setCmdRing k r m).samplers = m.samplers := rfl
@[simp] theorem setCmdRing_smpDescs (k : Nat) (r : CmdRing) (m : Mach) : (setCmdRing k r m).smpDescs = m.smpDescs := rfl
@[simp] theorem setCmdRing_engines (k : Nat) (r : CmdRing) (m : Mach) : (setCmdRing k r m).engines = m.engines := rfl
@[simp] theorem setCmdRing_gsDescs (k : Nat) (r : CmdRing) (m : Mach) : (setCmdRing k r m).gsDescs = m.gsDescs := rfl
@[simp] theorem setCmdRing_served (k : Nat) (r : CmdRing) (m : Mach) : (setCmdRing k r m).served = m.served := rfl
@[simp] theorem setCmdRing_targets (k : Nat) (r : CmdRing) (m : Mach) : (setCmdRing k r m).targets = m.targets := rfl
@[simp] theorem setCmdRing_tables (k : Nat) (r : CmdRing) (m : Mach) : (setCmdRing k r m).tables = m.tables := rfl
@[simp] theorem setCmdRing_tabSnap (k : Nat) (r : CmdRing) (m : Mach) : (setCmdRing k r m).tabSnap = m.tabSnap := rfl
@[simp] theorem setCmdRing_copies (k : Nat) (r : CmdRing) (m : Mach) : (setCmdRing k r m).copies = m.copies := rfl
@[simp] theorem setCmdRing_shards (k : Nat) (r : CmdRing) (m : Mach) : (setCmdRing k r m).shards = m.shards := rfl
@[simp] theorem setCmdRing_cnt (k : Nat) (r : CmdRing) (m : Mach) : (setCmdRing k r m).cnt = m.cnt := rfl
@[simp] theorem setCmdRing_lastDataError (k : Nat) (r : CmdRing) (m : Mach) : (setCmdRing k r m).lastDataError = m.lastDataError := rfl
@[simp] theorem setCmdRing_recStats (k : Nat) (r : CmdRing) (m : Mach) : (setCmdRing k r m).recStats = m.recStats := rfl
@[simp] theorem setCmdRing_out (k : Nat) (r : CmdRing) (m : Mach) : (setCmdRing k r m).out = m.out := rfl
@[simp] theorem setCmdRing_freeCtr (k : Nat) (r : CmdRing) (m : Mach) : (setCmdRing k r m).freeCtr = m.freeCtr := rfl

/-! ### setCore -/

@[simp] theorem setCore_dev (k : Nat) (c : Core) (m : Mach) : (setCore k c m).dev = m.dev := rfl
@[simp] theorem setCore_mgmt (k : Nat) (c : Core) (m : Mach) : (setCore k c m).mgmt = m.mgmt := rfl
@[simp] theorem setCore_cxl (k : Nat) (c : Core) (m : Mach) : (setCore k c m).cxl = m.cxl := rfl
@[simp] theorem setCore_pwr (k : Nat) (c : Core) (m : Mach) : (setCore k c m).pwr = m.pwr := rfl
@[simp] theorem setCore_tor (k : Nat) (c : Core) (m : Mach) : (setCore k c m).tor = m.tor := rfl
@[simp] theorem setCore_mem (k : Nat) (c : Core) (m : Mach) : (setCore k c m).mem = m.mem := rfl
@[simp] theorem setCore_ctxs (k : Nat) (c : Core) (m : Mach) : (setCore k c m).ctxs = m.ctxs := rfl
@[simp] theorem setCore_cores (k : Nat) (c : Core) (m : Mach) : (setCore k c m).cores = m.cores.put k c := rfl
@[simp] theorem setCore_sinters (k : Nat) (c : Core) (m : Mach) : (setCore k c m).sinters = m.sinters := rfl
@[simp] theorem setCore_streams (k : Nat) (c : Core) (m : Mach) : (setCore k c m).streams = m.streams := rfl
@[simp] theorem setCore_samplers (k : Nat) (c : Core) (m : Mach) : (setCore k c m).samplers = m.samplers := rfl
@[simp] theorem setCore_smpDescs (k : Nat) (c : Core) (m : Mach) : (setCore k c m).smpDescs = m.smpDescs := rfl
@[simp] theorem setCore_engines (k : Nat) (c : Core) (m : Mach) : (setCore k c m).engines = m.engines := rfl
@[simp] theorem setCore_gsDescs (k : Nat) (c : Core) (m : Mach) : (setCore k c m).gsDescs = m.gsDescs := rfl
@[simp] theorem setCore_served (k : Nat) (c : Core) (m : Mach) : (setCore k c m).served = m.served := rfl
@[simp] theorem setCore_targets (k : Nat) (c : Core) (m : Mach) : (setCore k c m).targets = m.targets := rfl
@[simp] theorem setCore_tables (k : Nat) (c : Core) (m : Mach) : (setCore k c m).tables = m.tables := rfl
@[simp] theorem setCore_tabSnap (k : Nat) (c : Core) (m : Mach) : (setCore k c m).tabSnap = m.tabSnap := rfl
@[simp] theorem setCore_copies (k : Nat) (c : Core) (m : Mach) : (setCore k c m).copies = m.copies := rfl
@[simp] theorem setCore_shards (k : Nat) (c : Core) (m : Mach) : (setCore k c m).shards = m.shards := rfl
@[simp] theorem setCore_cnt (k : Nat) (c : Core) (m : Mach) : (setCore k c m).cnt = m.cnt := rfl
@[simp] theorem setCore_lastDataError (k : Nat) (c : Core) (m : Mach) : (setCore k c m).lastDataError = m.lastDataError := rfl
@[simp] theorem setCore_recStats (k : Nat) (c : Core) (m : Mach) : (setCore k c m).recStats = m.recStats := rfl
@[simp] theorem setCore_out (k : Nat) (c : Core) (m : Mach) : (setCore k c m).out = m.out := rfl
@[simp] theorem setCore_freeCtr (k : Nat) (c : Core) (m : Mach) : (setCore k c m).freeCtr = m.freeCtr := rfl

/-! ### modCore -/

@[simp] theorem modCore_dev (k : Nat) (f : Core → Core) (m : Mach) : (modCore k f m).dev = m.dev := rfl
@[simp] theorem modCore_mgmt (k : Nat) (f : Core → Core) (m : Mach) : (modCore k f m).mgmt = m.mgmt := rfl
@[simp] theorem modCore_cxl (k : Nat) (f : Core → Core) (m : Mach) : (modCore k f m).cxl = m.cxl := rfl
@[simp] theorem modCore_pwr (k : Nat) (f : Core → Core) (m : Mach) : (modCore k f m).pwr = m.pwr := rfl
@[simp] theorem modCore_tor (k : Nat) (f : Core → Core) (m : Mach) : (modCore k f m).tor = m.tor := rfl
@[simp] theorem modCore_mem (k : Nat) (f : Core → Core) (m : Mach) : (modCore k f m).mem = m.mem := rfl
@[simp] theorem modCore_ctxs (k : Nat) (f : Core → Core) (m : Mach) : (modCore k f m).ctxs = m.ctxs := rfl
@[simp] theorem modCore_cores (k : Nat) (f : Core → Core) (m : Mach) : (modCore k f m).cores = m.cores.put k (f (coreAt m k)) := rfl
@[simp] theorem modCore_sinters (k : Nat) (f : Core → Core) (m : Mach) : (modCore k f m).sinters = m.sinters := rfl
@[simp] theorem modCore_streams (k : Nat) (f : Core → Core) (m : Mach) : (modCore k f m).streams = m.streams := rfl
@[simp] theorem modCore_samplers (k : Nat) (f : Core → Core) (m : Mach) : (modCore k f m).samplers = m.samplers := rfl
@[simp] theorem modCore_smpDescs (k : Nat) (f : Core → Core) (m : Mach) : (modCore k f m).smpDescs = m.smpDescs := rfl
@[simp] theorem modCore_engines (k : Nat) (f : Core → Core) (m : Mach) : (modCore k f m).engines = m.engines := rfl
@[simp] theorem modCore_gsDescs (k : Nat) (f : Core → Core) (m : Mach) : (modCore k f m).gsDescs = m.gsDescs := rfl
@[simp] theorem modCore_served (k : Nat) (f : Core → Core) (m : Mach) : (modCore k f m).served = m.served := rfl
@[simp] theorem modCore_targets (k : Nat) (f : Core → Core) (m : Mach) : (modCore k f m).targets = m.targets := rfl
@[simp] theorem modCore_tables (k : Nat) (f : Core → Core) (m : Mach) : (modCore k f m).tables = m.tables := rfl
@[simp] theorem modCore_tabSnap (k : Nat) (f : Core → Core) (m : Mach) : (modCore k f m).tabSnap = m.tabSnap := rfl
@[simp] theorem modCore_copies (k : Nat) (f : Core → Core) (m : Mach) : (modCore k f m).copies = m.copies := rfl
@[simp] theorem modCore_shards (k : Nat) (f : Core → Core) (m : Mach) : (modCore k f m).shards = m.shards := rfl
@[simp] theorem modCore_cnt (k : Nat) (f : Core → Core) (m : Mach) : (modCore k f m).cnt = m.cnt := rfl
@[simp] theorem modCore_lastDataError (k : Nat) (f : Core → Core) (m : Mach) : (modCore k f m).lastDataError = m.lastDataError := rfl
@[simp] theorem modCore_recStats (k : Nat) (f : Core → Core) (m : Mach) : (modCore k f m).recStats = m.recStats := rfl
@[simp] theorem modCore_out (k : Nat) (f : Core → Core) (m : Mach) : (modCore k f m).out = m.out := rfl
@[simp] theorem modCore_freeCtr (k : Nat) (f : Core → Core) (m : Mach) : (modCore k f m).freeCtr = m.freeCtr := rfl

/-! ### countN -/

@[simp] theorem countN_dev (a b n : Nat) (m : Mach) : (countN a b n m).dev = m.dev := rfl
@[simp] theorem countN_mgmt (a b n : Nat) (m : Mach) : (countN a b n m).mgmt = m.mgmt := rfl
@[simp] theorem countN_cxl (a b n : Nat) (m : Mach) : (countN a b n m).cxl = m.cxl := rfl
@[simp] theorem countN_pwr (a b n : Nat) (m : Mach) : (countN a b n m).pwr = m.pwr := rfl
@[simp] theorem countN_tor (a b n : Nat) (m : Mach) : (countN a b n m).tor = m.tor := rfl
@[simp] theorem countN_mem (a b n : Nat) (m : Mach) : (countN a b n m).mem = m.mem := rfl
@[simp] theorem countN_ctxs (a b n : Nat) (m : Mach) : (countN a b n m).ctxs = m.ctxs := rfl
@[simp] theorem countN_cores (a b n : Nat) (m : Mach) : (countN a b n m).cores = m.cores := rfl
@[simp] theorem countN_sinters (a b n : Nat) (m : Mach) : (countN a b n m).sinters = m.sinters := rfl
@[simp] theorem countN_streams (a b n : Nat) (m : Mach) : (countN a b n m).streams = m.streams := rfl
@[simp] theorem countN_samplers (a b n : Nat) (m : Mach) : (countN a b n m).samplers = m.samplers := rfl
@[simp] theorem countN_smpDescs (a b n : Nat) (m : Mach) : (countN a b n m).smpDescs = m.smpDescs := rfl
@[simp] theorem countN_engines (a b n : Nat) (m : Mach) : (countN a b n m).engines = m.engines := rfl
@[simp] theorem countN_gsDescs (a b n : Nat) (m : Mach) : (countN a b n m).gsDescs = m.gsDescs := rfl
@[simp] theorem countN_served (a b n : Nat) (m : Mach) : (countN a b n m).served = m.served := rfl
@[simp] theorem countN_targets (a b n : Nat) (m : Mach) : (countN a b n m).targets = m.targets := rfl
@[simp] theorem countN_tables (a b n : Nat) (m : Mach) : (countN a b n m).tables = m.tables := rfl
@[simp] theorem countN_tabSnap (a b n : Nat) (m : Mach) : (countN a b n m).tabSnap = m.tabSnap := rfl
@[simp] theorem countN_copies (a b n : Nat) (m : Mach) : (countN a b n m).copies = m.copies := rfl
@[simp] theorem countN_shards (a b n : Nat) (m : Mach) : (countN a b n m).shards = m.shards := rfl
@[simp] theorem countN_lastDataError (a b n : Nat) (m : Mach) : (countN a b n m).lastDataError = m.lastDataError := rfl
@[simp] theorem countN_recStats (a b n : Nat) (m : Mach) : (countN a b n m).recStats = m.recStats := rfl
@[simp] theorem countN_out (a b n : Nat) (m : Mach) : (countN a b n m).out = m.out := rfl
@[simp] theorem countN_freeCtr (a b n : Nat) (m : Mach) : (countN a b n m).freeCtr = m.freeCtr := rfl

/-! ### count -/

@[simp] theorem count_dev (a b : Nat) (m : Mach) : (count a b m).dev = m.dev := rfl
@[simp] theorem count_mgmt (a b : Nat) (m : Mach) : (count a b m).mgmt = m.mgmt := rfl
@[simp] theorem count_cxl (a b : Nat) (m : Mach) : (count a b m).cxl = m.cxl := rfl
@[simp] theorem count_pwr (a b : Nat) (m : Mach) : (count a b m).pwr = m.pwr := rfl
@[simp] theorem count_tor (a b : Nat) (m : Mach) : (count a b m).tor = m.tor := rfl
@[simp] theorem count_mem (a b : Nat) (m : Mach) : (count a b m).mem = m.mem := rfl
@[simp] theorem count_ctxs (a b : Nat) (m : Mach) : (count a b m).ctxs = m.ctxs := rfl
@[simp] theorem count_cores (a b : Nat) (m : Mach) : (count a b m).cores = m.cores := rfl
@[simp] theorem count_sinters (a b : Nat) (m : Mach) : (count a b m).sinters = m.sinters := rfl
@[simp] theorem count_streams (a b : Nat) (m : Mach) : (count a b m).streams = m.streams := rfl
@[simp] theorem count_samplers (a b : Nat) (m : Mach) : (count a b m).samplers = m.samplers := rfl
@[simp] theorem count_smpDescs (a b : Nat) (m : Mach) : (count a b m).smpDescs = m.smpDescs := rfl
@[simp] theorem count_engines (a b : Nat) (m : Mach) : (count a b m).engines = m.engines := rfl
@[simp] theorem count_gsDescs (a b : Nat) (m : Mach) : (count a b m).gsDescs = m.gsDescs := rfl
@[simp] theorem count_served (a b : Nat) (m : Mach) : (count a b m).served = m.served := rfl
@[simp] theorem count_targets (a b : Nat) (m : Mach) : (count a b m).targets = m.targets := rfl
@[simp] theorem count_tables (a b : Nat) (m : Mach) : (count a b m).tables = m.tables := rfl
@[simp] theorem count_tabSnap (a b : Nat) (m : Mach) : (count a b m).tabSnap = m.tabSnap := rfl
@[simp] theorem count_copies (a b : Nat) (m : Mach) : (count a b m).copies = m.copies := rfl
@[simp] theorem count_shards (a b : Nat) (m : Mach) : (count a b m).shards = m.shards := rfl
@[simp] theorem count_lastDataError (a b : Nat) (m : Mach) : (count a b m).lastDataError = m.lastDataError := rfl
@[simp] theorem count_recStats (a b : Nat) (m : Mach) : (count a b m).recStats = m.recStats := rfl
@[simp] theorem count_out (a b : Nat) (m : Mach) : (count a b m).out = m.out := rfl
@[simp] theorem count_freeCtr (a b : Nat) (m : Mach) : (count a b m).freeCtr = m.freeCtr := rfl

/-! ### emit -/

@[simp] theorem emit_dev (o : Out) (m : Mach) : (emit o m).dev = m.dev := rfl
@[simp] theorem emit_mgmt (o : Out) (m : Mach) : (emit o m).mgmt = m.mgmt := rfl
@[simp] theorem emit_cxl (o : Out) (m : Mach) : (emit o m).cxl = m.cxl := rfl
@[simp] theorem emit_pwr (o : Out) (m : Mach) : (emit o m).pwr = m.pwr := rfl
@[simp] theorem emit_tor (o : Out) (m : Mach) : (emit o m).tor = m.tor := rfl
@[simp] theorem emit_mem (o : Out) (m : Mach) : (emit o m).mem = m.mem := rfl
@[simp] theorem emit_ctxs (o : Out) (m : Mach) : (emit o m).ctxs = m.ctxs := rfl
@[simp] theorem emit_cores (o : Out) (m : Mach) : (emit o m).cores = m.cores := rfl
@[simp] theorem emit_sinters (o : Out) (m : Mach) : (emit o m).sinters = m.sinters := rfl
@[simp] theorem emit_streams (o : Out) (m : Mach) : (emit o m).streams = m.streams := rfl
@[simp] theorem emit_samplers (o : Out) (m : Mach) : (emit o m).samplers = m.samplers := rfl
@[simp] theorem emit_smpDescs (o : Out) (m : Mach) : (emit o m).smpDescs = m.smpDescs := rfl
@[simp] theorem emit_engines (o : Out) (m : Mach) : (emit o m).engines = m.engines := rfl
@[simp] theorem emit_gsDescs (o : Out) (m : Mach) : (emit o m).gsDescs = m.gsDescs := rfl
@[simp] theorem emit_served (o : Out) (m : Mach) : (emit o m).served = m.served := rfl
@[simp] theorem emit_targets (o : Out) (m : Mach) : (emit o m).targets = m.targets := rfl
@[simp] theorem emit_tables (o : Out) (m : Mach) : (emit o m).tables = m.tables := rfl
@[simp] theorem emit_tabSnap (o : Out) (m : Mach) : (emit o m).tabSnap = m.tabSnap := rfl
@[simp] theorem emit_copies (o : Out) (m : Mach) : (emit o m).copies = m.copies := rfl
@[simp] theorem emit_shards (o : Out) (m : Mach) : (emit o m).shards = m.shards := rfl
@[simp] theorem emit_cnt (o : Out) (m : Mach) : (emit o m).cnt = m.cnt := rfl
@[simp] theorem emit_lastDataError (o : Out) (m : Mach) : (emit o m).lastDataError = m.lastDataError := rfl
@[simp] theorem emit_recStats (o : Out) (m : Mach) : (emit o m).recStats = m.recStats := rfl
@[simp] theorem emit_out (o : Out) (m : Mach) : (emit o m).out = m.out ++ [o] := rfl
@[simp] theorem emit_freeCtr (o : Out) (m : Mach) : (emit o m).freeCtr = m.freeCtr := rfl

/-! ### timeTo -/

@[simp] theorem timeTo_dev (n : Nat) (m : Mach) : (timeTo n m).dev = { m.dev with time10 := max m.dev.time10 n } := rfl
@[simp] theorem timeTo_mgmt (n : Nat) (m : Mach) : (timeTo n m).mgmt = m.mgmt := rfl
@[simp] theorem timeTo_cxl (n : Nat) (m : Mach) : (timeTo n m).cxl = m.cxl := rfl
@[simp] theorem timeTo_pwr (n : Nat) (m : Mach) : (timeTo n m).pwr = m.pwr := rfl
@[simp] theorem timeTo_tor (n : Nat) (m : Mach) : (timeTo n m).tor = m.tor := rfl
@[simp] theorem timeTo_mem (n : Nat) (m : Mach) : (timeTo n m).mem = m.mem := rfl
@[simp] theorem timeTo_ctxs (n : Nat) (m : Mach) : (timeTo n m).ctxs = m.ctxs := rfl
@[simp] theorem timeTo_cores (n : Nat) (m : Mach) : (timeTo n m).cores = m.cores := rfl
@[simp] theorem timeTo_sinters (n : Nat) (m : Mach) : (timeTo n m).sinters = m.sinters := rfl
@[simp] theorem timeTo_streams (n : Nat) (m : Mach) : (timeTo n m).streams = m.streams := rfl
@[simp] theorem timeTo_samplers (n : Nat) (m : Mach) : (timeTo n m).samplers = m.samplers := rfl
@[simp] theorem timeTo_smpDescs (n : Nat) (m : Mach) : (timeTo n m).smpDescs = m.smpDescs := rfl
@[simp] theorem timeTo_engines (n : Nat) (m : Mach) : (timeTo n m).engines = m.engines := rfl
@[simp] theorem timeTo_gsDescs (n : Nat) (m : Mach) : (timeTo n m).gsDescs = m.gsDescs := rfl
@[simp] theorem timeTo_served (n : Nat) (m : Mach) : (timeTo n m).served = m.served := rfl
@[simp] theorem timeTo_targets (n : Nat) (m : Mach) : (timeTo n m).targets = m.targets := rfl
@[simp] theorem timeTo_tables (n : Nat) (m : Mach) : (timeTo n m).tables = m.tables := rfl
@[simp] theorem timeTo_tabSnap (n : Nat) (m : Mach) : (timeTo n m).tabSnap = m.tabSnap := rfl
@[simp] theorem timeTo_copies (n : Nat) (m : Mach) : (timeTo n m).copies = m.copies := rfl
@[simp] theorem timeTo_shards (n : Nat) (m : Mach) : (timeTo n m).shards = m.shards := rfl
@[simp] theorem timeTo_cnt (n : Nat) (m : Mach) : (timeTo n m).cnt = m.cnt := rfl
@[simp] theorem timeTo_lastDataError (n : Nat) (m : Mach) : (timeTo n m).lastDataError = m.lastDataError := rfl
@[simp] theorem timeTo_recStats (n : Nat) (m : Mach) : (timeTo n m).recStats = m.recStats := rfl
@[simp] theorem timeTo_out (n : Nat) (m : Mach) : (timeTo n m).out = m.out := rfl
@[simp] theorem timeTo_freeCtr (n : Nat) (m : Mach) : (timeTo n m).freeCtr = m.freeCtr := rfl

/-! ### timeBy -/

@[simp] theorem timeBy_dev (n : Nat) (m : Mach) : (timeBy n m).dev = { m.dev with time10 := m.dev.time10 + n } := rfl
@[simp] theorem timeBy_mgmt (n : Nat) (m : Mach) : (timeBy n m).mgmt = m.mgmt := rfl
@[simp] theorem timeBy_cxl (n : Nat) (m : Mach) : (timeBy n m).cxl = m.cxl := rfl
@[simp] theorem timeBy_pwr (n : Nat) (m : Mach) : (timeBy n m).pwr = m.pwr := rfl
@[simp] theorem timeBy_tor (n : Nat) (m : Mach) : (timeBy n m).tor = m.tor := rfl
@[simp] theorem timeBy_mem (n : Nat) (m : Mach) : (timeBy n m).mem = m.mem := rfl
@[simp] theorem timeBy_ctxs (n : Nat) (m : Mach) : (timeBy n m).ctxs = m.ctxs := rfl
@[simp] theorem timeBy_cores (n : Nat) (m : Mach) : (timeBy n m).cores = m.cores := rfl
@[simp] theorem timeBy_sinters (n : Nat) (m : Mach) : (timeBy n m).sinters = m.sinters := rfl
@[simp] theorem timeBy_streams (n : Nat) (m : Mach) : (timeBy n m).streams = m.streams := rfl
@[simp] theorem timeBy_samplers (n : Nat) (m : Mach) : (timeBy n m).samplers = m.samplers := rfl
@[simp] theorem timeBy_smpDescs (n : Nat) (m : Mach) : (timeBy n m).smpDescs = m.smpDescs := rfl
@[simp] theorem timeBy_engines (n : Nat) (m : Mach) : (timeBy n m).engines = m.engines := rfl
@[simp] theorem timeBy_gsDescs (n : Nat) (m : Mach) : (timeBy n m).gsDescs = m.gsDescs := rfl
@[simp] theorem timeBy_served (n : Nat) (m : Mach) : (timeBy n m).served = m.served := rfl
@[simp] theorem timeBy_targets (n : Nat) (m : Mach) : (timeBy n m).targets = m.targets := rfl
@[simp] theorem timeBy_tables (n : Nat) (m : Mach) : (timeBy n m).tables = m.tables := rfl
@[simp] theorem timeBy_tabSnap (n : Nat) (m : Mach) : (timeBy n m).tabSnap = m.tabSnap := rfl
@[simp] theorem timeBy_copies (n : Nat) (m : Mach) : (timeBy n m).copies = m.copies := rfl
@[simp] theorem timeBy_shards (n : Nat) (m : Mach) : (timeBy n m).shards = m.shards := rfl
@[simp] theorem timeBy_cnt (n : Nat) (m : Mach) : (timeBy n m).cnt = m.cnt := rfl
@[simp] theorem timeBy_lastDataError (n : Nat) (m : Mach) : (timeBy n m).lastDataError = m.lastDataError := rfl
@[simp] theorem timeBy_recStats (n : Nat) (m : Mach) : (timeBy n m).recStats = m.recStats := rfl
@[simp] theorem timeBy_out (n : Nat) (m : Mach) : (timeBy n m).out = m.out := rfl
@[simp] theorem timeBy_freeCtr (n : Nat) (m : Mach) : (timeBy n m).freeCtr = m.freeCtr := rfl

/-! ### recStat -/

@[simp] theorem recStat_dev (k : Nat) (m : Mach) : (recStat k m).dev = m.dev := rfl
@[simp] theorem recStat_mgmt (k : Nat) (m : Mach) : (recStat k m).mgmt = m.mgmt := rfl
@[simp] theorem recStat_cxl (k : Nat) (m : Mach) : (recStat k m).cxl = m.cxl := rfl
@[simp] theorem recStat_pwr (k : Nat) (m : Mach) : (recStat k m).pwr = m.pwr := rfl
@[simp] theorem recStat_tor (k : Nat) (m : Mach) : (recStat k m).tor = m.tor := rfl
@[simp] theorem recStat_mem (k : Nat) (m : Mach) : (recStat k m).mem = m.mem := rfl
@[simp] theorem recStat_ctxs (k : Nat) (m : Mach) : (recStat k m).ctxs = m.ctxs := rfl
@[simp] theorem recStat_cores (k : Nat) (m : Mach) : (recStat k m).cores = m.cores := rfl
@[simp] theorem recStat_sinters (k : Nat) (m : Mach) : (recStat k m).sinters = m.sinters := rfl
@[simp] theorem recStat_streams (k : Nat) (m : Mach) : (recStat k m).streams = m.streams := rfl
@[simp] theorem recStat_samplers (k : Nat) (m : Mach) : (recStat k m).samplers = m.samplers := rfl
@[simp] theorem recStat_smpDescs (k : Nat) (m : Mach) : (recStat k m).smpDescs = m.smpDescs := rfl
@[simp] theorem recStat_engines (k : Nat) (m : Mach) : (recStat k m).engines = m.engines := rfl
@[simp] theorem recStat_gsDescs (k : Nat) (m : Mach) : (recStat k m).gsDescs = m.gsDescs := rfl
@[simp] theorem recStat_served (k : Nat) (m : Mach) : (recStat k m).served = m.served := rfl
@[simp] theorem recStat_targets (k : Nat) (m : Mach) : (recStat k m).targets = m.targets := rfl
@[simp] theorem recStat_tables (k : Nat) (m : Mach) : (recStat k m).tables = m.tables := rfl
@[simp] theorem recStat_tabSnap (k : Nat) (m : Mach) : (recStat k m).tabSnap = m.tabSnap := rfl
@[simp] theorem recStat_copies (k : Nat) (m : Mach) : (recStat k m).copies = m.copies := rfl
@[simp] theorem recStat_shards (k : Nat) (m : Mach) : (recStat k m).shards = m.shards := rfl
@[simp] theorem recStat_cnt (k : Nat) (m : Mach) : (recStat k m).cnt = m.cnt := rfl
@[simp] theorem recStat_lastDataError (k : Nat) (m : Mach) : (recStat k m).lastDataError = m.lastDataError := rfl
@[simp] theorem recStat_out (k : Nat) (m : Mach) : (recStat k m).out = m.out := rfl
@[simp] theorem recStat_freeCtr (k : Nat) (m : Mach) : (recStat k m).freeCtr = m.freeCtr := rfl

/-! ### The three parts of State -/

@[simp] theorem onM_boot (f : Mach → Mach) (s : State) : (onM f s).boot = s.boot := rfl
@[simp] theorem onM_m (f : Mach → Mach) (s : State) : (onM f s).m = f s.m := rfl
@[simp] theorem onM_pending (f : Mach → Mach) (s : State) : (onM f s).pending = s.pending := rfl
@[simp] theorem onB_boot (f : Boot → Boot) (s : State) : (onB f s).boot = f s.boot := rfl
@[simp] theorem onB_m (f : Boot → Boot) (s : State) : (onB f s).m = s.m := rfl
@[simp] theorem onB_pending (f : Boot → Boot) (s : State) : (onB f s).pending = s.pending := rfl
@[simp] theorem stampStartup_m (k : Nat) (s : State) : (stampStartup k s).m = s.m := rfl
@[simp] theorem stampStartup_pending (k : Nat) (s : State) : (stampStartup k s).pending = s.pending := rfl
@[simp] theorem enterReset_boot (s : State) : (enterReset s).boot = { entropy := s.boot.entropy } := rfl
@[simp] theorem enterReset_pending (s : State) : (enterReset s).pending = s.pending := rfl

end Sys2Proof.Laws
end

