-- ==== Sys2Proof/Laws/Notify.lean ====
section
/-!
SUPPORT. What a notification, a counter and a change of device state can do: nothing beyond the management port, the counters
and what leaves the device; the dictionary's stored values and the subscriptions stay.
-/

namespace Sys2Proof.Laws

open Sys2Proof.Machine

theorem told_refl (m : Mach) : Told m m := ⟨rfl, rfl, rfl⟩

theorem told_trans {a b c : Mach} (h : Told a b) (k : Told b c) : Told a c := by
  refine ⟨?_, k.2.1.trans h.2.1, k.2.2.trans h.2.2⟩
  rw [k.1, h.1]

theorem told_foldl {α : Type} (f : Mach → α → Mach) (l : List α) (m : Mach) (hf : ∀ x a, Told x (f x a)) : Told m (l.foldl f m) :=
  foldl_keeps (fun x => Told m x) f l m (told_refl m) (fun x a h => told_trans h (hf x a))

theorem told_countN (a b n : Nat) (m : Mach) : Told m (countN a b n m) := ⟨rfl, rfl, rfl⟩
theorem told_count (a b : Nat) (m : Mach) : Told m (count a b m) := ⟨rfl, rfl, rfl⟩
theorem told_emit (o : Out) (m : Mach) : Told m (emit o m) := ⟨rfl, rfl, rfl⟩

theorem told_sendFrame (d : Nat) (p : List Byte) (m : Mach) : Told m (sendFrame d p m) := by
  simp only [sendFrame]
  split
  · exact ⟨rfl, rfl, rfl⟩
  · exact told_refl m

theorem told_sendRecord (rb : List Byte) (seq cls : Nat) (m : Mach) : Told m (sendRecord rb seq cls m) := by
  refine told_foldl _ _ m ?_
  intro x a
  split
  · split
    · refine told_foldl _ _ x ?_
      intro y p
      split
      · exact told_emit _ y
      · exact told_refl y
    · exact told_sendFrame _ _ x
  · exact told_refl x

theorem told_formRecord (code ctx flags : Nat) (m : Mach) : Told m (formRecord code ctx flags m) :=
  told_trans (b := count 0x6E00 0x09 { m with mgmt := { m.mgmt with
    seq := m.mgmt.seq + 1
    history := (m.mgmt.history ++ [recordBytes (m.mgmt.seq + 1) code ctx flags (min (m.mgmt.lastRaise.get code (0, 0)).2 65535)
      (nowNs m) (if ctx < 16 then (ctxAt m ctx).step else 0)]).drop ((m.mgmt.history ++ [recordBytes (m.mgmt.seq + 1) code ctx
      flags (min (m.mgmt.lastRaise.get code (0, 0)).2 65535) (nowNs m) (if ctx < 16 then (ctxAt m ctx).step else 0)]).length - 64)
    lastRaise := m.mgmt.lastRaise.put code (m.dev.time10, 0) } })
    ⟨rfl, rfl, rfl⟩ (told_sendRecord _ _ _ _)

/-- A notification changes nothing beyond the management port, the counters and what leaves the device. -/
theorem told_notifyCode (code ctx flags : Nat) (m : Mach) : Told m (notifyCode code ctx flags m) := by
  simp only [notifyCode]
  split
  · exact told_refl m
  · split
    · split
      · exact ⟨rfl, rfl, rfl⟩
      · exact told_formRecord code ctx flags m
    · exact told_formRecord code ctx flags m

theorem told_raiseDev (code : Nat) (m : Mach) : Told m (raiseDev code m) := told_notifyCode code 0xFF 0 m

/-- A change of device state sets the state and forms at most one record. -/
theorem told_setDevState (s : DevState) (m : Mach) : Told { m with dev := { m.dev with st := s } } (setDevState s m) := by
  simp only [setDevState]
  split
  · rename_i h
    have h' : m.dev.st = s := by simpa using h
    have e : ({ m with dev := { m.dev with st := s } } : Mach) = m := by rw [← h']
    rw [e]
    exact told_refl m
  · split
    · refine told_trans ?_ (told_formRecord _ _ _ _)
      exact ⟨rfl, rfl, rfl⟩
    · exact told_refl _

/-! ### The fields that a notification leaves -/

@[simp] theorem notifyCode_dev (code ctx flags : Nat) (m : Mach) : (notifyCode code ctx flags m).dev = m.dev := by
  rw [(told_notifyCode code ctx flags m).1]
@[simp] theorem notifyCode_cxl (code ctx flags : Nat) (m : Mach) : (notifyCode code ctx flags m).cxl = m.cxl := by
  rw [(told_notifyCode code ctx flags m).1]
@[simp] theorem notifyCode_pwr (code ctx flags : Nat) (m : Mach) : (notifyCode code ctx flags m).pwr = m.pwr := by
  rw [(told_notifyCode code ctx flags m).1]
@[simp] theorem notifyCode_tor (code ctx flags : Nat) (m : Mach) : (notifyCode code ctx flags m).tor = m.tor := by
  rw [(told_notifyCode code ctx flags m).1]
@[simp] theorem notifyCode_mem (code ctx flags : Nat) (m : Mach) : (notifyCode code ctx flags m).mem = m.mem := by
  rw [(told_notifyCode code ctx flags m).1]
@[simp] theorem notifyCode_ctxs (code ctx flags : Nat) (m : Mach) : (notifyCode code ctx flags m).ctxs = m.ctxs := by
  rw [(told_notifyCode code ctx flags m).1]
@[simp] theorem notifyCode_cores (code ctx flags : Nat) (m : Mach) : (notifyCode code ctx flags m).cores = m.cores := by
  rw [(told_notifyCode code ctx flags m).1]
@[simp] theorem notifyCode_sinters (code ctx flags : Nat) (m : Mach) : (notifyCode code ctx flags m).sinters = m.sinters := by
  rw [(told_notifyCode code ctx flags m).1]
@[simp] theorem notifyCode_streams (code ctx flags : Nat) (m : Mach) : (notifyCode code ctx flags m).streams = m.streams := by
  rw [(told_notifyCode code ctx flags m).1]
@[simp] theorem notifyCode_samplers (code ctx flags : Nat) (m : Mach) : (notifyCode code ctx flags m).samplers = m.samplers := by
  rw [(told_notifyCode code ctx flags m).1]
@[simp] theorem notifyCode_smpDescs (code ctx flags : Nat) (m : Mach) : (notifyCode code ctx flags m).smpDescs = m.smpDescs := by
  rw [(told_notifyCode code ctx flags m).1]
@[simp] theorem notifyCode_engines (code ctx flags : Nat) (m : Mach) : (notifyCode code ctx flags m).engines = m.engines := by
  rw [(told_notifyCode code ctx flags m).1]
@[simp] theorem notifyCode_gsDescs (code ctx flags : Nat) (m : Mach) : (notifyCode code ctx flags m).gsDescs = m.gsDescs := by
  rw [(told_notifyCode code ctx flags m).1]
@[simp] theorem notifyCode_served (code ctx flags : Nat) (m : Mach) : (notifyCode code ctx flags m).served = m.served := by
  rw [(told_notifyCode code ctx flags m).1]
@[simp] theorem notifyCode_targets (code ctx flags : Nat) (m : Mach) : (notifyCode code ctx flags m).targets = m.targets := by
  rw [(told_notifyCode code ctx flags m).1]
@[simp] theorem notifyCode_tables (code ctx flags : Nat) (m : Mach) : (notifyCode code ctx flags m).tables = m.tables := by
  rw [(told_notifyCode code ctx flags m).1]
@[simp] theorem notifyCode_tabSnap (code ctx flags : Nat) (m : Mach) : (notifyCode code ctx flags m).tabSnap = m.tabSnap := by
  rw [(told_notifyCode code ctx flags m).1]
@[simp] theorem notifyCode_copies (code ctx flags : Nat) (m : Mach) : (notifyCode code ctx flags m).copies = m.copies := by
  rw [(told_notifyCode code ctx flags m).1]
@[simp] theorem notifyCode_shards (code ctx flags : Nat) (m : Mach) : (notifyCode code ctx flags m).shards = m.shards := by
  rw [(told_notifyCode code ctx flags m).1]
@[simp] theorem notifyCode_lastDataError (code ctx flags : Nat) (m : Mach) : (notifyCode code ctx flags m).lastDataError = m.lastDataError := by
  rw [(told_notifyCode code ctx flags m).1]
@[simp] theorem notifyCode_recStats (code ctx flags : Nat) (m : Mach) : (notifyCode code ctx flags m).recStats = m.recStats := by
  rw [(told_notifyCode code ctx flags m).1]
@[simp] theorem notifyCode_freeCtr (code ctx flags : Nat) (m : Mach) : (notifyCode code ctx flags m).freeCtr = m.freeCtr := by
  rw [(told_notifyCode code ctx flags m).1]
@[simp] theorem notifyCode_dict (code ctx flags : Nat) (m : Mach) : (notifyCode code ctx flags m).mgmt.dict = m.mgmt.dict :=
  (told_notifyCode code ctx flags m).2.1

@[simp] theorem raiseDev_dev (code : Nat) (m : Mach) : (raiseDev code m).dev = m.dev := notifyCode_dev code 0xFF 0 m
@[simp] theorem raiseDev_cxl (code : Nat) (m : Mach) : (raiseDev code m).cxl = m.cxl := notifyCode_cxl code 0xFF 0 m
@[simp] theorem raiseDev_pwr (code : Nat) (m : Mach) : (raiseDev code m).pwr = m.pwr := notifyCode_pwr code 0xFF 0 m
@[simp] theorem raiseDev_tor (code : Nat) (m : Mach) : (raiseDev code m).tor = m.tor := notifyCode_tor code 0xFF 0 m
@[simp] theorem raiseDev_mem (code : Nat) (m : Mach) : (raiseDev code m).mem = m.mem := notifyCode_mem code 0xFF 0 m
@[simp] theorem raiseDev_ctxs (code : Nat) (m : Mach) : (raiseDev code m).ctxs = m.ctxs := notifyCode_ctxs code 0xFF 0 m
@[simp] theorem raiseDev_cores (code : Nat) (m : Mach) : (raiseDev code m).cores = m.cores := notifyCode_cores code 0xFF 0 m
@[simp] theorem raiseDev_sinters (code : Nat) (m : Mach) : (raiseDev code m).sinters = m.sinters := notifyCode_sinters code 0xFF 0 m
@[simp] theorem raiseDev_streams (code : Nat) (m : Mach) : (raiseDev code m).streams = m.streams := notifyCode_streams code 0xFF 0 m
@[simp] theorem raiseDev_samplers (code : Nat) (m : Mach) : (raiseDev code m).samplers = m.samplers := notifyCode_samplers code 0xFF 0 m
@[simp] theorem raiseDev_smpDescs (code : Nat) (m : Mach) : (raiseDev code m).smpDescs = m.smpDescs := notifyCode_smpDescs code 0xFF 0 m
@[simp] theorem raiseDev_engines (code : Nat) (m : Mach) : (raiseDev code m).engines = m.engines := notifyCode_engines code 0xFF 0 m
@[simp] theorem raiseDev_gsDescs (code : Nat) (m : Mach) : (raiseDev code m).gsDescs = m.gsDescs := notifyCode_gsDescs code 0xFF 0 m
@[simp] theorem raiseDev_served (code : Nat) (m : Mach) : (raiseDev code m).served = m.served := notifyCode_served code 0xFF 0 m
@[simp] theorem raiseDev_targets (code : Nat) (m : Mach) : (raiseDev code m).targets = m.targets := notifyCode_targets code 0xFF 0 m
@[simp] theorem raiseDev_tables (code : Nat) (m : Mach) : (raiseDev code m).tables = m.tables := notifyCode_tables code 0xFF 0 m
@[simp] theorem raiseDev_tabSnap (code : Nat) (m : Mach) : (raiseDev code m).tabSnap = m.tabSnap := notifyCode_tabSnap code 0xFF 0 m
@[simp] theorem raiseDev_copies (code : Nat) (m : Mach) : (raiseDev code m).copies = m.copies := notifyCode_copies code 0xFF 0 m
@[simp] theorem raiseDev_shards (code : Nat) (m : Mach) : (raiseDev code m).shards = m.shards := notifyCode_shards code 0xFF 0 m
@[simp] theorem raiseDev_lastDataError (code : Nat) (m : Mach) : (raiseDev code m).lastDataError = m.lastDataError :=
  notifyCode_lastDataError code 0xFF 0 m
@[simp] theorem raiseDev_recStats (code : Nat) (m : Mach) : (raiseDev code m).recStats = m.recStats := notifyCode_recStats code 0xFF 0 m
@[simp] theorem raiseDev_freeCtr (code : Nat) (m : Mach) : (raiseDev code m).freeCtr = m.freeCtr := notifyCode_freeCtr code 0xFF 0 m
@[simp] theorem raiseDev_dict (code : Nat) (m : Mach) : (raiseDev code m).mgmt.dict = m.mgmt.dict :=
  notifyCode_dict code 0xFF 0 m

@[simp] theorem setDevState_dev (s : DevState) (m : Mach) : (setDevState s m).dev = { m.dev with st := s } := by
  rw [(told_setDevState s m).1]
@[simp] theorem setDevState_cxl (s : DevState) (m : Mach) : (setDevState s m).cxl = m.cxl := by
  rw [(told_setDevState s m).1]
@[simp] theorem setDevState_pwr (s : DevState) (m : Mach) : (setDevState s m).pwr = m.pwr := by
  rw [(told_setDevState s m).1]
@[simp] theorem setDevState_tor (s : DevState) (m : Mach) : (setDevState s m).tor = m.tor := by
  rw [(told_setDevState s m).1]
@[simp] theorem setDevState_mem (s : DevState) (m : Mach) : (setDevState s m).mem = m.mem := by
  rw [(told_setDevState s m).1]
@[simp] theorem setDevState_ctxs (s : DevState) (m : Mach) : (setDevState s m).ctxs = m.ctxs := by
  rw [(told_setDevState s m).1]
@[simp] theorem setDevState_cores (s : DevState) (m : Mach) : (setDevState s m).cores = m.cores := by
  rw [(told_setDevState s m).1]
@[simp] theorem setDevState_sinters (s : DevState) (m : Mach) : (setDevState s m).sinters = m.sinters := by
  rw [(told_setDevState s m).1]
@[simp] theorem setDevState_streams (s : DevState) (m : Mach) : (setDevState s m).streams = m.streams := by
  rw [(told_setDevState s m).1]
@[simp] theorem setDevState_samplers (s : DevState) (m : Mach) : (setDevState s m).samplers = m.samplers := by
  rw [(told_setDevState s m).1]
@[simp] theorem setDevState_smpDescs (s : DevState) (m : Mach) : (setDevState s m).smpDescs = m.smpDescs := by
  rw [(told_setDevState s m).1]
@[simp] theorem setDevState_engines (s : DevState) (m : Mach) : (setDevState s m).engines = m.engines := by
  rw [(told_setDevState s m).1]
@[simp] theorem setDevState_gsDescs (s : DevState) (m : Mach) : (setDevState s m).gsDescs = m.gsDescs := by
  rw [(told_setDevState s m).1]
@[simp] theorem setDevState_served (s : DevState) (m : Mach) : (setDevState s m).served = m.served := by
  rw [(told_setDevState s m).1]
@[simp] theorem setDevState_targets (s : DevState) (m : Mach) : (setDevState s m).targets = m.targets := by
  rw [(told_setDevState s m).1]
@[simp] theorem setDevState_tables (s : DevState) (m : Mach) : (setDevState s m).tables = m.tables := by
  rw [(told_setDevState s m).1]
@[simp] theorem setDevState_tabSnap (s : DevState) (m : Mach) : (setDevState s m).tabSnap = m.tabSnap := by
  rw [(told_setDevState s m).1]
@[simp] theorem setDevState_copies (s : DevState) (m : Mach) : (setDevState s m).copies = m.copies := by
  rw [(told_setDevState s m).1]
@[simp] theorem setDevState_shards (s : DevState) (m : Mach) : (setDevState s m).shards = m.shards := by
  rw [(told_setDevState s m).1]
@[simp] theorem setDevState_lastDataError (s : DevState) (m : Mach) : (setDevState s m).lastDataError = m.lastDataError := by
  rw [(told_setDevState s m).1]
@[simp] theorem setDevState_recStats (s : DevState) (m : Mach) : (setDevState s m).recStats = m.recStats := by
  rw [(told_setDevState s m).1]
@[simp] theorem setDevState_freeCtr (s : DevState) (m : Mach) : (setDevState s m).freeCtr = m.freeCtr := by
  rw [(told_setDevState s m).1]
@[simp] theorem setDevState_dict (s : DevState) (m : Mach) : (setDevState s m).mgmt.dict = m.mgmt.dict :=
  (told_setDevState s m).2.1

end Sys2Proof.Laws
end

