-- ==== Sys2Proof/Laws/Tables.lean ====
section
/-!
SUPPORT. Tables of fixed size and sparse maps: a read after a write of the same place gives the value, of another place
the old one. The accessors of contexts, ports, rings and cores follow.
-/

namespace Sys2Proof.Laws

open Sys2Proof.Machine

/-! ### Tables -/

@[simp] theorem tab_getD_set_self {α : Type} {n : Nat} (t : Tab α n) (i : Nat) (x d : α) (h : i < n) :
    (t.set i x).getD i d = x := by
  simp [Tab.getD, Tab.set, List.getD, t.2, h]

theorem tab_getD_set_ne {α : Type} {n : Nat} (t : Tab α n) (i j : Nat) (x d : α) (h : i ≠ j) :
    (t.set i x).getD j d = t.getD j d := by
  simp [Tab.getD, Tab.set, List.getD, List.getElem?_set_ne h]

theorem tab_getD_map {α β : Type} {n : Nat} (t : Tab α n) (f : α → β) (i : Nat) (d : α) (e : β) (h : i < n) :
    (t.map f).getD i e = f (t.getD i d) := by
  have hl : i < t.1.length := by rw [t.2]; exact h
  simp [Tab.getD, Tab.map, List.getD, List.getElem?_map, List.getElem?_eq_getElem hl]

theorem tab_getD_past {α : Type} {n : Nat} (t : Tab α n) (i : Nat) (d : α) (h : n ≤ i) : t.getD i d = d := by
  have hl : t.1.length ≤ i := by rw [t.2]; exact h
  have hn : t.1[i]? = none := List.getElem?_eq_none hl
  simp only [Tab.getD, List.getD, hn, Option.getD_none]

/-! ### Sparse maps -/

@[simp] theorem smap_get_put_self {α : Type} (m : SMap α) (k : Nat) (v d : α) : SMap.get (SMap.put m k v) k d = v := by
  induction m with
  | nil => simp [SMap.put, SMap.get]
  | cons p r ih =>
    obtain ⟨k', v'⟩ := p
    simp only [SMap.put]
    split
    · simp [SMap.get]
    · split
      · simp [SMap.get]
      · rename_i h; simp only [SMap.get]; rw [if_neg h]; exact ih

theorem smap_get_put_ne {α : Type} (m : SMap α) (k j : Nat) (v d : α) (h : j ≠ k) :
    SMap.get (SMap.put m k v) j d = SMap.get m j d := by
  induction m with
  | nil => simp [SMap.put, SMap.get, h]
  | cons p r ih =>
    obtain ⟨k', v'⟩ := p
    simp only [SMap.put]
    split
    · simp [SMap.get, h]
    · split
      · rename_i e; have e' : k = k' := by simpa using e
        subst e'; simp [SMap.get, h]
      · simp only [SMap.get]; rw [ih]

@[simp] theorem smap_find_put_self {α : Type} (m : SMap α) (k : Nat) (v : α) : SMap.find (SMap.put m k v) k = some v := by
  induction m with
  | nil => simp [SMap.put, SMap.find]
  | cons p r ih =>
    obtain ⟨k', v'⟩ := p
    simp only [SMap.put]
    split
    · simp [SMap.find]
    · split
      · simp [SMap.find]
      · rename_i h; simp only [SMap.find]; rw [if_neg h]; exact ih

theorem smap_find_put_ne {α : Type} (m : SMap α) (k j : Nat) (v : α) (h : j ≠ k) :
    SMap.find (SMap.put m k v) j = SMap.find m j := by
  induction m with
  | nil => simp [SMap.put, SMap.find, h]
  | cons p r ih =>
    obtain ⟨k', v'⟩ := p
    simp only [SMap.put]
    split
    · simp [SMap.find, h]
    · split
      · rename_i e; have e' : k = k' := by simpa using e
        subst e'; simp [SMap.find, h]
      · simp only [SMap.find]; rw [ih]

/-! ### Accessors -/

@[simp] theorem ctxAt_setCtx_self (m : Mach) (i : Nat) (c : Ctx) (h : i < 16) : ctxAt (setCtx i c m) i = c :=
  tab_getD_set_self m.ctxs i c {} h

theorem ctxAt_setCtx_ne (m : Mach) (i j : Nat) (c : Ctx) (h : i ≠ j) : ctxAt (setCtx i c m) j = ctxAt m j :=
  tab_getD_set_ne m.ctxs i j c {} h

@[simp] theorem ctxAt_modCtx_self (m : Mach) (i : Nat) (f : Ctx → Ctx) (h : i < 16) :
    ctxAt (modCtx i f m) i = f (ctxAt m i) := ctxAt_setCtx_self m i _ h

theorem ctxAt_modCtx_ne (m : Mach) (i j : Nat) (f : Ctx → Ctx) (h : i ≠ j) : ctxAt (modCtx i f m) j = ctxAt m j :=
  ctxAt_setCtx_ne m i j _ h

@[simp] theorem portAt_setPort_self (m : Mach) (p : Nat) (x : Port) (h : p < 8) : portAt (setPort p x m) p = x :=
  tab_getD_set_self m.tor.ports p x {} h

theorem portAt_setPort_ne (m : Mach) (p q : Nat) (x : Port) (h : p ≠ q) : portAt (setPort p x m) q = portAt m q :=
  tab_getD_set_ne m.tor.ports p q x {} h

@[simp] theorem cxlPort_setCxlPort_self (m : Mach) (p : Nat) (x : CxlPort) (h : p < 2) : cxlPort (setCxlPort p x m) p = x :=
  tab_getD_set_self m.cxl.ports p x {} h

theorem cxlPort_setCxlPort_ne (m : Mach) (p q : Nat) (x : CxlPort) (h : p ≠ q) :
    cxlPort (setCxlPort p x m) q = cxlPort m q := tab_getD_set_ne m.cxl.ports p q x {} h

@[simp] theorem cmdRing_setCmdRing_self (m : Mach) (k : Nat) (r : CmdRing) (h : k < 4) : cmdRing (setCmdRing k r m) k = r :=
  tab_getD_set_self m.cxl.rings k r {} h

theorem cmdRing_setCmdRing_ne (m : Mach) (k j : Nat) (r : CmdRing) (h : k ≠ j) :
    cmdRing (setCmdRing k r m) j = cmdRing m j := tab_getD_set_ne m.cxl.rings k j r {} h

@[simp] theorem coreAt_setCore_self (m : Mach) (k : Nat) (c : Core) : coreAt (setCore k c m) k = c :=
  smap_get_put_self m.cores k c {}

theorem coreAt_setCore_ne (m : Mach) (k j : Nat) (c : Core) (h : j ≠ k) : coreAt (setCore k c m) j = coreAt m j :=
  smap_get_put_ne m.cores k j c {} h

@[simp] theorem coreAt_modCore_self (m : Mach) (k : Nat) (f : Core → Core) : coreAt (modCore k f m) k = f (coreAt m k) :=
  coreAt_setCore_self m k _

theorem coreAt_modCore_ne (m : Mach) (k j : Nat) (f : Core → Core) (h : j ≠ k) : coreAt (modCore k f m) j = coreAt m j :=
  coreAt_setCore_ne m k j _ h

end Sys2Proof.Laws
end

