-- ==== Sys2Proof/Laws/Power.lean ====
section
/-!
SUPPORT. What the duties and points of the dies can do (16 R536, R538): applyDies changes the dies and a counter only, and each
die by itself.
-/

namespace Sys2Proof.Laws

open Sys2Proof.Machine

/-- One die's next clock and duty (R536, R538). -/
def dieNext (m : Mach) (d : DieClk) : DieClk :=
  let d1 := { d with duty := wantedDuty m d }
  if wantedPoint m d != d.point && !d.switching && (d.changedAt == 0 || decide (d.changedAt + 1000000 ≤ m.dev.time10)) then
    { d1 with point := (if d.point < wantedPoint m d then d.point + 1 else d.point - 1), switching := true,
              changedAt := max 1 m.dev.time10 }
  else d1

/-- What a die's next state depends on beside the die. -/
def sameClocks (m m' : Mach) : Prop :=
  m' = { m with pwr := { m.pwr with dies := m'.pwr.dies }, cnt := m'.cnt }

theorem sameClocks_refl (m : Mach) : sameClocks m m := rfl

theorem sameClocks_trans {a b c : Mach} (h : sameClocks a b) (k : sameClocks b c) : sameClocks a c := by
  unfold sameClocks at *
  rw [k, h]

theorem dieNext_same {m m' : Mach} (h : sameClocks m m') (d : DieClk) : dieNext m' d = dieNext m d := by
  rw [h]; rfl

/-- One die's turn. -/
def dieTurn (m : Mach) (k : Nat) : Mach :=
  let d := m.pwr.dies.getD k {}
  let w := wantedPoint m d
  let d1 := { d with duty := wantedDuty m d }
  if w != d.point && !d.switching && (d.changedAt == 0 || decide (d.changedAt + 1000000 ≤ m.dev.time10)) then
    let d2 := { d1 with point := (if d.point < w then d.point + 1 else d.point - 1), switching := true, changedAt := max 1 m.dev.time10 }
    count 0x6C00 0x01 (onPwr (fun p => { p with dies := p.dies.set k d2 }) m)
  else onPwr (fun p => { p with dies := p.dies.set k d1 }) m

theorem applyDies_eq (m : Mach) : applyDies m = (List.range 16).foldl dieTurn m := rfl

theorem dieTurn_same (m : Mach) (k : Nat) : sameClocks m (dieTurn m k) := by
  simp only [dieTurn]; split <;> rfl

theorem dieTurn_dies (m : Mach) (k : Nat) : (dieTurn m k).pwr.dies = m.pwr.dies.set k (dieNext m (m.pwr.dies.getD k {})) := by
  simp only [dieTurn, dieNext]; split <;> simp [*, count, countN, onPwr]

theorem foldl_dieTurn (l : List Nat) (m : Mach) : sameClocks m (l.foldl dieTurn m) :=
  foldl_keeps (fun x => sameClocks m x) dieTurn l m (sameClocks_refl m) (fun x a h => sameClocks_trans h (dieTurn_same x a))

/-- applyDies changes the dies and the counters only. -/
theorem applyDies_same (m : Mach) : sameClocks m (applyDies m) := foldl_dieTurn _ m

theorem foldl_dieTurn_get (l : List Nat) (hl : l.Nodup) (m : Mach) (k : Nat) (hk : k < 16) :
    (l.foldl dieTurn m).pwr.dies.getD k {} = if k ∈ l then dieNext m (m.pwr.dies.getD k {}) else m.pwr.dies.getD k {} := by
  induction l generalizing m with
  | nil => simp
  | cons a l ih =>
    have hn := (List.nodup_cons.mp hl)
    rw [List.foldl_cons, ih hn.2 (dieTurn m a), dieTurn_dies, dieNext_same (dieTurn_same m a)]
    by_cases e : k = a
    · subst e
      rw [if_neg hn.1, tab_getD_set_self _ _ _ _ hk]; simp
    · rw [tab_getD_set_ne _ _ _ _ _ (fun h => e h.symm)]; simp [e]

/-- applyDies: each die's next clock and duty depend on that die alone. -/
theorem applyDies_die (m : Mach) (k : Nat) (hk : k < 16) :
    (applyDies m).pwr.dies.getD k {} = dieNext m (m.pwr.dies.getD k {}) := by
  rw [applyDies_eq, foldl_dieTurn_get _ List.nodup_range m k hk, if_pos (by simpa using hk)]

/-! ### Frames of the power unit -/

theorem powerOnly_told {m m' : Mach} (h : Told m m') : powerOnly m m' := by
  unfold powerOnly; rw [h.1]

theorem powerOnly_same {m m' : Mach} (h : sameClocks m m') : powerOnly m m' := by
  unfold powerOnly; rw [h]

theorem powerOnly_trans {a b c : Mach} (h : powerOnly a b) (k : powerOnly b c) : powerOnly a c := by
  unfold powerOnly at *; rw [k, h]

theorem powerOnly_tick (k p : Nat) (m : Mach) : powerOnly m (tick k p m) := rfl

theorem powerOnly_onPwr (f : Power → Power) (m : Mach) : powerOnly m (onPwr f m) := rfl

theorem powerOnly_countN (a b n : Nat) (m : Mach) : powerOnly m (countN a b n m) := rfl


theorem dieNext_ceiling (m : Mach) (d : DieClk) : (dieNext m d).ceiling = d.ceiling := by
  simp only [dieNext]; split <;> rfl

theorem dieNext_duty (m : Mach) (d : DieClk) : (dieNext m d).duty = wantedDuty m d := by
  simp only [dieNext]; split <;> rfl



theorem powerOnly_refl (m : Mach) : powerOnly m m := rfl

end Sys2Proof.Laws
end

