-- ==== Sys2Proof/Machine/Pins.lean ====
section
/-!
DEFINITION. The outputs whose level is a function of the state (20 R658, R661): no field of State of their own.
-/

namespace Sys2Proof.Machine

/-- FAULT_N is asserted. -/
def faultPin (m : Mach) : Bool := m.dev.st == .fault

/-- THERM_TRIP_N is asserted: only in FAULT after the cause of R549. -/
def thermTripPin (m : Mach) : Bool := m.dev.st == .fault && m.dev.thermTrip

/-- ALERT_N is asserted: from TRAIN onward, outside FAULT, while a context is in HALT or a unit is throttled. -/
def alertPin (m : Mach) : Bool :=
  match m.dev.st with
  | .off | .reset | .selftest | .fault => false
  | _ => m.ctxs.list.any (fun c => c.st == .halt) || !m.pwr.throttled.isEmpty

/-- The lasers of a port are lit (R428, R661). -/
def laserOn (m : Mach) (p : Nat) : Bool :=
  match m.dev.st with
  | .off | .reset | .selftest | .fault => false
  | _ => (m.tor.ports.getD p {}).st != 0

/-- A CXL port's transmitters are out of electrical idle: training or in L0. -/
def cxlDriven (m : Mach) (p : Nat) : Bool :=
  match m.dev.st with
  | .off | .reset | .selftest | .fault => false
  | _ => (m.cxl.ports.getD p {}).l0 || (m.cxl.ports.getD p {}).training

/-- The management pair is driven. -/
def mgmtPin (m : Mach) : Bool := mgmtDriven m

/-- TDO is driven while TRST_N is high. -/
def tdoDriven (m : Mach) (trstN : Bool) : Bool := trstN && m.dev.st != .off

end Sys2Proof.Machine
end

