-- ==== Sys2Proof/WellFormed.lean ====
section
/-!
DEFINITION. Well-formed commands: operands that the device's pins and buses can carry (unit numbers that exist, field widths
of the transaction header, the fixed lengths of ring entries and flits). exec is total and acts on others too.
-/

namespace Sys2Proof

/-- Field widths of a transaction header (R420) and the row's own type code (R422). -/
def Txn.wf (t : Txn) (typ : Nat) : Bool :=
  t.typ == typ && decide (t.dest < 2 ^ 20) && decide (t.src < 2 ^ 20) && decide (t.tag < 2 ^ 16) && decide (t.jobTag < 2 ^ 16) &&
  decide (t.replay < 2 ^ 16) && decide (t.step < 2 ^ 64) && decide (t.detail < 2 ^ 64) &&
  (match t.body with
   | .raw b => decide (b.length ≤ 16384)
   | _ => true)

/-- A COLLECTIVE or STEP_CTRL transaction of a kind (R456, R495). -/
def Txn.wfKind (t : Txn) (typ kind : Nat) : Bool := t.wf typ && t.detail / 2 ^ 60 == kind

/-- Ring entries are 64 octets (R563); there are four rings (R561). -/
def ringWf (ring : Nat) (entry : List Byte) : Bool := decide (ring < 4) && entry.length == 64

def ctxWf (c : Nat) : Bool := decide (c < 16)
def coreWf (k : Nat) : Bool := decide (k < 4608)
def cxlPortWf (p : Nat) : Bool := decide (p < 2)
def portWf (p : Nat) : Bool := decide (p < 8)
def unitWf (u : Nat) : Bool := decide (u < 128)
def dieWf (d : Nat) : Bool := decide (d < 32)
def coreRingWf (k r : Nat) : Bool := coreWf k && decide (r < 8)

/-- A management request's frame: 6-octet addresses, at most 1,500 octets of payload, a header's worth at least (R589). -/
def Req.wf (r : Req) : Bool :=
  (match r.via with
   | .seg => r.dst.length == 6 && r.src.length == 6 && decide (r.etherType < 65536) && decide (r.payload.length ≤ 1500)
   | .mbox p => cxlPortWf p && decide (r.payload.length ≤ 4096)) && decide (16 ≤ r.payload.length)

/-- The operation and Response flag that a request row stands for. -/
def Req.wfOp (r : Req) (op : Nat) : Bool := r.wf && (r.payload.getD 1 0).toNat == op

/-- Well-formedness, one case a row. -/
def Instr.wf : Instr → Bool
  | .powerUp => true
  | .powerRemoved => true
  | .resetNAssert => true
  | .resetNRelease s1 s2 s3 => decide (s1 < 2 ^ 13) && decide (s2 < 2 ^ 13) && decide (s3 < 2 ^ 13)
  | .selftestEntry puf => puf.length == 4064
  | .pllLock => true
  | .pllLockTimeout die => dieWf die
  | .bistComplete fails sideFails => fails.length == 16 && fails.all (fun f => decide (f < 2 ^ 19)) && sideFails.all dieWf
  | .hbmTrainingComplete failed => failed.all (fun k => decide (k < 32))
  | .hbmZeroingComplete => true
  | .opticalWaitExpiry => true
  | .cxlTrainingTimeout => true
  | .firmwareVerifyComplete => true
  | .identityDerivationComplete => true
  | .stateReset => true
  | .stateResetDelayExpiry => true
  | .stateConfig => true
  | .stateReady floorW => decide (floorW < 2 ^ 32)
  | .stateRun => true
  | .stateQuench => true
  | .stateHalt => true
  | .load ring entry _ _ => ringWf ring entry
  | .unload ring entry => ringWf ring entry
  | .stepGo ring entry => ringWf ring entry
  | .bulkWrite ring entry _ _ => ringWf ring entry
  | .bulkRead ring entry => ringWf ring entry
  | .migrate ring entry => ringWf ring entry
  | .firmware ring entry _ _ _ => ringWf ring entry
  | .nop ring entry => ringWf ring entry
  | .cmdDoorbell ring port value => decide (ring < 4) && cxlPortWf port && decide (value < 2 ^ 64)
  | .cplDoorbell ring port value => decide (ring < 4) && cxlPortWf port && decide (value < 2 ^ 64)
  | .ringControlWrite ring port offset _ => decide (ring < 4) && cxlPortWf port && decide (offset < 4096)
  | .ringReset ring => decide (ring < 4)
  | .functionLevelReset port => cxlPortWf port
  | .commandComplete ring => decide (ring < 4)
  | .cxlHostTimeout ring => decide (ring < 4)
  | .hostSnoop port _ => cxlPortWf port
  | .hdmAccess port _ len data => cxlPortWf port && (match data with | none => true | some d => d.length == len)
  | .mailboxIdentify port => cxlPortWf port
  | .mailboxGetSupportedLogs port => cxlPortWf port
  | .perstNAssert port => cxlPortWf port
  | .perstNRelease port => cxlPortWf port
  | .cxlLinkL0 port width _ _ => cxlPortWf port && decide (1 ≤ width) && decide (width ≤ 8)
  | .cxlLinkDown port _ => cxlPortWf port
  | .bundleIssue core => coreWf core
  | .loopEnd core => coreWf core
  | .weightLoadReady core arr bank => coreWf core && decide (arr < 4) && decide (bank < 2)
  | .matrixOpRetire core arr => coreWf core && decide (arr < 4)
  | .mvRunRetire core => coreWf core
  | .drainComplete core => coreWf core
  | .xferComplete core => coreWf core
  | .streamStart core ring => coreRingWf core ring
  | .streamSlotCommit core ring => coreRingWf core ring
  | .completionPost core ring => coreRingWf core ring
  | .layerDrainComplete core => coreWf core
  | .samplerRequestStart sampler => unitWf sampler
  | .tephraBlockComplete sampler => unitWf sampler
  | .sampleFwd t => t.wf 0x06
  | .sampleResult t => t.wf 0x86
  | .forwardTimeout sampler tag => unitWf sampler && decide (tag < 2 ^ 16)
  | .gsOperationStart engine => unitWf engine
  | .lowerTierResponse _ data _ => decide (data.length ≤ 4096)
  | .readDeadlineMiss _ => true
  | .tierReadTimeout _ => true
  | .gather t => t.wf 0x03
  | .gatherData t => t.wf 0x83
  | .remoteTimeout engine tag => unitWf engine && decide (tag < 2 ^ 16)
  | .gatherComplete engine _ => unitWf engine
  | .scatter t => t.wf 0x04
  | .scatterEnd t => t.wf 0x05
  | .scatterTargetResult ctx _ => ctxWf ctx
  | .tablePublish table _ => decide (table < 65536)
  | .refreshPost _ => true
  | .hotCopyComplete table _ => decide (table < 65536)
  | .ashScanComplete table => decide (table < 65536)
  | .refreshWaitLimit ctx => ctxWf ctx
  | .migrationCopyComplete vpn => decide (vpn < 2 ^ 35)
  | .sinterCommand cluster => decide (cluster < 288)
  | .sinterCommandComplete cluster => decide (cluster < 288)
  | .xComplete ctx => ctxWf ctx
  | .contrib t => t.wfKind 0x08 1
  | .result t => t.wfKind 0x08 2
  | .maxima t => t.wfKind 0x08 3
  | .norm t => t.wfKind 0x08 4
  | .oComplete ctx => ctxWf ctx
  | .ready t => t.wfKind 0x0A 2
  | .commitWaitLimit ctx => ctxWf ctx
  | .quench ctx => ctxWf ctx
  | .stepDeadline ctx => ctxWf ctx
  | .barrierWaitTimeout ctx => ctxWf ctx
  | .begin t => t.wfKind 0x0A 1
  | .abort t => t.wfKind 0x0A 3
  | .replayDiscardComplete ctx => ctxWf ctx
  | .halt t => t.wfKind 0x0A 4
  | .pipeSlot t => t.wf 0x07
  | .shard t => t.wf 0x09
  | .notify t => t.wf 0x0B
  | .hold ctx => ctxWf ctx
  | .release ctx => ctxWf ctx
  | .contextHalt ctx => ctxWf ctx
  | .clearGrant ctx => ctxWf ctx
  | .hbmRereadResult _ place _ stack _ => decide (place < 5) && decide (stack < 32)
  | .read t => t.wf 0x01
  | .readData t => t.wf 0x81
  | .repairComplete ctx _ => ctxWf ctx
  | .repairTimeout ctx => ctxWf ctx
  | .record ctx => ctxWf ctx
  | .restore ctx => ctxWf ctx
  | .digest ctx => ctxWf ctx
  | .verify ctx => ctxWf ctx
  | .checkpointCommandComplete ctx => ctxWf ctx
  | .write t => t.wf 0x02
  | .writeAck t => t.wf 0x82
  | .fastCkptCopyComplete ctx => ctxWf ctx
  | .portLightDetect port lanes => portWf port && decide (lanes ≤ 44)
  | .equaliseComplete port t => portWf port && decide (t.rx < 2 ^ 44) && decide (t.tx < 2 ^ 44)
  | .fecLockComplete port => portWf port
  | .flitInitComplete port => portWf port
  | .trainingStateTimeout port => portWf port
  | .downTimerExpiry port => portWf port
  | .ident port _ => portWf port
  | .identTimer port => portWf port
  | .keepaliveTimer port => portWf port
  | .keepalive port _ _ _ _ => portWf port
  | .down port _ => portWf port
  | .linkLostTimer port => portWf port
  | .flitReceive port f _ => portWf port && decide (f.header < 2 ^ 64) && f.rest.length == 248
  | .nakTimer port => portWf port
  | .laneFailure port ev => portWf port && decide (ev.lane < 44)
  | .spareLaneFailure port lane => portWf port && decide (lane < 44)
  | .laneSwap port failed spare _ => portWf port && decide (failed < 44) && decide (spare < 44)
  | .laneSwapTimer port => portWf port
  | .epochMarker port _ => portWf port
  | .fibreGroupWrite _ => true
  | .coordinateWrite _ _ => true
  | .powerSample domains _ _ => domains.length == 4
  | .sustainedEvaluation _ => true
  | .operatingPointSwitchDone die => decide (die < 16)
  | .sensorRead readings => readings.length == 120
  | .throttleStepTimer => true
  | .thermalTrip sensor => decide (sensor < 120)
  | .railOutOfRange rail _ => decide (rail < 8)
  | .referenceLost ref => decide (ref < 3)
  | .pllUnlock die => dieWf die
  | .powerFloorMeasure _ => true
  | .powerCapWrite _ => true
  | .powerPriorityWrite _ => true
  | .fixedFrequencyWrite _ => true
  | .timeBaseSet _ => true
  | .mgmtRead r => r.wfOp 0x01
  | .mgmtWrite r => r.wfOp 0x02
  | .readBlock r => r.wfOp 0x03
  | .writeBlock r => r.wfOp 0x04
  | .mgmtAbort r => r.wfOp 0x07
  | .blockSnapshotTimeout _ => true
  | .blockWriteTimeout _ => true
  | .dictWrite index sub _ => decide (index < 65536) && decide (sub < 256)
  | .heartbeatTimer => true
  | .plcaBeacon => true
  | .beaconLostTimer => true
  | .notifySubscribe _ => true
  | .counterClear _ => true
  | .dictImageRead r => r.wfOp 0x03
  | .dictImageWrite _ => true
  | .firmwareImageWrite _ => true
  | .pufHelperWrite _ => true
  | .attestNonce _ => true
  | .debugKeyHash _ => true
  | .debugChallenge => true
  | .debugToken _ => true
  | .debugEnableWrite _ => true
  | .debugHalt => true
  | .debugStep => true
  | .debugResume => true
  | .boundaryScan _ register _ => decide (register < 2)
  | .scatterComplete engine _ => unitWf engine
  | .lowerTierWriteComplete _ _ => true
  | .tierRegionUnreachable region => decide (region < 8)
  | .configurationRequest port offset _ => cxlPortWf port && decide (offset < 2 ^ 20)
  | .referenceReturn ref => decide (ref < 3)
  | .mgmtFrameDiscard r => r.wf
  | .laneTestRetryExpiry port => portWf port
  | .mgmtTxAttemptsExhausted => true

end Sys2Proof
end

