-- ==== Sys2Proof/Tests/Slice0.lean ====
section
/-!
SUPPORT. Tests: states that meet the hypotheses of every clause of every statement (test_<statement>_<clause>), ill-formed commands,
and small results worked out from the manual.
-/

set_option Elab.async false

namespace Sys2Proof.Tests

open Sys2Proof Sys2Proof.Machine

/-- A device in a state, otherwise as after reset. -/
def base (st : DevState) (f : Mach → Mach := id) : State :=
  { State.reset with m := f { State.reset.m with dev := { State.reset.m.dev with st := st } } }

/-- A host attached: both ports in L0 with a window of one frame, every ring enabled with one entry waiting. -/
def hosted (st : DevState) (f : Mach → Mach := id) : State :=
  base st (fun m => f { m with cxl := {
    rings := .fill 4 { enable := true, produced := 1, cmdLog2 := 4, cplLog2 := 4, cplBase := 4096 }
    ports := .fill 2 { l0 := true, cxl := true, hdmBase := 2 ^ 28 }, hdmFrames := [3] } })

/-- A ring entry (R563). -/
def cmdEntry (op ctx host va len arg : Nat) : List Byte :=
  leBytes 1 op ++ leBytes 1 0 ++ leBytes 1 ctx ++ leBytes 1 0 ++ leBytes 4 0x1234 ++ leBytes 8 host ++ leBytes 8 va ++ leBytes 8 len ++
    leBytes 8 arg ++ leBytes 24 0

/-- An object of context 0 (R50): its number, first page, pages, class, width and policy. -/
def objAtPage (id base size cls width policy : Nat) : Nat :=
  id * 2 ^ 240 + cls * 2 ^ 231 + 2 ^ 230 + base * 2 ^ 195 + size * 2 ^ 163 + width * 2 ^ 149 + policy * 2 ^ 146

/-- Object 7: one page at page 1. -/
def objDesc (cls width policy : Nat) : Nat := objAtPage 7 1 1 cls width policy

/-- Memory with that object, its page present in frame 5. -/
def withObj (cls width policy : Nat) (m : Mach) : Mach :=
  { m with mem := { m.mem with objects := [(7, mkPair 256 (objDesc cls width policy))]
                               pages := [(1, mkPair 64 (pageVal 0 false false 7 5))] } }

/-- Context i as given. -/
def withCtx (i : Nat) (c : Ctx) (m : Mach) : Mach := setCtx i c m

/-- Port p as given. -/
def withPort (p : Nat) (x : Port) (m : Mach) : Mach := setPort p x m

/-- A dictionary entry with its stored pair. -/
def withEntry (index sub n v : Nat) (m : Mach) : Mach := dput m index sub (leBytes n v)

/-- An intact flit with a header and a payload of zeros (R413, R414): their CRC-32C worked out by hand. -/
def zeroFlit (header : Nat) : Flit := ⟨header, List.replicate 244 0 ++ leBytes 4 0x139d31cd⟩

/-- The NULL flit whose Seq and Ack are 0. -/
def nullFlit : Flit := zeroFlit 0

/-- A stored pair that agrees, or none, is sound. -/
theorem stored_ok {m : Mach} {i j : Nat}
    (h : (match m.mgmt.dict.find (dkey i j) with | some (v, c) => decide (c = cplBytes v) | none => true) = true) : storedOk m i j := by
  intro v c hf
  rw [hf] at h
  exact of_decide_eq_true h

/-- A value that passes the checks is a plain write. -/
theorem plain_write {i j : Nat} {v : List Byte} {s : State}
    (h : (writeAccess s.m.dev.st i j == 0 && !commandEntries.contains (i, j) && entryRule s.m i j v == 0 &&
      (match dictEnt i j with | some e => lengthOk e v.length && typeOk e.ty v | none => false) &&
      !(i == 0xA000)) = true) : plainWrite i j v s := by
  simp only [Bool.and_eq_true, beq_iff_eq, Bool.not_eq_true', beq_eq_false_iff_ne, ne_eq] at h
  obtain ⟨⟨⟨⟨h1, h2⟩, h3⟩, h4⟩, h5⟩ := h
  refine ⟨h1, by simpa using h2, h3, ?_, fun k => h5 k.1⟩
  cases hd : dictEnt i j with
  | none => simp [hd] at h4
  | some e => exact ⟨e, rfl, by simpa [hd] using h4⟩

/-- A request in the tunnel of a port that serves is heard. -/
theorem heard_mbox {r : Req} {p : Nat} {m : Mach} (h : r.via = .mbox p) (h2 : portServes m p = true) : heard r m := by
  unfold heard; rw [h]; exact h2

/-- A request that nothing kept repeats is new. -/
theorem new_request {r : Req} {op : Nat} {s : State} (h : heard r s.m)
    (h2 : (reqClass r == op && frameOk (mhead r.payload) r.payload) = true)
    (h3 : storedOk s.m (mhead r.payload).index (mhead r.payload).sub) (h4 : s.m.mgmt.cache = []) : newRequest r op s := by
  simp only [Bool.and_eq_true, beq_iff_eq] at h2
  exact ⟨h, h2.1, h2.2, h3, by rw [h4]; rfl⟩

/-- A request in the tunnel of port 0 (R606). -/
def tunnel (op index sub flags : Nat) (data : List Byte) : Req :=
  { via := .mbox 0, payload := mgmtPayload op 5 index sub flags 0 data.length data }

/-- A frame on the segment from 02:01:01:01:01:01 to the device with straps 0 (R586). -/
def segment (fcs : Bool) (op flags : Nat) : Req :=
  { via := .seg, dst := [0x02#8, 0x44#8, 0x56#8, 0#8, 0#8, 0#8], src := [2#8, 1#8, 1#8, 1#8, 1#8, 1#8], etherType := 0x88B5, fcsOk := fcs
    payload := mgmtPayload op 5 0x1000 1 flags 0 0 [] }

/-- The management port enabled (R587). -/
def wired (st : DevState) (f : Mach → Mach := id) : State :=
  base st (fun m => f { m with dev := { m.dev with strap := 2 ^ 12 } })

/-- A token for the serial number 0 and the challenge of nines, signed (RFC 8032) with the key whose 57 octets are all 7. -/
def ownerToken : List Byte :=
  List.replicate 8 0#8 ++ List.replicate 32 9#8 ++
  leBytes 64 331091925099339543678627353310469089031130050891714054563367866096443340262633267741480387652561300893065594166118579970976167138297517 ++
  leBytes 114 8018833851267226547406552174478985351191337103055161334994571497272041442057450279100782918440717571423296441902759660644051640565594394225139442288456880621715747138910883017318814001934653949333847131710753686963217172943515977300204112352685186902408365331667626399805 ++
  leBytes 6 0

/-- A device with that key's hash locked as the owner's and that challenge standing. -/
def owned : State :=
  { base .config with boot := {
    keyLocked := true, keyHash := leBytes 32 92617394447828492169530219300571859593215965922666234060557031536948290571525
    challenge := some (List.replicate 32 9#8) } }

set_option maxRecDepth 100000 in
/-- The owner's hash is that of the token's key (SHAKE256). -/
theorem test_owner_hash : (shake256 (slice ownerToken 40 57) 32 == owned.boot.keyHash) = true := by decide +kernel

set_option maxRecDepth 100000 in
/-- The token's signature is correct (Ed448). -/
theorem test_owner_signature :
    Ed.verify (slice ownerToken 40 57) (shake256 (slice ownerToken 0 104) 64) (slice ownerToken 104 114) = true := by decide +kernel

/-- The token grants a key's kind (R643). -/
theorem test_TokensGrantDebug_3 : ∃ k, tokenKind owned.boot ownerToken = some k := by
  have h1 : (slice ownerToken 0 8 == serialNumber owned.boot) = true := by decide +kernel
  have h2 : (owned.boot.challenge == some (slice ownerToken 8 32)) = true := by decide +kernel
  have h3 : owned.boot.keyHash.any (· != 0) = true := by decide +kernel
  have h4 := test_owner_hash
  have h5 := test_owner_signature
  unfold tokenKind
  simp only [h1, h2, h3, h4, h5, Bool.or_true, Bool.and_self, if_true]
  exact ⟨_, rfl⟩

/-- An answer of refusal, by evaluation. -/
theorem error_of {α : Type} {x : Except Nat α} {c : Nat} (h : (match x with | .ok _ => false | .error d => d == c) = true) :
    x = .error c := by
  cases x with
  | ok u => simp at h
  | error e => simpa using h

/-- Context 0 in a pass, with JobTag 9, step 4, sampler 0 and engine 0. -/
def running : Ctx :=
  { st := .run, jobTag := 9, step := 4, stepC := cpl 64 4, mb := 1, pass := { running := true }
    claims := { clusters := [0], samplers := [0], engines := [0] } }

/-- A device with that context. -/
def inStep (f : Mach → Mach := id) : State := base .run (fun m => f (withCtx 0 running m))

/-- A transaction of that pass from a coordinate, and one of an earlier step. -/
def fresh (typ detail : Nat) (body : Body) : Txn := { typ := typ, jobTag := 9, step := 4, tag := 5, detail := detail, body := body }
def stale (typ detail : Nat) (body : Body) : Txn := { fresh typ detail body with step := 3 }

/-- Core k of context 0, running, with one bundle. -/
def withCore (k bundle : Nat) (f : Core → Core := id) (m : Mach) : Mach :=
  setCore k (f { ctx := 0, st := .running, resident := [bundle] }) m

/-- The descriptor of a completion ring of 4 slots for a source class (R383, R385). -/
def ringFor (source : Nat) : Pair := mkPair 256 (2 ^ 24 + 4 * 2 ^ 32 + source * 2 ^ 40)

/-- A torus of two devices on each axis; this one is at coordinate 0. -/
def sized (m : Mach) : Mach := withEntry 0x5000 2 4 0 (withEntry 0x5000 3 4 0x02020202 m)

/-- A graph of one node without edges at pages 1 and 2 (object 7, R77 to R86), and scratch memory at page 3 (object 8). -/
def withGraph (m : Mach) : Mach :=
  let x := { m.mem with
    objects := [(7, mkPair 256 (objAtPage 7 1 2 3 0 0)), (8, mkPair 256 (objAtPage 8 3 1 5 0 0))]
    pages := [(1, mkPair 64 (pageVal 0 false false 7 5)), (2, mkPair 64 (pageVal 0 false false 7 6)),
              (3, mkPair 64 (pageVal 0 false false 8 7))] }
  let x1 := vput (2 ^ 21) (withCpl (leBytes 2 1 ++ leBytes 2 0 ++ leBytes 2 1 ++ leBytes 26 0)) x
  let x2 := vput (2 ^ 21 + 4096) (leBytes 2 0x8000) x1
  let x3 := vput (2 ^ 21 + 12288) (leBytes 2 0x7FFF) x2
  { m with mem := vput (2 ^ 21 + 16384) (withCpl (leBytes 64 (2 ^ 499 + 2 ^ 452 + 2 * 2 ^ 365))) x3 }

/-- A sampler program over that graph (R96): one hop, one seed, seeds at octet 65,536 of page 1, output at page 3. -/
def smpD : Nat := 1 * 2 ^ 485 + 7 * 2 ^ 301 + (2 ^ 21 + 65536) * 2 ^ 229 + 3 * 2 ^ 21 * 2 ^ 173

/-- A request of that program under way. -/
def smpR : SmpRun := { key := 0, out := 3 * 2 ^ 21, frontier := [(0, 0)] }

/-- A GATHER over NODES of hop 1 into width 16 from object 8 (R127), and a SCATTER of its record into target 8. -/
def gatD : Nat := 2 ^ 455 + 2 * 2 ^ 453 + 8 * 2 ^ 437 + 16 * 2 ^ 424
def scaD : Nat := 2 ^ 490 + gatD + 8 * 2 ^ 363

/-- An operation of program 1 (the GATHER) or 2 (the SCATTER) with a block of no node at page 3 and a record after it. -/
def gsOp (p : Nat) : GsOp := { id := 1, core := 0, key := p, slice := 0, block := 3 * 2 ^ 21, path := 3 * 2 ^ 21 + 4096, data := 0 }

/-- Those programs, their block and record, and target 8, collecting. -/
def withGs (m : Mach) : Mach :=
  let m1 := withGraph { m with gsDescs := [(1, mkPair 512 gatD), (2, mkPair 512 scaD)], targets := [(8, { desc := mkPair 512 (16 * 2 ^ 478 + 2 ^ 462) })] }
  let x1 := vput (3 * 2 ^ 21) (leBytes 2 1 ++ leBytes 1 1 ++ leBytes 13 0 ++ leBytes 8 64 ++ leBytes 32 0 ++ leBytes 8 4) m1.mem
  let rec0 := leBytes 2 1 ++ leBytes 1 16 ++ leBytes 1 64 ++ leBytes 2 1 ++ leBytes 1 16 ++ leBytes 13 0 ++ leBytes 2 16 ++ leBytes 2 8 ++
    leBytes 8 0 ++ leBytes 8 (3 * 2 ^ 21) ++ leBytes 16 0 ++ leBytes 8 4
  { m1 with mem := vput (3 * 2 ^ 21 + 4096) (withCpl rec0) x1 }

/-- A table's object (7, class FEATURE, page 1) and scratch memory (8, pages 2 to 4): partition 0 has the one row of key 0, in W16 (R176,
R177). -/
def withTables (m : Mach) : Mach :=
  let x := { m.mem with
    objects := [(7, mkPair 256 (objAtPage 7 1 1 2 0 0)), (8, mkPair 256 (objAtPage 8 2 3 5 0 0))]
    pages := [(1, mkPair 64 (pageVal 0 false false 7 5)), (2, mkPair 64 (pageVal 0 false false 8 8)), (3, mkPair 64 (pageVal 0 false false 8 6)), (4, mkPair 64 (pageVal 0 false false 8 7))] }
  let part := leBytes 8 (4 * 2 ^ 21) ++ leBytes 8 1
  let x1 := vput (3 * 2 ^ 21) part x
  let x2 := vput (3 * 2 ^ 21 + 65536) (cplBytes part) x1
  { m with mem := vput (4 * 2 ^ 21) (withCpl (leBytes 8 (2 ^ 61 + 2 ^ 21))) x2 }

/-- Version v of that table from step e on: width 16, W16 values (R181). -/
def tabD (v e : Nat) : Nat := 7 * 2 ^ 496 + v * 2 ^ 460 + e * 2 ^ 396 + 16 * 2 ^ 382 + 3 * 2 ^ 305

/-- That table with the version in use. -/
def withTab (d : Nat) (f : Table → Table) (m : Mach) : Mach :=
  withTables { m with tables := [(7, f { cur := some (mkPair 512 d) })] }

/-- Bucket 1 of 64 elements of context 0, its receive and result areas in page 1. -/
def withBucket (f : Bucket → Bucket := id) (m : Mach) : Mach :=
  withCtx 0 { running with gey := { buckets :=
    [f { desc := mkPair 256 (2 ^ 232 + 64 * 2 ^ 198 + (2 ^ 21 + 4096) * 2 ^ 142 + 2 ^ 21 * 2 ^ 86) }] } } (withObj 5 0 0 m)

/-- Transfer entry 3 of a kind into page 1 of context 0. -/
def withXfer (kind : Nat) (m : Mach) : Mach :=
  withCtx 0 { running with gey := { entries := [{ desc := mkPair 512 (3 * 2 ^ 496 + kind * 2 ^ 489 + 2 ^ 21 * 2 ^ 347 + 2 ^ 21 * 2 ^ 227) }] } }
    (withObj 5 0 0 m)

/-- SHAKE256's answer has the octets asked for. -/
theorem shake_length (d : List Byte) : (shake256 d 32).length = 32 := by
  have h : ∀ s, ((List.range 17).flatMap (fun i => leBytes 8 (laneAt s i).toNat)).length = 136 := fun s => by
    simp [List.range, List.range.loop, leBytes]
  simp [shake256, squeezeAll, ceilDiv, h]

/-- A chunk followed by its digest carries its digest. -/
theorem digest_carried {d : List Byte} (h : d.length = 8192) :
    shake256 (slice (d ++ shake256 d 32) 0 8192) 32 = slice (d ++ shake256 d 32) 8192 32 := by
  have e : slice (d ++ shake256 d 32) 0 8192 = d := by simp [slice, h]
  rw [e]
  simp [slice, shake_length, h, List.take_of_length_le]

/-- A chunk followed by the complement of its digest does not. -/
theorem digest_wrong {d : List Byte} (h : d.length = 8192) :
    shake256 (slice (d ++ cplBytes (shake256 d 32)) 0 8192) 32 ≠ slice (d ++ cplBytes (shake256 d 32)) 8192 32 := by
  have e : slice (d ++ cplBytes (shake256 d 32)) 0 8192 = d := by simp [slice, h]
  have l : (cplBytes (shake256 d 32)).length = 32 := by simp [cplBytes, shake_length]
  have e2 : slice (d ++ cplBytes (shake256 d 32)) 8192 32 = cplBytes (shake256 d 32) := by simp [slice, h, l, List.take_of_length_le]
  rw [e, e2]
  have hl := shake_length d
  cases hs : shake256 d 32 with
  | nil => rw [hs] at hl; cases hl
  | cons a r => intro hc; simp only [cplBytes, List.map_cons, List.cons.injEq] at hc; bv_omega

/-- A job image of one context and one object, number 4096, pinned scratch memory at page 2 (R478, R479, R311, R50). -/
def oneJob (m : Mach) : JobImage :=
  { header := leBytes 2 1 ++ leBytes 1 0 ++ leBytes 1 1 ++ partNumber ++ leBytes 2 (dnum m 0x2200 0x08) ++ leBytes 2 (dnum m 0x2100 0x09) ++
      leBytes 2 1 ++ leBytes 4 0xFFFFFFFF ++ leBytes 38 0
    contexts := [leBytes 1 0 ++ leBytes 1 1 ++ leBytes 2 7 ++ leBytes 4 1000 ++ leBytes 4 1000 ++ leBytes 2 0 ++ leBytes 2 1 ++
      leBytes 8 (2 * 2 ^ 21) ++ leBytes 8 (2 * 2 ^ 21 + 64) ++ leBytes 4 1 ++ leBytes 28 0]
    claims := [leBytes 2 0 ++ leBytes 2 1 ++ leBytes 92 1]
    objects := [mkPair 256 (objAtPage 4096 2 1 5 0 0 + 2 ^ 160)] }

/-- A dictionary image without records: its header (R610, R611). -/
def noRecords : List Byte :=
  leBytes 2 1 ++ leBytes 2 1 ++ leBytes 4 0 ++ leBytes 8 9 ++ leBytes 8 0 ++ slice partNumber 0 16 ++ leBytes 4 0 ++ leBytes 4 (crc32c []) ++ leBytes 16 0

/-- What an answer of success holds. -/
def gotten {ε α : Type} (d : α) : Except ε α → α
  | .ok a => a
  | .error _ => d

/-- An answer of success holds what it holds. -/
theorem ok_gotten {ε α : Type} {x : Except ε α} (d : α) (h : x.toBool = true) : x = .ok (gotten d x) := by
  cases x with
  | ok a => rfl
  | error e => cases h

/-- The same for a row and the machine after it. -/
theorem ok_row {ε α β : Type} {x : Except ε (Option (α × β))} (d : α × β)
    (h : (match x with | .ok (some _) => true | _ => false) = true) :
    x = .ok (some (((gotten none x).getD d).1, ((gotten none x).getD d).2)) := by
  cases x with
  | ok a =>
    cases a with
    | some y => rfl
    | none => cases h
  | error e => cases h

/-- An answer of success with its value, by evaluation. -/
theorem ok_eq {ε α : Type} [DecidableEq α] {x : Except ε α} {a : α}
    (h : (match x with | .ok b => decide (b = a) | .error _ => false) = true) : x = .ok a := by
  cases x with
  | ok u => exact congrArg _ (of_decide_eq_true h)
  | error e => simp at h


/-- Objects 7 and 8 of context 0, scratch memory of one page each, side by side at pages 1 and 2. -/
def withTwo (m : Mach) : Mach :=
  { m with mem := { m.mem with
    objects := [(7, mkPair 256 (objDesc 5 0 0)), (8, mkPair 256 (objAtPage 8 2 1 5 0 0))]
    pages := [(1, mkPair 64 (pageVal 0 false false 7 5)), (2, mkPair 64 (pageVal 0 false false 8 6))] } }

/-- The same programs with FEATURE object 7 as their source, and a block with one node and a record with its row; the graph's map lies in a
lower tier. -/
def withFarMap (m0 : Mach) : Mach :=
  let m := withGs m0
  let g := 2 ^ 455 + 7 * 2 ^ 437 + 16 * 2 ^ 424
  let x1 := vput (3 * 2 ^ 21 + 8) (leBytes 4 1) m.mem
  let rec0 := leBytes 2 1 ++ leBytes 1 16 ++ leBytes 1 64 ++ leBytes 2 1 ++ leBytes 1 16 ++ leBytes 5 0 ++ leBytes 4 1 ++ leBytes 4 1 ++
    leBytes 2 16 ++ leBytes 2 8 ++ leBytes 8 0 ++ leBytes 8 (3 * 2 ^ 21) ++ leBytes 16 0 ++ leBytes 8 4
  let x2 := vput (3 * 2 ^ 21 + 4096) (withCpl rec0) x1
  { m with smpDescs := [(0, mkPair 512 smpD)], gsDescs := [(1, mkPair 512 g), (2, mkPair 512 (2 ^ 490 + g + 8 * 2 ^ 363))]
           mem := { x2 with pages := x2.pages.put 1 (mkPair 64 (pageVal 1 false false 7 5)) } }

/-- The rows of page 1 moved to a lower tier. -/
def lowRows (m : Mach) : Mach :=
  { m with mem := { m.mem with pages := m.mem.pages.put 1 (mkPair 64 (pageVal 1 false false 7 5)) } }

/-- What holds of an optional value holds of each value that it is. -/
theorem opt_all {α : Type} {o : Option α} {p : α → Prop} [DecidablePred p] (h : o.all (fun v => decide (p v)) = true) :
    ∀ v, o = some v → p v := by
  intro v hv
  subst hv
  simpa using h

/-- No norm record is to be written, or it can be written and the list of notices is empty. -/
theorem norm_apart {m : Mach} {i : Nat}
    (h : ((ctxAt m i).gey.header.v == 0 || (ctxAt m i).gey.calibPass ||
      (rightCheck m.mem i (chNormVa (ctxAt m i).gey) 64 == 0 && (ctxAt m i).noticeCount == 0)) = true) : normApart m i := by
  unfold normApart
  intro g hc hv
  simp only [Bool.or_eq_true, Bool.and_eq_true, beq_iff_eq] at h
  rcases h with (h | h) | h
  · exact absurd h hv
  · rw [hc] at h; cases h
  · exact ⟨h.1, fun k hk => by omega⟩

theorem test_SampleAndEvaluationSetPower_1 : ∃ (s : State), alive s.m = true :=
  ⟨base .selftest, by decide⟩

theorem test_SampleAndEvaluationSetPower_2 : ∃ (s : State), upAndRunning s.m :=
  ⟨base .ready, (by unfold upAndRunning; decide)⟩

theorem test_PowerTimersAct_1 : ∃ (s : State) (die : Nat), alive s.m = true ∧ (s.m.pwr.dies.getD die {}).switching = true ∧
    wantedPoint s.m (s.m.pwr.dies.getD die {}) = (s.m.pwr.dies.getD die {}).point :=
  ⟨base .run (onPwr (fun p => { p with dies := p.dies.set 15 { switching := true } })), 15, by decide⟩

theorem test_PowerTimersAct_2 : ∃ (s : State), notifies s.m.dev.st = true ∧ s.m.dev.st ≠ .fault ∧ (s.m.pwr.due.find 4).isSome
    = true ∧ s.m.ctxs.list.all (fun c => c.st != .run) = true :=
  ⟨base .halt (onPwr (fun p => { p with due := [(4, 5)] })), by decide⟩

theorem test_PowerTimersAct_3 : ∃ (s : State), alive s.m = true :=
  ⟨base .ready, by decide⟩

theorem test_PowerTimersAct_4 : ∃ (s : State) (u : Nat), alive s.m = true ∧ s.m.pwr.throttled = [u] ∧ s.m.pwr.releasing = [] ∧
    16 ≤ u ∧ u < 64 :=
  ⟨base .run (onPwr (fun p => { p with throttled := [63] })), 63, by decide⟩

theorem test_PowerTimersAct_4b : ∃ (s : State) (u : Nat), alive s.m = true ∧ s.m.pwr.throttled = [u] ∧ s.m.pwr.releasing = []
    ∧ 16 ≤ u ∧ u < 64 :=
  ⟨base .run (onPwr (fun p => { p with throttled := [24] })), 24, by decide⟩

theorem test_PowerTimersAct_5 : ∃ (s : State) (u : Nat), alive s.m = true ∧ s.m.pwr.throttled = [u] ∧ s.m.pwr.releasing = [] ∧
    u < 16 :=
  ⟨base .run (onPwr (fun p => { p with throttled := [15] })), 15, by decide⟩

theorem test_PowerTimersAct_5b : ∃ (s : State) (u : Nat), alive s.m = true ∧ s.m.pwr.throttled = [u] ∧ s.m.pwr.releasing = []
    ∧ u < 16 :=
  ⟨base .run (onPwr (fun p => { p with throttled := [0] })), 0, by decide⟩

theorem test_DeviceFaultsAndClocksReport_1 : ∃ (s : State) (k : Nat), upAndRunning s.m ∧ k < 120 :=
  ⟨base .run, 119, (by unfold upAndRunning; decide), by decide⟩

theorem test_DeviceFaultsAndClocksReport_1b : ∃ (s : State) (k : Nat), upAndRunning s.m ∧ k < 120 :=
  ⟨base .selftest, 0, (by unfold upAndRunning; decide), by decide⟩

theorem test_DeviceFaultsAndClocksReport_2 : ∃ (s : State) (k : Nat), s.m.dev.st = .fault ∧ k < 120 :=
  ⟨base .fault, 0, by decide⟩

theorem test_DeviceFaultsAndClocksReport_2b : ∃ (s : State) (k : Nat), s.m.dev.st = .fault ∧ k < 120 :=
  ⟨base .fault, 119, by decide⟩

theorem test_DeviceFaultsAndClocksReport_3 : ∃ (s : State) (k : Nat), upAndRunning s.m ∧ k < 8 :=
  ⟨base .run, 7, (by unfold upAndRunning; decide), by decide⟩

theorem test_DeviceFaultsAndClocksReport_3b : ∃ (s : State) (k : Nat), upAndRunning s.m ∧ k < 8 :=
  ⟨base .selftest, 0, (by unfold upAndRunning; decide), by decide⟩

theorem test_DeviceFaultsAndClocksReport_4 : ∃ (s : State) (die : Nat), upAndRunning s.m ∧ die < 32 ∧ tbit s.m.pwr.refs (if 24
    ≤ die then 1 else 0) = true :=
  ⟨base .run, 31, (by unfold upAndRunning; decide), by decide, by decide⟩

theorem test_DeviceFaultsAndClocksReport_4b : ∃ (s : State) (die : Nat), upAndRunning s.m ∧ die < 32 ∧ tbit s.m.pwr.refs (if
    24 ≤ die then 1 else 0) = true :=
  ⟨base .run, 23, (by unfold upAndRunning; decide), by decide, by decide⟩

theorem test_DeviceFaultsAndClocksReport_5 : ∃ (s : State), upAndRunning s.m ∧ tbit s.m.pwr.refs 0 = true :=
  ⟨base .run, (by unfold upAndRunning; decide), by decide⟩

theorem test_DeviceFaultsAndClocksReport_6 : ∃ (s : State), upAndRunning s.m ∧ tbit s.m.pwr.refs 1 = true :=
  ⟨base .run (withPort 3 { st := 6 }), (by unfold upAndRunning; decide), by decide⟩

theorem test_DeviceFaultsAndClocksReport_7 : ∃ (s : State), upAndRunning s.m ∧ tbit s.m.pwr.refs 2 = true :=
  ⟨hosted .run, (by unfold upAndRunning; decide), by decide⟩

theorem test_DeviceFaultsAndClocksReport_8 : ∃ (s : State) (r : Nat), r < 3 ∧ tbit s.m.pwr.refs r = false :=
  ⟨base .run (onPwr (fun p => { p with refs := 3 })), 2, by decide⟩

theorem test_DeviceFaultsAndClocksReport_8b : ∃ (s : State) (r : Nat), r < 3 ∧ tbit s.m.pwr.refs r = false :=
  ⟨base .off (onPwr (fun p => { p with refs := 0 })), 0, by decide⟩

theorem test_CompletionEntryWritten_1 : ∃ (k : Nat), k < 4 :=
  ⟨3, by decide⟩

theorem test_RingCommandsComplete_1 : ∃ (k : Nat), k < 4 :=
  ⟨3, by decide⟩

set_option maxRecDepth 100000 in
theorem test_RingCommandsComplete_2 : ∃ (s : State) (k : Nat) (e : List Byte), beginsCommand k 8 e s :=
  ⟨hosted .run (fun m => { m with cxl := { m.cxl with turn := 3 } }), 3, cmdEntry 8 255 0 0 0 0,
    (by unfold beginsCommand; decide +kernel)⟩

set_option maxRecDepth 100000 in
theorem test_RingCommandsComplete_3 : ∃ (s : State) (k : Nat) (e : List Byte) (img : JobImage) (m' : Mach) (hw : Nat),
    beginsCommand k 1 e s ∧ (s.m.dev.st = .ready ∨ s.m.dev.st = .run ∨ s.m.dev.st = .quench) ∧ loadImage img (beforeLoad e
    (fetched k s).m) = .ok (m', hw) :=
  ⟨hosted .ready (withEntry 0x5000 2 4 0), 0, cmdEntry 1 0 (2 ^ 30) 0 4096 0, oneJob {},
    (match loadImage (oneJob {}) (beforeLoad (cmdEntry 1 0 (2 ^ 30) 0 4096 0) (fetched 0 (hosted .ready (withEntry 0x5000 2 4 0))).m) with | .ok x => x.1 | .error _ => {}),
    0, (by unfold beginsCommand; decide +kernel), by decide +kernel, ok_eq (by decide +kernel)⟩

set_option maxRecDepth 100000 in
theorem test_RingCommandsComplete_4 : ∃ (s : State) (k : Nat) (e : List Byte) (img : JobImage) (code : Nat), beginsCommand k 1
    e s ∧ (s.m.dev.st = .ready ∨ s.m.dev.st = .run ∨ s.m.dev.st = .quench) ∧ loadImage img (beforeLoad e (fetched k s).m) = .error
    code :=
  ⟨hosted .ready, 0, cmdEntry 1 255 0 0 0 0, ({ header := [] } : JobImage), 2818, (by unfold beginsCommand; decide +kernel),
    by decide +kernel, error_of (by decide +kernel)⟩

set_option maxRecDepth 100000 in
theorem test_RingCommandsComplete_5 : ∃ (s : State) (k : Nat) (e : List Byte), beginsCommand k 1 e s ∧ s.m.dev.st ≠ .ready ∧
    s.m.dev.st ≠ .run ∧ s.m.dev.st ≠ .quench :=
  ⟨hosted .config, 0, cmdEntry 1 255 0 0 0 0, (by unfold beginsCommand; decide +kernel), by decide +kernel, by decide +kernel,
    by decide +kernel⟩

set_option maxRecDepth 100000 in
theorem test_RingCommandsComplete_5b : ∃ (s : State) (k : Nat) (e : List Byte), beginsCommand k 1 e s ∧ s.m.dev.st ≠ .ready ∧
    s.m.dev.st ≠ .run ∧ s.m.dev.st ≠ .quench :=
  ⟨hosted .halt, 0, cmdEntry 1 255 0 0 0 0, (by unfold beginsCommand; decide +kernel), by decide +kernel, by decide +kernel,
    by decide +kernel⟩

set_option maxRecDepth 100000 in
theorem test_RingCommandsComplete_6 : ∃ (m : Mach) (e : List Byte), windowFree m (ceHost e) (ceLen e) = true ∧ tableBad m =
    false :=
  ⟨(hosted .run).m, cmdEntry 1 255 4096 0 0 0, by decide +kernel⟩

set_option maxRecDepth 100000 in
theorem test_RingCommandsComplete_7 : ∃ (s : State) (k : Nat) (e : List Byte), beginsCommand k 2 e s ∧ ceCtx e < 16 ∧ ((ctxAt
    s.m (ceCtx e)).st = .idle ∨ (ctxAt s.m (ceCtx e)).st = .held ∨ (ctxAt s.m (ceCtx e)).st = .halt) :=
  ⟨hosted .run (withCtx 15 { st := .halt }), 0, cmdEntry 2 15 0 0 0 0, (by unfold beginsCommand; decide +kernel),
    by decide +kernel, by decide +kernel⟩

set_option maxRecDepth 100000 in
theorem test_RingCommandsComplete_7b : ∃ (s : State) (k : Nat) (e : List Byte), beginsCommand k 2 e s ∧ ceCtx e < 16 ∧ ((ctxAt
    s.m (ceCtx e)).st = .idle ∨ (ctxAt s.m (ceCtx e)).st = .held ∨ (ctxAt s.m (ceCtx e)).st = .halt) :=
  ⟨hosted .run (withCtx 0 { st := .idle }), 0, cmdEntry 2 0 0 0 0 0, (by unfold beginsCommand; decide +kernel),
    by decide +kernel, by decide +kernel⟩

set_option maxRecDepth 100000 in
theorem test_RingCommandsComplete_8 : ∃ (s : State) (k : Nat) (e : List Byte), beginsCommand k 3 e s ∧ ceCtx e < 16 ∧ (ctxAt
    s.m (ceCtx e)).st = .held ∧ (ctxAt s.m (ceCtx e)).grant + ceArg e % 2 ^ 32 < 2 ^ 32 :=
  ⟨hosted .quench (withCtx 2 { st := .held, grant := 2 ^ 32 - 6 }), 0, cmdEntry 3 2 0 0 0 5,
    (by unfold beginsCommand; decide +kernel), by decide +kernel, by decide +kernel, by decide +kernel⟩

set_option maxRecDepth 100000 in
theorem test_RingCommandsComplete_9 : ∃ (s : State) (k : Nat) (e : List Byte) (v : Nat), beginsCommand k 6 e s ∧ ceArg e % 4 ≠
    3 ∧ objAt s.m.mem (ceVa e) = some v ∧ ceVa e < (objSpan v).2 ∧ loaded (ctxAt s.m (oCtx v)) = true ∧ oPolicy v = 4 ∧
    s.m.mem.migs.all (fun g => g.vpn != vpnOf (ceVa e)) = true ∧ pageCheck s.m.mem 16 (vpnOf (ceVa e)) = none :=
  ⟨hosted .run (fun m => withCtx 0 { st := .run } (withObj 5 5 4 m)), 0, cmdEntry 6 255 0 (2 ^ 21) 0 2, objDesc 5 5 4,
    (by unfold beginsCommand; decide +kernel), by decide +kernel, by decide +kernel, by decide +kernel, ⟨by decide +kernel,
    by decide +kernel, by decide +kernel, by decide +kernel⟩⟩

set_option maxRecDepth 100000 in
theorem test_TimedCommandsRun_1 : ∃ (s : State) (k : Nat) (e : List Byte), beginsCommand k 4 e s ∧ bulkCheck true e (fetched k
    s).m = .ok () :=
  ⟨hosted .ready (fun m => withCtx 0 { st := .idle } (withObj 2 5 0 m)), 0, cmdEntry 4 255 4096 (2 ^ 21) 128 0,
    (by unfold beginsCommand; decide +kernel), ok_eq (by decide +kernel)⟩

set_option maxRecDepth 100000 in
theorem test_TimedCommandsRun_2 : ∃ (s : State) (k : Nat) (e : List Byte), beginsCommand k 5 e s ∧ bulkCheck false e (fetched
    k s).m = .ok () :=
  ⟨hosted .run (fun m => withCtx 0 { st := .held } (withObj 0 5 0 m)), 0, cmdEntry 5 255 4096 (2 ^ 22 - 64) 64 0,
    (by unfold beginsCommand; decide +kernel), ok_eq (by decide +kernel)⟩

theorem test_TimedCommandsRun_3 : ∃ (s : State) (k : Nat) (e : List Byte), beginsCommand k 7 e s ∧ s.m.dev.st = .preboot ∧
    s.boot.fwAccepted = false :=
  ⟨hosted .preboot, 0, cmdEntry 7 255 4096 0 64 0, (by unfold beginsCommand; decide), by decide, by decide⟩

theorem test_TimedCommandsRun_3b : ∃ (s : State) (k : Nat) (e : List Byte), beginsCommand k 7 e s ∧ s.m.dev.st = .preboot ∧
    s.boot.fwAccepted = false :=
  ⟨hosted .preboot, 0, cmdEntry 7 255 4096 0 64 4096, (by unfold beginsCommand; decide), by decide, by decide⟩

set_option maxRecDepth 100000 in
theorem test_TimedCommandsRun_4 : ∃ (s : State) (k : Nat) (c : RingCmd) (host : Nat) (va : Nat) (data : List Byte), k < 4 ∧
    (cmdRing s.m k).current = some c ∧ c.bulk = some (.write host va data) ∧ bulkMay (.write host va data) s.m = true ∧ windowFree
    s.m host data.length = true ∧ data.length % 64 = 0 ∧ cplRoom (cmdRing s.m k) = true ∧ anyPort s.m = true ∧ hdmOffset s.m
    (cplPlace (cmdRing s.m k) (cmdRing s.m k).cplProduced) = none :=
  ⟨hosted .ready (fun m => withCtx 0 { st := .idle } (setCmdRing 2
    { enable := true, cplLog2 := 4, cplBase := 4096, current := some { opcode := 4, tag := 5, status := 0, result := 0, bulk := some (.write 4096 (2 ^ 21) (List.replicate 64 1#8)), ready := false } }
    (withObj 2 5 0 m))), 2,
    ({ opcode := 4, tag := 5, status := 0, result := 0, bulk := some (.write 4096 (2 ^ 21) (List.replicate 64 1#8)), ready := false }
    : RingCmd), 4096, 2 ^ 21, (List.replicate 64 1#8), by decide +kernel⟩

set_option maxRecDepth 100000 in
theorem test_TimedCommandsRun_5 : ∃ (s : State) (k : Nat) (c : RingCmd) (host : Nat) (va : Nat) (n : Nat), k < 4 ∧ (cmdRing
    s.m k).current = some c ∧ c.bulk = some (.read host va n) ∧ bulkMay (.read host va n) s.m = true ∧ windowFree s.m host n =
    true ∧ cplRoom (cmdRing s.m k) = true ∧ anyPort s.m = true ∧ hdmOffset s.m (cplPlace (cmdRing s.m k) (cmdRing s.m
    k).cplProduced) = none :=
  ⟨hosted .ready (fun m => withCtx 0 { st := .idle } (setCmdRing 2
    { enable := true, cplLog2 := 4, cplBase := 4096, current := some { opcode := 5, tag := 5, status := 0, result := 0, bulk := some (.read 4096 (2 ^ 21) 64), ready := false } }
    (withObj 2 5 0 m))), 2,
    ({ opcode := 5, tag := 5, status := 0, result := 0, bulk := some (.read 4096 (2 ^ 21) 64), ready := false } : RingCmd), 4096,
    2 ^ 21, 64, by decide +kernel⟩

set_option maxRecDepth 100000 in
theorem test_TimedCommandsRun_6 : ∃ (s : State) (k : Nat) (c : RingCmd) (b : Bulk), (cmdRing s.m k).current = some c ∧ c.ready
    = false ∧ c.bulk = some b ∧ bulkMay b s.m = false :=
  ⟨hosted .run (fun m => withCtx 0 { st := .idle } (setCmdRing 2
    { enable := true, cplLog2 := 4, cplBase := 4096, current := some { opcode := 4, tag := 5, status := 0, result := 0, bulk := some (.write 4096 (2 ^ 21) [1#8, 2#8]), ready := false } }
    (withObj 0 5 0 m))), 2,
    ({ opcode := 4, tag := 5, status := 0, result := 0, bulk := some (.write 4096 (2 ^ 21) [1#8, 2#8]), ready := false } :
    RingCmd), .write 4096 (2 ^ 21) [1#8, 2#8], by decide +kernel⟩

set_option maxRecDepth 100000 in
theorem test_TimedCommandsRun_7 : ∃ (s : State) (k : Nat) (c : RingCmd) (host : Nat) (va : Nat) (data : List Byte), k < 4 ∧
    (cmdRing s.m k).current = some c ∧ c.bulk = some (.write host va data) ∧ cplRoom (cmdRing s.m k) = true ∧ anyPort s.m = true ∧
    hdmOffset s.m (cplPlace (cmdRing s.m k) (cmdRing s.m k).cplProduced) = none :=
  ⟨hosted .ready (fun m => withCtx 0 { st := .idle } (setCmdRing 2
    { enable := true, cplLog2 := 4, cplBase := 4096, current := some { opcode := 4, tag := 5, status := 0, result := 0, bulk := some (.write 4096 (2 ^ 21) (List.replicate 64 1#8)), ready := false } }
    (withObj 2 5 0 m))), 2,
    ({ opcode := 4, tag := 5, status := 0, result := 0, bulk := some (.write 4096 (2 ^ 21) (List.replicate 64 1#8)), ready := false }
    : RingCmd), 4096, 2 ^ 21, (List.replicate 64 1#8), by decide +kernel⟩

set_option maxRecDepth 100000 in
theorem test_TimedCommandsRun_8 : ∃ (s : State) (k : Nat), ringCan s.m k = true ∧ cplRoom (cmdRing s.m k) = true ∧ hdmOffset
    s.m (cmdPlace (cmdRing s.m k) (cmdRing s.m k).consumed) = none ∧ hdmOffset s.m (cplPlace (cmdRing s.m k) (cmdRing s.m
    k).cplProduced) = none :=
  ⟨hosted .run, 0, by decide +kernel⟩

theorem test_RingRegistersAct_1 : ∃ (s : State) (k : Nat) (p : Nat) (v : Nat), portServes s.m p = true ∧ k < 4 ∧ doorbellOk v
    = true :=
  ⟨hosted .config, 3, 1, 5 + (2 ^ 32 - 6) * 2 ^ 32, by decide⟩

theorem test_RingRegistersAct_2 : ∃ (s : State) (k : Nat) (p : Nat) (v : Nat), portServes s.m p = true ∧ k < 4 ∧ doorbellOk v
    = false :=
  ⟨hosted .config, 3, 1, 5, by decide⟩

theorem test_RingRegistersAct_3 : ∃ (s : State) (k : Nat) (p : Nat) (v : Nat), portServes s.m p = true ∧ k < 4 ∧ doorbellOk v
    = true ∧ (cmdRing s.m k).current = none ∧ (cmdRing s.m k).owed = [] :=
  ⟨hosted .config, 0, 0, (2 ^ 32 - 1) * 2 ^ 32, by decide⟩

theorem test_RingRegistersAct_4 : ∃ (s : State) (k : Nat) (p : Nat) (v : Nat), portServes s.m p = true ∧ k < 4 ∧ (cmdRing s.m
    k).enable = false ∧ tbit v 30 = false ∧ 4 ≤ fld v 23 20 ∧ 4 ≤ fld v 19 16 :=
  ⟨hosted .config (fun m => setCmdRing 1 {} m), 1, 0, 2 ^ 31 + 4 * 2 ^ 20 + 15 * 2 ^ 16, by decide⟩

theorem test_RingRegistersAct_4b : ∃ (s : State) (k : Nat) (p : Nat) (v : Nat), portServes s.m p = true ∧ k < 4 ∧ (cmdRing s.m
    k).enable = false ∧ tbit v 30 = false ∧ 4 ≤ fld v 23 20 ∧ 4 ≤ fld v 19 16 :=
  ⟨hosted .config (fun m => setCmdRing 1 {} m), 1, 0, 2 ^ 15 + 15 * 2 ^ 20 + 4 * 2 ^ 16, by decide⟩

theorem test_RingRegistersAct_5 : ∃ (s : State) (k : Nat) (p : Nat) (v : Nat), portServes s.m p = true ∧ k < 4 ∧ tbit v 30 =
    false ∧ tbit v 31 = false :=
  ⟨hosted .run, 3, 1, 2 ^ 15, by decide⟩

theorem test_RingRegistersAct_6 : ∃ (s : State) (k : Nat) (p : Nat) (v : Nat), portServes s.m p = true ∧ k < 4 ∧ (cmdRing s.m
    k).enable = true ∧ tbit v 30 = false ∧ tbit v 31 = true :=
  ⟨hosted .run, 3, 1, 2 ^ 31, by decide⟩

theorem test_RingRegistersAct_7 : ∃ (s : State) (k : Nat) (p : Nat) (v : Nat), portServes s.m p = true ∧ k < 4 ∧ v < 2 ^ 64 ∧
    v % 4096 = 0 :=
  ⟨hosted .run, 3, 1, 2 ^ 64 - 4096, by decide⟩

theorem test_RingRegistersAct_8 : ∃ (s : State) (k : Nat), k < 4 ∧ (portServes s.m 0 = true ∨ portServes s.m 1 = true) :=
  ⟨hosted .run, 3, by decide⟩

theorem test_RingRegistersAct_9 : ∃ (s : State) (p : Nat), portServes s.m p = true :=
  ⟨hosted .run (fun m => setCmdRing 2 { served := true, port := 1, enable := true } m), 1, by decide⟩

theorem test_HostAccessesServed_1 : ∃ (s : State) (p : Nat), portServes s.m p = true ∧ (cxlPort s.m p).cxl = true :=
  ⟨hosted .run, 1, by decide⟩

theorem test_HostAccessesServed_2 : ∃ (s : State) (p : Nat), portServes s.m p = true :=
  ⟨hosted .preboot, 1, by decide⟩

theorem test_HostAccessesServed_3 : ∃ (s : State) (p : Nat) (a : Nat) (n : Nat), inHdmWindow s.m p a n :=
  ⟨hosted .run, 1, 2 ^ 28 + 2 ^ 21 - 4, 4, (by unfold inHdmWindow; decide)⟩

theorem test_HostAccessesServed_4 : ∃ (s : State) (p : Nat) (a : Nat), inHdmWindow s.m p a 1 ∧ s.m.mem.wf = true :=
  ⟨hosted .run, 0, 2 ^ 28, (by unfold inHdmWindow; decide), by decide⟩

theorem test_HostAccessesServed_4b : ∃ (s : State) (p : Nat) (a : Nat), inHdmWindow s.m p a 1 ∧ s.m.mem.wf = true :=
  ⟨hosted .run, 0, 2 ^ 28 + 2 ^ 21 - 1, (by unfold inHdmWindow; decide), by decide⟩

theorem test_HostAccessesServed_5 : ∃ (s : State) (p : Nat), p < 2 ∧ (cxlPort s.m p).l0 = true ∧ cxlServes s.m.dev.st = false
    :=
  ⟨hosted .train, 1, by decide⟩

theorem test_HostAccessesServed_6 : ∃ (off : _), (off = serialLow ∨ off = serialHigh) :=
  ⟨serialLow, by decide⟩

theorem test_HostAccessesServed_6b : ∃ (off : _), (off = serialLow ∨ off = serialHigh) :=
  ⟨serialHigh, by decide⟩

theorem test_HostAccessesServed_7 : ∃ (s : State) (p : Nat) (off : Nat), portServes s.m p = true ∧ off ≠ serialLow ∧ off ≠
    serialHigh :=
  ⟨hosted .run, 0, 65536, by decide⟩

theorem test_CxlPortEventsAct_1 : ∃ (p : Nat), p < 2 :=
  ⟨1, by decide⟩

theorem test_CxlPortEventsAct_2 : ∃ (s : State) (p : Nat), p < 2 ∧ (cxlPort s.m p).perst = true :=
  ⟨hosted .run (setCxlPort 0 { perst := true }), 0, by decide⟩

theorem test_CxlPortEventsAct_2b : ∃ (s : State) (p : Nat), p < 2 ∧ (cxlPort s.m p).perst = true :=
  ⟨hosted .reset (setCxlPort 0 { perst := true }), 0, by decide⟩

theorem test_CxlPortEventsAct_3 : ∃ (s : State) (p : Nat), p < 2 ∧ (cxlPort s.m p).training = true ∧ cxlTrains s.m = true ∧
    s.m.dev.st ≠ .train :=
  ⟨hosted .run (setCxlPort 0 { training := true }), 0, by decide⟩

theorem test_CxlPortEventsAct_4 : ∃ (s : State) (p : Nat), p < 2 ∧ (cxlPort s.m p).l0 = true :=
  ⟨hosted .run, 0, by decide⟩

theorem test_CxlPortEventsAct_4b : ∃ (s : State) (p : Nat), p < 2 ∧ (cxlPort s.m p).l0 = true :=
  ⟨hosted .run (fun m => withEntry 0x4000 0x01 1 1 m), 0, by decide⟩

theorem test_TrainingAdvances_1 : ∃ (s : State) (p : Nat) (lanes : Nat), p < 8 ∧ (portAt s.m p).st = 1 ∧ 40 ≤ lanes :=
  ⟨base .run (withPort 7 { st := 1 }), 7, 40, by decide⟩

theorem test_TrainingAdvances_2 : ∃ (s : State) (p : Nat), p < 8 ∧ (portAt s.m p).st = 2 ∧ (portAt s.m p).laneWait = false :=
  ⟨base .run (withPort 0 { st := 2 }), 0, by decide⟩

theorem test_TrainingAdvances_2b : ∃ (s : State) (p : Nat), p < 8 ∧ (portAt s.m p).st = 2 ∧ (portAt s.m p).laneWait = false :=
  ⟨base .run (withPort 0 { st := 2 }), 0, by decide⟩

theorem test_TrainingAdvances_2c : ∃ (s : State) (p : Nat), p < 8 ∧ (portAt s.m p).st = 2 ∧ (portAt s.m p).laneWait = false :=
  ⟨base .run (withPort 0 { st := 2 }), 0, by decide⟩

theorem test_TrainingAdvances_3 : ∃ (s : State) (p : Nat), p < 8 ∧ (portAt s.m p).st = 2 ∧ (portAt s.m p).laneWait = true :=
  ⟨base .run (withPort 0 { st := 2, laneWait := true }), 0, by decide⟩

theorem test_TrainingAdvances_4 : ∃ (s : State) (p : Nat), (portAt s.m p).st = 3 :=
  ⟨base .run (withPort 0 { st := 3 }), 0, by decide⟩

theorem test_TrainingAdvances_5 : ∃ (s : State) (p : Nat), (portAt s.m p).st = 4 :=
  ⟨base .run (withPort 0 { st := 4 }), 0, by decide⟩

theorem test_TrainingAdvances_6 : ∃ (s : State) (p : Nat), (((portAt s.m p).st = 2 ∧ (portAt s.m p).laneWait = false) ∨
    (portAt s.m p).st = 3 ∨ (portAt s.m p).st = 4) :=
  ⟨base .run (withPort 7 { st := 4, limitRun := 2 }), 7, by decide⟩

theorem test_TrainingAdvances_6b : ∃ (s : State) (p : Nat), (((portAt s.m p).st = 2 ∧ (portAt s.m p).laneWait = false) ∨
    (portAt s.m p).st = 3 ∨ (portAt s.m p).st = 4) :=
  ⟨base .run (withPort 7 { st := 2 }), 7, by decide⟩

theorem test_TrainingAdvances_7 : ∃ (s : State) (p : Nat), (portAt s.m p).st = 7 :=
  ⟨base .run (withPort 7 { st := 7 }), 7, by decide⟩

theorem test_IdentityAndTimeExchanged_1 : ∃ (s : State) (p : Nat) (id : Ident), (portAt s.m p).st = 5 ∧ id.coord ≠ 0xFFFFFFFF
    ∧ (ownCoord? s.m).isSome :=
  ⟨base .run (fun m => withPort 0 { st := 5 } (withEntry 0x5000 0x02 4 0 (withEntry 0x5000 0x03 4 0x01010102 m))), 0,
    ({ axis := 0, dir := 1, coord := 1, ringSize := 0x01010102, nodeId := 3 } : Ident), by decide⟩

theorem test_IdentityAndTimeExchanged_1b : ∃ (s : State) (p : Nat) (id : Ident), (portAt s.m p).st = 5 ∧ id.coord ≠ 0xFFFFFFFF
    ∧ (ownCoord? s.m).isSome :=
  ⟨base .run (fun m => withPort 0 { st := 5 } (withEntry 0x5000 0x02 4 0 (withEntry 0x5000 0x03 4 0x01010102 m))), 0,
    ({ coord := 7 } : Ident), by decide⟩

theorem test_IdentityAndTimeExchanged_2 : ∃ (s : State) (p : Nat), (portAt s.m p).st = 5 :=
  ⟨base .run (withPort 7 { st := 5 }), 7, by decide⟩

theorem test_IdentityAndTimeExchanged_3 : ∃ (s : State) (p : Nat), ((portAt s.m p).st = 5 ∨ (portAt s.m p).st = 6) :=
  ⟨base .run (withPort 7 { st := 6 }), 7, by decide⟩

theorem test_IdentityAndTimeExchanged_4 : ∃ (s : State) (p : Nat), ((portAt s.m p).st = 5 ∨ (portAt s.m p).st = 6) :=
  ⟨base .run (withPort 7 { st := 6 }), 7, by decide⟩

theorem test_IdentityAndTimeExchanged_4b : ∃ (s : State) (p : Nat), ((portAt s.m p).st = 5 ∨ (portAt s.m p).st = 6) :=
  ⟨base .run (withPort 7 { st := 5 }), 7, by decide⟩

theorem test_IdentityAndTimeExchanged_5 : ∃ (s : State) (p : Nat), ((portAt s.m p).st = 5 ∨ (portAt s.m p).st = 6) ∧
    parentPort s.m = some p :=
  ⟨base .run (fun m => withPort 1 { st := 6 } (withEntry 0x5000 0x02 4 1 (withEntry 0x5000 0x03 4 0x01010102 m))), 1, by decide⟩

theorem test_LanesSwapAndLinksFail_1 : ∃ (s : State) (p : Nat), p < 8 ∧ ((portAt s.m p).st = 5 ∨ (portAt s.m p).st = 6) :=
  ⟨base .run (withPort 7 { st := 6 }), 7, by decide⟩

theorem test_LanesSwapAndLinksFail_2 : ∃ (s : State) (p : Nat) (sp : Nat) (ev : LaneEvent) (rest : List Nat), ((portAt s.m
    p).st = 5 ∨ (portAt s.m p).st = 6) ∧ ev.lane ∈ (portAt s.m p).rxMap ∧ (ev.lost = true ∨ dnum s.m 0x5000 0x09 < ev.symbols) ∧
    (portAt s.m p).swap = [] ∧ (portAt s.m p).rxSpare = sp :: rest :=
  ⟨base .run (withPort 7 { st := 6, rxMap := [0, 1, 2], rxSpare := [40, 41] }), 7, 40, ⟨2, true, 0⟩, [41], by decide⟩

theorem test_LanesSwapAndLinksFail_2b : ∃ (s : State) (p : Nat) (sp : Nat) (ev : LaneEvent) (rest : List Nat), ((portAt s.m
    p).st = 5 ∨ (portAt s.m p).st = 6) ∧ ev.lane ∈ (portAt s.m p).rxMap ∧ (ev.lost = true ∨ dnum s.m 0x5000 0x09 < ev.symbols) ∧
    (portAt s.m p).swap = [] ∧ (portAt s.m p).rxSpare = sp :: rest :=
  ⟨base .run (withPort 7 { st := 5, rxMap := [0, 1, 2], rxSpare := [40, 41] }), 7, 40, ⟨2, false, 2 ^ 33⟩, [41], by decide⟩

theorem test_LanesSwapAndLinksFail_3 : ∃ (s : State) (ev : LaneEvent), ev.lost = false ∧ ev.symbols ≤ dnum s.m 0x5000 0x09 :=
  ⟨base .run (withPort 7 { st := 5, rxMap := [0, 1, 2] }), ⟨0, false, 0⟩, by decide⟩

theorem test_LanesSwapAndLinksFail_4 : ∃ (s : State) (p : Nat) (ev : LaneEvent), p < 8 ∧ (portAt s.m p).st = 5 ∧ ev.lane ∈
    (portAt s.m p).rxMap ∧ (ev.lost = true ∨ dnum s.m 0x5000 0x09 < ev.symbols) ∧ (portAt s.m p).swap = [] ∧ (portAt s.m
    p).rxSpare = [] :=
  ⟨base .run (withPort 7 { st := 5, rxMap := [0, 1, 2] }), 7, ⟨0, true, 0⟩, by decide⟩

theorem test_LanesSwapAndLinksFail_5 : ∃ (s : State) (p : Nat) (lane : Nat), lane ∈ (portAt s.m p).rxSpare :=
  ⟨base .run (withPort 7 { st := 6, rxSpare := [40, 43] }), 7, 43, by decide⟩

theorem test_LanesSwapAndLinksFail_6 : ∃ (s : State) (p : Nat) (l : Nat) (sp : Nat) (nx : Nat) (ep : Nat) (rest : List Nat),
    ((portAt s.m p).st = 5 ∨ (portAt s.m p).st = 6) ∧ (portAt s.m p).swap = [(l, sp, ep)] ∧ l ≠ sp ∧ (portAt s.m p).rxSpare = nx
    :: rest ∧ sp ∉ (portAt s.m p).rxSpare :=
  ⟨base .run (withPort 7 { st := 6, swap := [(1, 40, 1)], rxSpare := [41] }), 7, 1, 40, 41, 1, [], by decide⟩

theorem test_LanesSwapAndLinksFail_7 : ∃ (s : State) (p : Nat), ((portAt s.m p).st = 5 ∨ (portAt s.m p).st = 6) :=
  ⟨base .run (withPort 7 { st := 6, txMap := [0, 1, 2] }), 7, by decide⟩

theorem test_LanesSwapAndLinksFail_8 : ∃ (s : State) (p : Nat), (portAt s.m p).swap ≠ [] :=
  ⟨base .run (withPort 7 { st := 6, swap := [(1, 40, 1), (2, 41, 2)] }), 7, by decide⟩

theorem test_LanesSwapAndLinksFail_9 : ∃ (s : State) (p : Nat) (l : Nat) (sp : Nat) (ep : Nat), (portAt s.m p).swap = [(l, sp,
    ep)] :=
  ⟨base .run (withPort 7 { st := 6, rxMap := [0, 1], swap := [(1, 40, 1)] }), 7, 1, 40, 1, by decide⟩

set_option maxRecDepth 100000 in
theorem test_FlitsAcceptedInOrder_1 : ∃ (s : State) (p : Nat) (f : Flit), ((portAt s.m p).st = 5 ∨ (portAt s.m p).st = 6) ∧
    s.m.tor.held = [] ∧ (flitGood f = false ∨ (fld f.header 63 60 ≤ 1 ∧ fld f.header 57 46 ≠ ((portAt s.m p).rxLast + 1) % 4096))
    :=
  ⟨base .run (withPort 7 { st := 6 }), 7, ⟨1, []⟩, by decide +kernel⟩

set_option maxRecDepth 100000 in
theorem test_FlitsAcceptedInOrder_1b : ∃ (s : State) (p : Nat) (f : Flit), ((portAt s.m p).st = 5 ∨ (portAt s.m p).st = 6) ∧
    s.m.tor.held = [] ∧ (flitGood f = false ∨ (fld f.header 63 60 ≤ 1 ∧ fld f.header 57 46 ≠ ((portAt s.m p).rxLast + 1) % 4096))
    :=
  ⟨base .run (withPort 7 { st := 6, rxLast := 5 }), 7, nullFlit, by decide +kernel⟩

set_option maxRecDepth 100000 in
theorem test_FlitsAcceptedInOrder_2 : ∃ (s : State) (p : Nat) (f : Flit), ((portAt s.m p).st = 5 ∨ (portAt s.m p).st = 6) ∧
    s.m.tor.held = [] ∧ flitGood f = true ∧ fld f.header 63 60 = 2 ∧ tbit f.header 32 = false :=
  ⟨base .run (withPort 7 { st := 6 }), 7, zeroFlit (2 * 2 ^ 60 + 161), by decide +kernel⟩

set_option maxRecDepth 100000 in
theorem test_FlitsAcceptedInOrder_3 : ∃ (s : State) (p : Nat) (f : Flit), ((portAt s.m p).st = 5 ∨ (portAt s.m p).st = 6) ∧
    s.m.tor.held = [] ∧ flitGood f = true ∧ fld f.header 63 60 = 0 ∧ tbit f.header 32 = false ∧ fld f.header 57 46 = ((portAt s.m
    p).rxLast + 1) % 4096 :=
  ⟨base .run (withPort 7 { st := 6 }), 7, nullFlit, by decide +kernel⟩

set_option maxRecDepth 100000 in
theorem test_FlitsAcceptedInOrder_4 : ∃ (s : State) (p : Nat) (f : Flit), ((portAt s.m p).st = 5 ∨ (portAt s.m p).st = 6) ∧
    flitGood f = true ∧ fld f.header 63 60 = 1 ∧ tbit f.header 32 = false ∧ fld f.header 57 46 = ((portAt s.m p).rxLast + 1) %
    4096 :=
  ⟨base .run (withPort 7 { st := 6 }), 7, zeroFlit (2 ^ 60 + 211), by decide +kernel⟩

set_option maxRecDepth 100000 in
theorem test_FlitsAcceptedInOrder_5 : ∃ (s : State) (p : Nat) (f : Flit) (ev : FlitEvent), ((portAt s.m p).st = 5 ∨ (portAt
    s.m p).st = 6) ∧ s.m.tor.held = [] ∧ flitGood f = true ∧ ev.fabricBad = true ∧ fld f.header 63 60 = 1 ∧ tbit f.header 32 =
    false ∧ fld f.header 57 46 = ((portAt s.m p).rxLast + 1) % 4096 :=
  ⟨base .run (withPort 7 { st := 6 }), 7, zeroFlit (2 ^ 60 + 211), { fabricBad := true }, by decide +kernel⟩

set_option maxRecDepth 100000 in
theorem test_FlitsAcceptedInOrder_6 : ∃ (s : State) (p : Nat) (f : Flit), ((portAt s.m p).st = 5 ∨ (portAt s.m p).st = 6) ∧
    s.m.tor.held = [] ∧ flitGood f = true ∧ fld f.header 63 60 = 0 ∧ tbit f.header 32 = true ∧ tbit f.header 33 = true ∧ fld
    f.header 57 46 = ((portAt s.m p).rxLast + 1) % 4096 :=
  ⟨base .run (withPort 7 { st := 6, retry := [⟨0, 1, 2, []⟩] }), 7, zeroFlit (2 ^ 33 + 2 ^ 32 + 58), by decide +kernel⟩

theorem test_FlitsAcceptedInOrder_7 : ∃ (s : State) (p : Nat), ((portAt s.m p).st = 5 ∨ (portAt s.m p).st = 6) ∧ (portAt s.m
    p).nakSent = true :=
  ⟨base .run (withPort 7 { st := 6, nakSent := true }), 7, by decide⟩

theorem test_FlitsAcceptedInOrder_8 : ∃ (s : State) (p : Nat), ((portAt s.m p).nakSent = false ∨ ((portAt s.m p).st ≠ 5 ∧
    (portAt s.m p).st ≠ 6)) :=
  ⟨base .run (withPort 7 { st := 6 }), 7, by decide⟩

theorem test_FlitsAcceptedInOrder_8b : ∃ (s : State) (p : Nat), ((portAt s.m p).nakSent = false ∨ ((portAt s.m p).st ≠ 5 ∧
    (portAt s.m p).st ≠ 6)) :=
  ⟨base .run (withPort 7 { nakSent := true }), 7, by decide⟩

set_option maxRecDepth 100000 in
theorem test_FlitsAcceptedInOrder_9 : ∃ (s : State) (p : Nat), (portAt s.m p).st ≠ 5 ∧ (portAt s.m p).st ≠ 6 ∧ s.m.tor.held =
    [] :=
  ⟨base .run, 7, by decide +kernel⟩

theorem test_RequestsAnswered_1 : ∃ (r : Req) (s : State), newRequest r 1 s ∧ readAccess s.m.dev.st (mhead r.payload).index
    (mhead r.payload).sub = 0 ∧ plainEntry (mhead r.payload).index (mhead r.payload).sub = true ∧ (mhead r.payload).len = 0 ∧
    ¬((mhead r.payload).index = 0x7000 ∧ (mhead r.payload).sub = 0x21) ∧ ((mhead r.payload).index = 0x8000 → stepPairOk (ctxAt s.m
    (dnum s.m 0x8000 0x01)) = true) :=
  ⟨tunnel 1 0x3000 0x01 0 [], hosted .config,
    new_request (heard_mbox rfl (by decide)) (by decide +kernel) (stored_ok (by decide +kernel)) rfl, by decide +kernel,
    by decide +kernel, by decide +kernel, by decide +kernel, by decide +kernel⟩

theorem test_RequestsAnswered_2 : ∃ (r : Req) (s : State), newRequest r 3 s ∧ readAccess s.m.dev.st (mhead r.payload).index
    (mhead r.payload).sub = 0 ∧ (mhead r.payload).len = 4 ∧ 1 ≤ octs r.payload 16 2 ∧ octs r.payload 16 2 ≤ 512 ∧ carriedOk (mhead
    r.payload) r.payload = true ∧ (mhead r.payload).off = 0 ∧ ¬((mhead r.payload).index = 0x7000 ∧ (mhead r.payload).sub = 0x21) ∧
    ((mhead r.payload).index = 0x8000 → stepPairOk (ctxAt s.m (dnum s.m 0x8000 0x01)) = true) :=
  ⟨tunnel 3 0x2000 0x0B 0 (withCpl (leBytes 2 512)), hosted .config,
    new_request (heard_mbox rfl (by decide)) (by decide +kernel) (stored_ok (by decide +kernel)) rfl, by decide +kernel,
    by decide +kernel, by decide +kernel, ⟨by decide +kernel, by decide +kernel, by decide +kernel, by decide +kernel,
    by decide +kernel⟩⟩

theorem test_RequestsAnswered_3 : ∃ (r : Req) (s : State), newRequest r 3 s ∧ readAccess s.m.dev.st (mhead r.payload).index
    (mhead r.payload).sub = 0 ∧ (mhead r.payload).len = 4 ∧ 1 ≤ octs r.payload 16 2 ∧ octs r.payload 16 2 ≤ 512 ∧ carriedOk (mhead
    r.payload) r.payload = true ∧ (mhead r.payload).off = 0 ∧ ¬((mhead r.payload).index = 0x7000 ∧ (mhead r.payload).sub = 0x21) ∧
    ((mhead r.payload).index = 0x8000 → stepPairOk (ctxAt s.m (dnum s.m 0x8000 0x01)) = true) ∧ (mhead r.payload).index = 0x1100 ∧
    (mhead r.payload).sub = 0x11 :=
  ⟨tunnel 3 0x1100 0x11 0 (withCpl (leBytes 2 1)), hosted .config,
    new_request (heard_mbox rfl (by decide)) (by decide +kernel) (stored_ok (by decide +kernel)) rfl, by decide +kernel,
    by decide +kernel, by decide +kernel, ⟨by decide +kernel, by decide +kernel, by decide +kernel, ⟨by decide +kernel,
    by decide +kernel, by decide +kernel, by decide +kernel⟩⟩⟩

theorem test_RequestsAnswered_4 : ∃ (r : Req) (s : State), newRequest r 2 s ∧ carriedOk (mhead r.payload) r.payload = true ∧
    plainEntry (mhead r.payload).index (mhead r.payload).sub = true ∧ (mhead r.payload).len = 2 * entrySize (mhead
    r.payload).index (mhead r.payload).sub ∧ plainWrite (mhead r.payload).index (mhead r.payload).sub (carried (mhead r.payload)
    r.payload) s :=
  ⟨tunnel 2 0x3000 0x01 0 (withCpl (leBytes 4 4000)), hosted .config,
    new_request (heard_mbox rfl (by decide)) (by decide +kernel) (stored_ok (by decide +kernel)) rfl, by decide +kernel,
    by decide +kernel, by decide +kernel, plain_write (by decide +kernel)⟩

theorem test_RequestsAnswered_5 : ∃ (r : Req) (s : State), newRequest r 4 s ∧ carriedOk (mhead r.payload) r.payload = true ∧
    s.m.mgmt.stages = [] ∧ (mhead r.payload).len % 2 = 0 ∧ (mhead r.payload).len ≤ 1024 ∧ (mhead r.payload).off = 0 ∧ (mhead
    r.payload).len / 2 ≤ entrySize (mhead r.payload).index (mhead r.payload).sub ∧ tbit (mhead r.payload).flags 1 = true ∧
    plainWrite (mhead r.payload).index (mhead r.payload).sub (carried (mhead r.payload) r.payload) s :=
  ⟨tunnel 4 0x3000 0x01 2 (withCpl (leBytes 4 4000)), hosted .config,
    new_request (heard_mbox rfl (by decide)) (by decide +kernel) (stored_ok (by decide +kernel)) rfl, by decide +kernel,
    by decide +kernel, by decide +kernel, ⟨by decide +kernel, by decide +kernel, by decide +kernel, by decide +kernel,
    plain_write (by decide +kernel)⟩⟩

theorem test_RequestsAnswered_6 : ∃ (r : Req) (s : State), newRequest r 4 s ∧ carriedOk (mhead r.payload) r.payload = true ∧
    s.m.mgmt.stages = [] ∧ (mhead r.payload).len % 2 = 0 ∧ (mhead r.payload).len ≤ 1024 ∧ (mhead r.payload).off = 0 ∧ (mhead
    r.payload).len / 2 ≤ entrySize (mhead r.payload).index (mhead r.payload).sub ∧ tbit (mhead r.payload).flags 1 = false ∧
    writeAccess s.m.dev.st (mhead r.payload).index (mhead r.payload).sub = 0 :=
  ⟨tunnel 4 0x3000 0x01 0 (withCpl (leBytes 2 160)), hosted .config,
    new_request (heard_mbox rfl (by decide)) (by decide +kernel) (stored_ok (by decide +kernel)) rfl, by decide +kernel,
    by decide +kernel, by decide +kernel, ⟨by decide +kernel, by decide +kernel, by decide +kernel, by decide +kernel,
    by decide +kernel⟩⟩

theorem test_ManagementFramesAndTimers_1 : ∃ (r : Req) (s : State) (k : Kept), heard r s.m ∧ (reqClass r = 1 ∨ reqClass r = 2
    ∨ reqClass r = 3 ∨ reqClass r = 4) ∧ s.m.mgmt.cache.find? (fun x => x.who == requester r && x.op == (mhead r.payload).op &&
    x.seq == (mhead r.payload).seq) = some k :=
  ⟨tunnel 1 0x3000 0x01 0 [], hosted .config (fun m =>
    { m with mgmt := { m.mgmt with cache := [(⟨2 ^ 48, 1, 5, [1#8]⟩ : Kept)] } }), (⟨2 ^ 48, 1, 5, [1#8]⟩ : Kept),
    heard_mbox rfl (by decide), by decide +kernel, by decide +kernel⟩

theorem test_ManagementFramesAndTimers_2 : ∃ (r : Req) (s : State), heard r s.m ∧ reqClass r = 7 :=
  ⟨tunnel 7 0x3000 0x01 0 [], hosted .run (fun m => { m with mgmt := { m.mgmt with stages := [⟨2 ^ 48, 0x3000, 1, [], 0⟩] } }),
    heard_mbox rfl (by decide), by decide +kernel⟩

theorem test_ManagementFramesAndTimers_3 : ∃ (r : Req) (s : State), heard r s.m ∧ discardFrame r = true :=
  ⟨segment true 1 1, wired .run,
    (by unfold heard; exact ⟨by decide +kernel, rfl, by decide +kernel, Or.inl (by decide +kernel)⟩), by decide +kernel⟩

theorem test_ManagementFramesAndTimers_4 : ∃ (r : Req) (s : State), r.via = .seg ∧ r.fcsOk = false ∧ mgmtDriven s.m = true ∧
    leVal (slice r.dst 0 6) = macAddr s.m :=
  ⟨segment false 1 0, wired .run, by decide⟩

theorem test_ManagementFramesAndTimers_5 : ∃ (s : State) (who : Nat) (x : Stage), s.m.mgmt.snaps.find? (fun y => y.who == who)
    = some x :=
  ⟨wired .run (fun m => { m with mgmt := { m.mgmt with snaps := [(⟨7, 0x1100, 0x11, [], 5⟩ : Stage)] } }), 7, (⟨7, 0x1100, 0x11,
    [], 5⟩ : Stage), by decide⟩

theorem test_ManagementFramesAndTimers_6 : ∃ (s : State) (who : Nat) (x : Stage), s.m.mgmt.stages.find? (fun y => y.who ==
    who) = some x :=
  ⟨wired .run (fun m => { m with mgmt := { m.mgmt with stages := [(⟨7, 0x1100, 0x11, [], 5⟩ : Stage)] } }), 7, (⟨7, 0x1100,
    0x11, [], 5⟩ : Stage), by decide⟩

theorem test_ManagementFramesAndTimers_7 : ∃ (s : State), mgmtDriven s.m = true :=
  ⟨wired .run, by decide⟩

theorem test_ManagementFramesAndTimers_8 : ∃ (s : State), mgmtDriven s.m = true :=
  ⟨wired .fault, by decide⟩

theorem test_ManagementFramesAndTimers_9 : ∃ (s : State), mgmtDriven s.m = true ∧ s.m.mgmt.beaconSeen = true ∧ s.m.mgmt.csma =
    false :=
  ⟨wired .run (fun m => { m with mgmt := { m.mgmt with beaconSeen := true } }), by decide⟩

theorem test_ManagementFramesAndTimers_10 : ∃ (s : State) (f : Nat × List Byte) (rest : List (Nat × List Byte)), mgmtDriven
    s.m = true ∧ (s.m.mgmt.beaconSeen = false ∨ s.m.mgmt.csma = true) ∧ s.m.mgmt.txQueue = f :: rest :=
  ⟨wired .run (fun m => { m with mgmt := { m.mgmt with txQueue := [(7, [1#8])] } }), (7, [1#8]), [], by decide⟩

theorem test_EntryWritesReplaceOrRefuse_1 : ∃ (s : State) (index : Nat) (sub : Nat) (v : List Byte), storedOk s.m index sub ∧
    plainWrite index sub v s :=
  ⟨base .ready, 0x3000, 0x01, leBytes 4 4800, stored_ok (by decide +kernel), plain_write (by decide +kernel)⟩

theorem test_EntryWritesReplaceOrRefuse_1b : ∃ (s : State) (index : Nat) (sub : Nat) (v : List Byte), storedOk s.m index sub ∧
    plainWrite index sub v s :=
  ⟨base .halt, 0x3000, 0x08, leBytes 1 0x13, stored_ok (by decide +kernel), plain_write (by decide +kernel)⟩

theorem test_EntryWritesReplaceOrRefuse_2 : ∃ (s : State) (index : Nat) (sub : Nat) (v : List Byte), serverRuns s.m.dev.st =
    true ∧ storedOk s.m index sub ∧ (index, sub) ∉ commandEntries ∧ (writeEntry index sub v s).2 ≠ 0 :=
  ⟨base .ready, 0x3000, 0x08, leBytes 1 0x13, by decide +kernel, stored_ok (by decide +kernel), by decide +kernel,
    by decide +kernel⟩

theorem test_EntryWritesReplaceOrRefuse_2b : ∃ (s : State) (index : Nat) (sub : Nat) (v : List Byte), serverRuns s.m.dev.st =
    true ∧ storedOk s.m index sub ∧ (index, sub) ∉ commandEntries ∧ (writeEntry index sub v s).2 ≠ 0 :=
  ⟨base .train, 0x3000, 0x01, leBytes 4 1, by decide +kernel, stored_ok (by decide +kernel), by decide +kernel,
    by decide +kernel⟩

theorem test_EntryWritesReplaceOrRefuse_3 : (∃ (m : Mach) (v c : List Byte), m.mgmt.dict.find (dkey 0x3000 0x01) = some (v, c) ∧ c ≠ cplBytes v) :=
  ⟨{ mgmt := { dict := [(dkey 0x3000 0x01, ([1#8], [1#8]))] } }, [1#8], [1#8], by decide⟩

theorem test_PowerEntriesChecked_1 : ∃ (s : State) (v : List Byte), writeState s.m.dev.st = 0 ∧ storedOk s.m 0x3000 0x01 ∧
    v.length = 4 ∧ leVal v ≤ 4800 ∧ s.m.pwr.floor ≤ leVal v :=
  ⟨base .ready (onPwr (fun p => { p with floor := 4800 })), leBytes 4 4800, by decide +kernel, stored_ok (by decide +kernel),
    by decide +kernel, by decide +kernel, by decide +kernel⟩

theorem test_PowerEntriesChecked_2 : ∃ (s : State) (v : List Byte), writeState s.m.dev.st = 0 ∧ storedOk s.m 0x3000 0x01 ∧
    v.length = 4 ∧ 4800 < leVal v :=
  ⟨base .ready, leBytes 4 4801, by decide +kernel, stored_ok (by decide +kernel), by decide +kernel, by decide +kernel⟩

theorem test_PowerEntriesChecked_3 : ∃ (s : State) (v : List Byte), writeState s.m.dev.st = 0 ∧ storedOk s.m 0x3000 0x01 ∧
    v.length = 4 ∧ leVal v ≤ 4800 ∧ leVal v < s.m.pwr.floor :=
  ⟨base .ready (onPwr (fun p => { p with floor := 2001 })), leBytes 4 2000, by decide +kernel, stored_ok (by decide +kernel),
    by decide +kernel, by decide +kernel, by decide +kernel⟩

theorem test_PowerEntriesChecked_4 : ∃ (s : State) (v : List Byte), writeState s.m.dev.st = 0 ∧ storedOk s.m 0x3000 0x07 ∧
    v.length = 1 ∧ leVal v < 64 ∧ 0 ∈ ([fld (leVal v) 1 0, fld (leVal v) 3 2, fld (leVal v) 5 4]) ∧ 1 ∈ ([fld (leVal v) 1 0, fld
    (leVal v) 3 2, fld (leVal v) 5 4]) ∧ 2 ∈ ([fld (leVal v) 1 0, fld (leVal v) 3 2, fld (leVal v) 5 4]) :=
  ⟨base .run, leBytes 1 0x06, by decide +kernel, stored_ok (by decide +kernel), by decide +kernel, by decide +kernel⟩

theorem test_PowerEntriesChecked_5 : ∃ (s : State) (v : List Byte), writeState s.m.dev.st = 0 ∧ storedOk s.m 0x3000 0x07 ∧
    v.length = 1 ∧ ¬(leVal v < 64 ∧ 0 ∈ ([fld (leVal v) 1 0, fld (leVal v) 3 2, fld (leVal v) 5 4]) ∧ 1 ∈ ([fld (leVal v) 1 0, fld
    (leVal v) 3 2, fld (leVal v) 5 4]) ∧ 2 ∈ ([fld (leVal v) 1 0, fld (leVal v) 3 2, fld (leVal v) 5 4])) :=
  ⟨base .run, leBytes 1 0x46, by decide +kernel, stored_ok (by decide +kernel), by decide +kernel, by decide +kernel⟩

theorem test_PowerEntriesChecked_6 : ∃ (s : State) (v : List Byte), calm s.m.dev.st ∧ storedOk s.m 0x3000 0x08 ∧ v.length = 1
    ∧ (leVal v = 0 ∨ (0x10 ≤ leVal v ∧ leVal v ≤ 0x13)) :=
  ⟨base .quench, leBytes 1 0x13, (by unfold calm; decide +kernel), stored_ok (by decide +kernel), by decide +kernel,
    by decide +kernel⟩

theorem test_PowerEntriesChecked_6b : ∃ (s : State) (v : List Byte), calm s.m.dev.st ∧ storedOk s.m 0x3000 0x08 ∧ v.length = 1
    ∧ (leVal v = 0 ∨ (0x10 ≤ leVal v ∧ leVal v ≤ 0x13)) :=
  ⟨base .quench, leBytes 1 0, (by unfold calm; decide +kernel), stored_ok (by decide +kernel), by decide +kernel,
    by decide +kernel⟩

theorem test_PowerEntriesChecked_7 : ∃ (s : State) (v : List Byte), calm s.m.dev.st ∧ storedOk s.m 0x3000 0x08 ∧ v.length = 1
    ∧ leVal v ≠ 0 ∧ (leVal v < 0x10 ∨ 0x13 < leVal v) :=
  ⟨base .quench, leBytes 1 0x14, (by unfold calm; decide +kernel), stored_ok (by decide +kernel), by decide +kernel,
    by decide +kernel, by decide +kernel⟩

theorem test_PowerEntriesChecked_7b : ∃ (s : State) (v : List Byte), calm s.m.dev.st ∧ storedOk s.m 0x3000 0x08 ∧ v.length = 1
    ∧ leVal v ≠ 0 ∧ (leVal v < 0x10 ∨ 0x13 < leVal v) :=
  ⟨base .config, leBytes 1 0x0F, (by unfold calm; decide +kernel), stored_ok (by decide +kernel), by decide +kernel,
    by decide +kernel, by decide +kernel⟩

theorem test_PowerEntriesChecked_8 : ∃ (s : State) (v : List Byte), writeState s.m.dev.st = 0 ∧ storedOk s.m 0x3200 0x07 ∧
    v.length = 8 ∧ s.m.dev.st = .config ∧ (dnum s.m 0x5000 0x02 = 0 ∨ dnum s.m 0x5000 0x02 = 0xFFFFFFFF) :=
  ⟨base .config, leBytes 8 99, by decide +kernel, stored_ok (by decide +kernel), by decide +kernel, by decide +kernel,
    by decide +kernel⟩

theorem test_PowerEntriesChecked_9 : ∃ (s : State) (v : List Byte), writeState s.m.dev.st = 0 ∧ storedOk s.m 0x3200 0x07 ∧
    v.length = 8 ∧ (s.m.dev.st ≠ .config ∨ ¬(dnum s.m 0x5000 0x02 = 0 ∨ dnum s.m 0x5000 0x02 = 0xFFFFFFFF)) :=
  ⟨base .ready, leBytes 8 99, by decide +kernel, stored_ok (by decide +kernel), by decide +kernel, by decide +kernel⟩

theorem test_TorusEntriesMovePorts_1 : ∃ (s : State) (v : List Byte), calm s.m.dev.st ∧ storedOk s.m 0x5000 0x05 ∧ v.length =
    1 :=
  ⟨base .config (fun m => withEntry 0x5000 0x04 1 255 (withPort 3 { st := 6 } m)), leBytes 1 8,
    (by unfold calm; decide +kernel), stored_ok (by decide +kernel), by decide +kernel⟩

theorem test_TorusEntriesMovePorts_2 : ∃ (s : State) (v : List Byte), calm s.m.dev.st ∧ storedOk s.m 0x5000 0x02 ∧ v.length =
    4 ∧ coordBad (leVal v) (dnum s.m 0x5000 0x03) = false ∧ s.m.ctxs.list.any loaded = false :=
  ⟨base .config (fun m => withEntry 0x5000 0x03 4 0x01010102 (withPort 0 { st := 6 } m)), leBytes 4 1,
    (by unfold calm; decide +kernel), stored_ok (by decide +kernel), by decide +kernel, by decide +kernel, by decide +kernel⟩

theorem test_TorusEntriesMovePorts_3 : ∃ (s : State) (v : List Byte), calm s.m.dev.st ∧ storedOk s.m 0x5000 0x02 ∧ v.length =
    4 ∧ coordBad (leVal v) (dnum s.m 0x5000 0x03) = false ∧ s.m.ctxs.list.any loaded = true :=
  ⟨base .halt (fun m => withEntry 0x5000 0x03 4 0x01010102 (withCtx 3 { st := .halt } m)), leBytes 4 1,
    (by unfold calm; decide +kernel), stored_ok (by decide +kernel), by decide +kernel, by decide +kernel, by decide +kernel⟩

theorem test_TorusEntriesMovePorts_4 : ∃ (s : State) (v : List Byte), calm s.m.dev.st ∧ storedOk s.m 0x5000 0x03 ∧ v.length =
    4 ∧ (∀ a, a < 4 → 1 ≤ fld (leVal v) (8 * a + 7) (8 * a) ∧ fld (leVal v) (8 * a + 7) (8 * a) ≤ 32) ∧ coordBad (dnum s.m 0x5000
    0x02) (leVal v) = false ∧ s.m.ctxs.list.any loaded = false :=
  ⟨base .config, leBytes 4 0x01010120, (by unfold calm; decide +kernel), stored_ok (by decide +kernel), by decide +kernel,
    by decide +kernel, by decide +kernel, by decide +kernel⟩

theorem test_SubscriptionsAndCounters_1 : ∃ (s : State) (v : List Byte) (k : _), writeState s.m.dev.st = 0 ∧ storedOk s.m
    0x1100 0x0C ∧ v.length = 8 ∧ k < 8 ∧ ((s.m.mgmt.subs).getD k (0, 0)).2 ≠ 0 ∧ ((s.m.mgmt.subs).getD k (0, 0)).1 = (octs v 0 6)
    ∧ (∀ j, j < k → ¬(((s.m.mgmt.subs).getD j (0, 0)).2 ≠ 0 ∧ ((s.m.mgmt.subs).getD j (0, 0)).1 = (octs v 0 6))) :=
  ⟨base .run (fun m => { m with mgmt := { m.mgmt with subs := .fill 8 (7, 1) } }), leBytes 6 7 ++ leBytes 2 0, 0,
    by decide +kernel, stored_ok (by decide +kernel), by decide +kernel, by decide +kernel, by decide +kernel, by decide +kernel,
    by decide +kernel⟩

theorem test_SubscriptionsAndCounters_1b : ∃ (s : State) (v : List Byte) (k : _), writeState s.m.dev.st = 0 ∧ storedOk s.m
    0x1100 0x0C ∧ v.length = 8 ∧ k < 8 ∧ ((s.m.mgmt.subs).getD k (0, 0)).2 ≠ 0 ∧ ((s.m.mgmt.subs).getD k (0, 0)).1 = (octs v 0 6)
    ∧ (∀ j, j < k → ¬(((s.m.mgmt.subs).getD j (0, 0)).2 ≠ 0 ∧ ((s.m.mgmt.subs).getD j (0, 0)).1 = (octs v 0 6))) :=
  ⟨base .run (fun m => { m with mgmt := { m.mgmt with subs := m.mgmt.subs.set 7 (7, 1) } }), leBytes 6 7 ++ leBytes 2 9, 7,
    by decide +kernel, stored_ok (by decide +kernel), by decide +kernel, by decide +kernel, by decide +kernel, by decide +kernel,
    by decide +kernel⟩

theorem test_SubscriptionsAndCounters_2 : ∃ (s : State) (v : List Byte) (k : _), writeState s.m.dev.st = 0 ∧ storedOk s.m
    0x1100 0x0C ∧ v.length = 8 ∧ (∀ j, j < 8 → ¬(((s.m.mgmt.subs).getD j (0, 0)).2 ≠ 0 ∧ ((s.m.mgmt.subs).getD j (0, 0)).1 = (octs
    v 0 6))) ∧ (octs v 6 2) ≠ 0 ∧ k < 8 ∧ ((s.m.mgmt.subs).getD k (0, 0)).2 = 0 ∧ (∀ j, j < k → ((s.m.mgmt.subs).getD j (0, 0)).2
    ≠ 0) :=
  ⟨base .run (fun m => { m with mgmt := { m.mgmt with subs := m.mgmt.subs.set 0 (7, 1) } }), leBytes 6 8 ++ leBytes 2 9, 1,
    by decide +kernel, stored_ok (by decide +kernel), by decide +kernel, by decide +kernel, by decide +kernel, ⟨by decide +kernel,
    by decide +kernel, by decide +kernel⟩⟩

theorem test_SubscriptionsAndCounters_3 : ∃ (s : State) (v : List Byte), writeState s.m.dev.st = 0 ∧ storedOk s.m 0x1100 0x0C
    ∧ v.length = 8 ∧ (∀ j, j < 8 → ¬(((s.m.mgmt.subs).getD j (0, 0)).2 ≠ 0 ∧ ((s.m.mgmt.subs).getD j (0, 0)).1 = (octs v 0 6))) ∧
    (octs v 6 2) ≠ 0 ∧ (∀ k, k < 8 → ((s.m.mgmt.subs).getD k (0, 0)).2 ≠ 0) :=
  ⟨base .run (fun m => { m with mgmt := { m.mgmt with subs := .fill 8 (7, 1) } }), leBytes 6 8 ++ leBytes 2 9,
    by decide +kernel, stored_ok (by decide +kernel), by decide +kernel, by decide +kernel, by decide +kernel, by decide +kernel⟩

theorem test_SubscriptionsAndCounters_4 : ∃ (s : State) (v : List Byte), writeState s.m.dev.st = 0 ∧ storedOk s.m 0x1100 0x14
    ∧ v.length = 1 ∧ leVal v = 0xFF :=
  ⟨base .run (fun m => { m with cnt := [(dkey 0x6000 1, 4), (dkey 0x6F00 1, 5), (dkey 0x7000 1, 6)] }), leBytes 1 255,
    by decide +kernel, stored_ok (by decide +kernel), by decide +kernel, by decide +kernel⟩

theorem test_SubscriptionsAndCounters_5 : ∃ (s : State) (v : List Byte), writeState s.m.dev.st = 0 ∧ storedOk s.m 0x1100 0x14
    ∧ v.length = 1 ∧ 1 ≤ leVal v ∧ leVal v ≤ 15 :=
  ⟨base .run (fun m => { m with cnt := [(dkey 0x6000 1, 4), (dkey 0x6F00 1, 5), (dkey 0x7000 1, 6)] }), leBytes 1 1,
    by decide +kernel, stored_ok (by decide +kernel), by decide +kernel, by decide +kernel, by decide +kernel⟩

theorem test_SubscriptionsAndCounters_5b : ∃ (s : State) (v : List Byte), writeState s.m.dev.st = 0 ∧ storedOk s.m 0x1100 0x14
    ∧ v.length = 1 ∧ 1 ≤ leVal v ∧ leVal v ≤ 15 :=
  ⟨base .run (fun m => { m with cnt := [(dkey 0x6000 1, 4), (dkey 0x6F00 1, 5), (dkey 0x7000 1, 6)] }), leBytes 1 15,
    by decide +kernel, stored_ok (by decide +kernel), by decide +kernel, by decide +kernel, by decide +kernel⟩

set_option maxRecDepth 100000 in
theorem test_ImagesAppliedWhole_1 : ∃ (s : State) (v : List Byte), s.m.dev.st = .config ∧ storedOk s.m 0x1100 0x11 ∧ v.length
    ≤ 65536 ∧ imageBad s v = none :=
  ⟨base .config, noRecords, by decide +kernel, stored_ok (by decide +kernel), by decide +kernel, by decide +kernel⟩

theorem test_ImagesAppliedWhole_2 : ∃ (s : State) (v : List Byte) (k : _) (code : _), s.m.dev.st = .config ∧ storedOk s.m
    0x1100 0x11 ∧ v.length ≤ 65536 ∧ imageBad s v = some (k, code) :=
  ⟨base .config, leBytes 64 0, 0, 0x0E200012, by decide +kernel, stored_ok (by decide +kernel), by decide +kernel,
    by decide +kernel⟩

theorem test_DebugAndBoundaryScanAct_1 : ∃ (s : State), writeState s.m.dev.st = 0 ∧ storedOk s.m 0xA000 0x04 ∧ debugCtx s.m
    (coreAt s.m (dnum s.m 0xA000 0x02)) = true :=
  ⟨base .run (fun m => withEntry 0xA000 0x01 1 1 (withCtx 0 { st := .held, debug := true } (setCore 0 { ctx := 0, dbg := 1 }
    m))), by decide +kernel, stored_ok (by decide +kernel), by decide +kernel⟩

theorem test_DebugAndBoundaryScanAct_2 : ∃ (s : State), writeState s.m.dev.st = 0 ∧ storedOk s.m 0xA000 0x04 ∧ debugCtx s.m
    (coreAt s.m (dnum s.m 0xA000 0x02)) = true ∧ (coreAt s.m (dnum s.m 0xA000 0x02)).dbg ≠ 0 :=
  ⟨base .run (fun m => withEntry 0xA000 0x01 1 1 (withCtx 0 { st := .held, debug := true } (setCore 0 { ctx := 0, dbg := 1 }
    m))), by decide +kernel, stored_ok (by decide +kernel), by decide +kernel, by decide +kernel⟩

theorem test_DebugAndBoundaryScanAct_3 : ∃ (s : State), writeState s.m.dev.st = 0 ∧ storedOk s.m 0xA000 0x04 ∧ debugCtx s.m
    (coreAt s.m (dnum s.m 0xA000 0x02)) = true :=
  ⟨base .run (fun m => withEntry 0xA000 0x01 1 1 (withCtx 0 { st := .held, debug := true } (setCore 0 { ctx := 0, dbg := 1 }
    m))), by decide +kernel, stored_ok (by decide +kernel), by decide +kernel⟩

theorem test_DebugAndBoundaryScanAct_5 : ∃ (s : State), s.m.dev.st ≠ .off :=
  ⟨base .reset, by decide⟩

theorem test_DebugAndBoundaryScanAct_6 : ∃ (s : State), s.m.dev.st ≠ .off :=
  ⟨base .reset, by decide⟩

theorem test_ResetDiscardsAndStrapsRead_1 : ∃ (s : State), s.m.dev.st = .off :=
  ⟨base .off, by decide⟩

theorem test_ResetDiscardsAndStrapsRead_3 : ∃ (s : State), s.m.dev.st ≠ .off :=
  ⟨hosted .fault, by decide⟩

theorem test_ResetDiscardsAndStrapsRead_4 : ∃ (s : State), s.m.dev.st ≠ .off ∧ s.m.dev.st ≠ .reset ∧ s.m.dev.resetDelay = true
    :=
  ⟨base .fault (fun m => { m with dev := { m.dev with resetDelay := true } }), by decide⟩

theorem test_ResetDiscardsAndStrapsRead_5 : ∃ (s : State), s.m.dev.st = .reset ∧ s.m.dev.released = false :=
  ⟨base .reset, by decide⟩

theorem test_StartUpRunsOrFaults_1 : ∃ (s : State) (puf : List Byte), s.m.dev.st = .reset ∧ s.m.dev.released = true ∧
    puf.length = 4064 :=
  ⟨base .reset (fun m => { m with dev := { m.dev with released := true } }), List.replicate 4064 3#8, by decide, by decide,
    List.length_replicate⟩

theorem test_StartUpRunsOrFaults_2 : ∃ (s : State), s.m.dev.st = .selftest :=
  ⟨base .selftest, by decide⟩

theorem test_StartUpRunsOrFaults_3 : ∃ (s : State) (fails : List Nat) (side : List Nat), s.m.dev.st = .selftest ∧ s.m.dev.oclk
    = true ∧ (∀ d, d < 16 → popcount 19 (fails.getD d 0 % 2 ^ 19) < 2) ∧ (∀ d ∈ side, d < 16 ∨ 32 ≤ d) :=
  ⟨base .selftest (fun m => { m with dev := { m.dev with oclk := true } }), [2 ^ 18, 1], [], by decide⟩

theorem test_StartUpRunsOrFaults_4 : ∃ (s : State) (failed : List Nat), s.m.dev.st = .train ∧ s.m.dev.hbmOk = false ∧ (∀ k ∈
    failed, 32 ≤ k) :=
  ⟨base .train, [], by decide⟩

theorem test_StartUpRunsOrFaults_5 : ∃ (s : State), s.m.dev.st = .train ∧ s.m.dev.hbmOk = true ∧ s.m.dev.zeroed = false :=
  ⟨base .train (fun m => { m with dev := { m.dev with hbmOk := true } }), by decide⟩

theorem test_StartUpRunsOrFaults_6 : ∃ (s : State), s.m.dev.st = .train ∧ s.m.dev.opticalStep = true :=
  ⟨base .train (fun m => { m with dev := { m.dev with opticalStep := true } }), by decide⟩

theorem test_StartUpRunsOrFaults_7 : ∃ (s : State), s.m.dev.st = .train ∧ s.m.dev.stepSix = true :=
  ⟨base .train (fun m => { m with dev := { m.dev with stepSix := true } }), by decide⟩

theorem test_StartUpRunsOrFaults_8 : ∃ (s : State) (die : Nat), s.m.dev.st = .selftest ∧ s.m.dev.oclk = false ∧ die < 32 :=
  ⟨base .selftest, 31, by decide⟩

theorem test_StartUpRunsOrFaults_9 : ∃ (s : State) (fails : List Nat) (d : Nat), s.m.dev.st = .selftest ∧ s.m.dev.oclk = true
    ∧ d < 16 ∧ 2 ≤ popcount 19 (fails.getD d 0 % 2 ^ 19) ∧ (∀ j, j < d → popcount 19 (fails.getD j 0 % 2 ^ 19) < 2) :=
  ⟨base .selftest (fun m => { m with dev := { m.dev with oclk := true } }), List.replicate 15 0 ++ [3], 15, by decide⟩

theorem test_StartUpRunsOrFaults_10 : ∃ (s : State) (fails : List Nat) (d : Nat), s.m.dev.st = .selftest ∧ s.m.dev.oclk = true
    ∧ 16 ≤ d ∧ d < 32 ∧ (∀ j, j < 16 → popcount 19 (fails.getD j 0 % 2 ^ 19) < 2) :=
  ⟨base .selftest (fun m => { m with dev := { m.dev with oclk := true } }), [], 31, by decide⟩

theorem test_StartUpRunsOrFaults_11 : ∃ (s : State) (k : Nat), s.m.dev.st = .train ∧ s.m.dev.hbmOk = false ∧ k < 32 :=
  ⟨base .train, 31, by decide⟩

theorem test_StartUpRunsOrFaults_11b : ∃ (s : State) (k : Nat), s.m.dev.st = .train ∧ s.m.dev.hbmOk = false ∧ k < 32 :=
  ⟨base .train, 0, by decide⟩

theorem test_FirmwareVerified_1 : ∃ (s : State) (w : FwImage) (rest : List FwImage), s.m.dev.st = .preboot ∧ s.boot.fwAccepted
    = false ∧ s.boot.waiting = w :: rest :=
  ⟨{ base .preboot with boot := { waiting := [⟨[1#8], 0, none⟩] } }, (⟨[1#8], 0, none⟩ : FwImage), [], by decide⟩

theorem test_IdentityAndDeliveries_1 : ∃ (s : State), s.m.dev.st = .preboot ∧ s.boot.fwAccepted = true :=
  ⟨{ base .preboot with boot := { fwAccepted := true } }, by decide⟩

theorem test_IdentityAndDeliveries_2 : ∃ (s : State) (v : List Byte), (s.m.dev.st = .selftest ∨ s.m.dev.st = .train ∨
    s.m.dev.st = .preboot) ∧ storedOk s.m 0x1200 0x10 ∧ v.length ≤ 8388864 ∧ s.boot.fwAccepted = false :=
  ⟨base .selftest, [1#8], by decide +kernel, stored_ok (by decide +kernel), by decide +kernel, by decide +kernel⟩

theorem test_IdentityAndDeliveries_2b : ∃ (s : State) (v : List Byte), (s.m.dev.st = .selftest ∨ s.m.dev.st = .train ∨
    s.m.dev.st = .preboot) ∧ storedOk s.m 0x1200 0x10 ∧ v.length ≤ 8388864 ∧ s.boot.fwAccepted = false :=
  ⟨base .preboot, [1#8], by decide +kernel, stored_ok (by decide +kernel), by decide +kernel, by decide +kernel⟩

theorem test_IdentityAndDeliveries_3 : ∃ (s : State) (v : List Byte), (s.m.dev.st = .selftest ∨ s.m.dev.st = .train ∨
    s.m.dev.st = .preboot) ∧ storedOk s.m 0x1200 0x10 ∧ v.length ≤ 8388864 ∧ s.boot.fwAccepted = true :=
  ⟨{ base .preboot with boot := { fwAccepted := true } }, [1#8], by decide +kernel, stored_ok (by decide +kernel),
    by decide +kernel, by decide +kernel⟩

theorem test_IdentityAndDeliveries_4 : ∃ (s : State) (v : List Byte), s.m.dev.st = .preboot ∧ storedOk s.m 0x1200 0x11 ∧
    v.length = 4096 :=
  ⟨base .preboot, List.replicate 4096 1#8, by decide +kernel, stored_ok (by decide +kernel), List.length_replicate⟩

theorem test_IdentityAndDeliveries_5 : ∃ (s : State) (v : List Byte), writeState s.m.dev.st = 0 ∧ storedOk s.m 0x7000 0x10 ∧
    v.length = 32 ∧ (s.boot.identityStatus = 1 ∨ s.boot.identityStatus = 2) :=
  ⟨{ base .run with boot := { identityStatus := 2 } }, leBytes 32 7, by decide +kernel, stored_ok (by decide +kernel),
    by decide +kernel, by decide +kernel⟩

theorem test_IdentityAndDeliveries_6 : ∃ (s : State) (v : List Byte), writeState s.m.dev.st = 0 ∧ storedOk s.m 0x7000 0x10 ∧
    v.length = 32 ∧ s.boot.identityStatus ≠ 1 ∧ s.boot.identityStatus ≠ 2 :=
  ⟨{ base .run with boot := { identityStatus := 3 } }, leBytes 32 7, by decide +kernel, stored_ok (by decide +kernel),
    by decide +kernel, by decide +kernel, by decide +kernel⟩

theorem test_KeyHashWrittenOnce_1 : ∃ (s : State) (v : List Byte), calm s.m.dev.st ∧ storedOk s.m 0x7000 0x20 ∧ v.length = 32
    ∧ s.boot.keyLocked = false :=
  ⟨base .config, leBytes 32 7, (by unfold calm; decide +kernel), stored_ok (by decide +kernel), by decide +kernel,
    by decide +kernel⟩

theorem test_KeyHashWrittenOnce_2 : ∃ (s : State) (v : List Byte), calm s.m.dev.st ∧ storedOk s.m 0x7000 0x20 ∧ v.length = 32
    ∧ s.boot.keyLocked = true :=
  ⟨{ base .halt with boot := { keyLocked := true } }, leBytes 32 7, (by unfold calm; decide +kernel),
    stored_ok (by decide +kernel), by decide +kernel, by decide +kernel⟩

set_option maxRecDepth 100000 in
theorem test_ChallengesAreFresh_1 : ∃ (s : State), readAccess s.m.dev.st 0x7000 0x21 = 0 :=
  ⟨base .run, by decide +kernel⟩

theorem test_TokensGrantDebug_1 : (writeState owned.m.dev.st = 0 ∧ storedOk owned.m 0x7000 0x22 ∧ ownerToken.length = 224 ∧
    ∃ k, tokenKind owned.boot ownerToken = some k) :=
  ⟨by decide, stored_ok (by decide +kernel), by decide +kernel, test_TokensGrantDebug_3⟩

theorem test_TokensGrantDebug_2 : ∃ (s : State) (v : List Byte), writeState s.m.dev.st = 0 ∧ storedOk s.m 0x7000 0x22 ∧
    v.length = 224 ∧ tokenKind s.boot v = none :=
  ⟨base .run, leBytes 224 0, by decide +kernel, stored_ok (by decide +kernel), by decide +kernel, by decide +kernel⟩

theorem test_TokensGrantDebug_4 : ∃ (s : State), calm s.m.dev.st ∧ storedOk s.m 0xA000 0x01 ∧ s.boot.keyKind ≠ 0 :=
  ⟨{ base .config with boot := { keyKind := 1 } }, (by unfold calm; decide +kernel), stored_ok (by decide +kernel),
    by decide +kernel⟩

theorem test_TokensGrantDebug_5 : ∃ (s : State), calm s.m.dev.st ∧ storedOk s.m 0xA000 0x01 ∧ s.boot.keyKind = 0 :=
  ⟨base .halt, (by unfold calm; decide +kernel), stored_ok (by decide +kernel), by decide +kernel⟩

theorem test_TokensGrantDebug_6 : ∃ (s : State), calm s.m.dev.st ∧ storedOk s.m 0xA000 0x01 :=
  ⟨base .quench, (by unfold calm; decide +kernel), stored_ok (by decide +kernel)⟩

theorem test_StateCommandsActOrRefuse_1 : ∃ (s : State), writeState s.m.dev.st = 0 :=
  ⟨base .run, by decide⟩

theorem test_StateCommandsActOrRefuse_2 : ∃ (s : State), (s.m.dev.st = .ready ∨ s.m.dev.st = .halt) ∧ s.m.ctxs.list.any loaded
    = false :=
  ⟨base .halt, by decide⟩

theorem test_StateCommandsActOrRefuse_2b : ∃ (s : State), (s.m.dev.st = .ready ∨ s.m.dev.st = .halt) ∧ s.m.ctxs.list.any
    loaded = false :=
  ⟨base .ready, by decide⟩

theorem test_StateCommandsActOrRefuse_3 : ∃ (s : State), (s.m.dev.st = .config ∨ (s.m.dev.st = .halt ∧ s.m.ctxs.list.all (fun
    c => c.st != .halt) = true)) :=
  ⟨base .config, by decide⟩

theorem test_StateCommandsActOrRefuse_4 : ∃ (s : State), (s.m.dev.st = .ready ∨ s.m.dev.st = .quench) :=
  ⟨base .quench (withCtx 15 { st := .held, grant := 3 }), by decide⟩

theorem test_StateCommandsActOrRefuse_4b : ∃ (s : State), (s.m.dev.st = .ready ∨ s.m.dev.st = .quench) :=
  ⟨base .ready, by decide⟩

theorem test_StateCommandsActOrRefuse_5 : ∃ (s : State), (s.m.dev.st = .ready ∨ s.m.dev.st = .quench) ∧ (∀ i, i < 16 → (ctxAt
    s.m i).st ≠ .run ∧ (ctxAt s.m i).grant = 0 ∧ (ctxAt s.m i).repairs = []) :=
  ⟨base .quench (withCtx 15 { st := .held }), by decide⟩

theorem test_StateCommandsActOrRefuse_6 : ∃ (s : State), s.m.dev.st = .run :=
  ⟨base .run (fun m => withCtx 0 { st := .idle } (withCtx 15 { st := .run } m)), by decide⟩

theorem test_StateCommandsActOrRefuse_6b : ∃ (s : State), s.m.dev.st = .run :=
  ⟨base .run (fun m => withCtx 0 { st := .idle } m), by decide⟩

theorem test_StateCommandsActOrRefuse_7 : ∃ (s : State), (s.m.dev.st = .ready ∨ s.m.dev.st = .run ∨ s.m.dev.st = .quench) :=
  ⟨base .run (fun m => withCtx 0 { st := .idle } (withCtx 15 { st := .run } m)), by decide⟩

theorem test_StateCommandsActOrRefuse_8 : ∃ (s : State), (s.m.dev.st = .config ∨ s.m.dev.st = .run ∨ s.m.dev.st = .quench ∨
    ((s.m.dev.st = .ready ∨ s.m.dev.st = .halt) ∧ s.m.ctxs.list.any loaded = true)) :=
  ⟨base .config, by decide⟩

theorem test_StateCommandsActOrRefuse_8b : ∃ (s : State), (s.m.dev.st = .config ∨ s.m.dev.st = .run ∨ s.m.dev.st = .quench ∨
    ((s.m.dev.st = .ready ∨ s.m.dev.st = .halt) ∧ s.m.ctxs.list.any loaded = true)) :=
  ⟨base .run, by decide⟩

theorem test_StateCommandsActOrRefuse_8c : ∃ (s : State), (s.m.dev.st = .config ∨ s.m.dev.st = .run ∨ s.m.dev.st = .quench ∨
    ((s.m.dev.st = .ready ∨ s.m.dev.st = .halt) ∧ s.m.ctxs.list.any loaded = true)) :=
  ⟨base .quench, by decide⟩

theorem test_StateCommandsActOrRefuse_9 : ∃ (s : State), (s.m.dev.st = .ready ∨ s.m.dev.st = .run ∨ s.m.dev.st = .quench ∨
    (s.m.dev.st = .halt ∧ s.m.ctxs.list.any (fun c => c.st == .halt) = true)) :=
  ⟨base .ready, by decide⟩

theorem test_StateCommandsActOrRefuse_9b : ∃ (s : State), (s.m.dev.st = .ready ∨ s.m.dev.st = .run ∨ s.m.dev.st = .quench ∨
    (s.m.dev.st = .halt ∧ s.m.ctxs.list.any (fun c => c.st == .halt) = true)) :=
  ⟨base .run, by decide⟩

theorem test_StateCommandsActOrRefuse_9c : ∃ (s : State), (s.m.dev.st = .ready ∨ s.m.dev.st = .run ∨ s.m.dev.st = .quench ∨
    (s.m.dev.st = .halt ∧ s.m.ctxs.list.any (fun c => c.st == .halt) = true)) :=
  ⟨base .quench, by decide⟩

theorem test_StateCommandsActOrRefuse_10 : ∃ (s : State), (s.m.dev.st = .config ∨ s.m.dev.st = .run ∨ s.m.dev.st = .halt) :=
  ⟨base .config, by decide⟩

theorem test_StateCommandsActOrRefuse_10b : ∃ (s : State), (s.m.dev.st = .config ∨ s.m.dev.st = .run ∨ s.m.dev.st = .halt) :=
  ⟨base .run, by decide⟩

theorem test_StateCommandsActOrRefuse_10c : ∃ (s : State), (s.m.dev.st = .config ∨ s.m.dev.st = .run ∨ s.m.dev.st = .halt) :=
  ⟨base .halt, by decide⟩

theorem test_StateCommandsActOrRefuse_11 : ∃ (s : State), (s.m.dev.st = .config ∨ s.m.dev.st = .ready ∨ s.m.dev.st = .quench ∨
    s.m.dev.st = .halt) :=
  ⟨base .config, by decide⟩

theorem test_StateCommandsActOrRefuse_11b : ∃ (s : State), (s.m.dev.st = .config ∨ s.m.dev.st = .ready ∨ s.m.dev.st = .quench
    ∨ s.m.dev.st = .halt) :=
  ⟨base .ready, by decide⟩

theorem test_StateCommandsActOrRefuse_11c : ∃ (s : State), (s.m.dev.st = .config ∨ s.m.dev.st = .ready ∨ s.m.dev.st = .quench
    ∨ s.m.dev.st = .halt) :=
  ⟨base .quench, by decide⟩

theorem test_StateCommandsActOrRefuse_11d : ∃ (s : State), (s.m.dev.st = .config ∨ s.m.dev.st = .ready ∨ s.m.dev.st = .quench
    ∨ s.m.dev.st = .halt) :=
  ⟨base .halt, by decide⟩

theorem test_StateCommandsActOrRefuse_12 : ∃ (s : State), (s.m.dev.st = .config ∨ s.m.dev.st = .halt) :=
  ⟨base .config, by decide⟩

theorem test_StateCommandsActOrRefuse_12b : ∃ (s : State), (s.m.dev.st = .config ∨ s.m.dev.st = .halt) :=
  ⟨base .halt, by decide⟩

theorem test_StateCommandsActOrRefuse_13 : ∃ (s : State) (w : Nat) (c : _), serverRuns s.m.dev.st = true ∧ writeState
    s.m.dev.st ≠ 0 ∧ c ∈ [Instr.stateReset, .stateConfig, .stateReady w, .stateRun, .stateQuench, .stateHalt] :=
  ⟨base .fault, 7, .stateReset, by decide⟩

theorem test_BundleIssuesOrWaits_1 : ∃ (s : State) (k : Nat) (w : Nat), betweenBundles s.m k ∧ scalarOnly (coreAt s.m k) w ∧
    guardOn (coreAt s.m k).p w = true ∧ 1 ≤ swOp w ∧ swOp w ≤ 0x0B ∧ fld w 6 0 = 0 :=
  ⟨inStep (withCore 4607 ((2 ^ 22 + 3 * 2 ^ 17 + 1 * 2 ^ 12 + 2 * 2 ^ 7) * 2 ^ 96) (fun c =>
    { c with s := c.s.set 1 (2 ^ 32 - 1) |>.set 2 3 })), 4607, 2 ^ 22 + 3 * 2 ^ 17 + 1 * 2 ^ 12 + 2 * 2 ^ 7,
    (by unfold betweenBundles; decide), (by unfold scalarOnly; decide), by decide, by decide, by decide, by decide⟩

theorem test_BundleIssuesOrWaits_1b : ∃ (s : State) (k : Nat) (w : Nat), betweenBundles s.m k ∧ scalarOnly (coreAt s.m k) w ∧
    guardOn (coreAt s.m k).p w = true ∧ 1 ≤ swOp w ∧ swOp w ≤ 0x0B ∧ fld w 6 0 = 0 :=
  ⟨inStep (withCore 0 ((0x0B * 2 ^ 22 + 31 * 2 ^ 17) * 2 ^ 96)), 0, 0x0B * 2 ^ 22 + 31 * 2 ^ 17,
    (by unfold betweenBundles; decide), (by unfold scalarOnly; decide), by decide, by decide, by decide, by decide⟩

theorem test_BundleIssuesOrWaits_2 : ∃ (s : State) (k : Nat) (w : Nat), betweenBundles s.m k ∧ scalarOnly (coreAt s.m k) w ∧
    guardOn (coreAt s.m k).p w = true ∧ swOp w = 0x10 :=
  ⟨inStep (withCore 0 ((0x10 * 2 ^ 22 + 5 * 2 ^ 17 + 0xFFF) * 2 ^ 96)), 0, 0x10 * 2 ^ 22 + 5 * 2 ^ 17 + 0xFFF,
    (by unfold betweenBundles; decide), (by unfold scalarOnly; decide), by decide, by decide⟩

theorem test_BundleIssuesOrWaits_3 : ∃ (s : State) (k : Nat) (w : Nat), betweenBundles s.m k ∧ scalarOnly (coreAt s.m k) w ∧
    guardOn (coreAt s.m k).p w = true ∧ swOp w = 0x30 ∧ fld w 2 0 = 0 :=
  ⟨inStep (withCore 0 ((0x30 * 2 ^ 22 + 77 * 2 ^ 11) * 2 ^ 96)), 0, 0x30 * 2 ^ 22 + 77 * 2 ^ 11,
    (by unfold betweenBundles; decide), (by unfold scalarOnly; decide), by decide, by decide, by decide⟩

theorem test_BundleIssuesOrWaits_4 : ∃ (s : State) (k : Nat) (w : Nat), betweenBundles s.m k ∧ scalarOnly (coreAt s.m k) w ∧
    guardOn (coreAt s.m k).p w = false :=
  ⟨inStep (withCore 0 ((2 ^ 31 + 2 ^ 22 + 3 * 2 ^ 17 + 1 * 2 ^ 12 + 2 * 2 ^ 7) * 2 ^ 96)), 0, 2 ^ 31 + 2 ^ 22 + 3 * 2 ^ 17 + 1 *
    2 ^ 12 + 2 * 2 ^ 7, (by unfold betweenBundles; decide), (by unfold scalarOnly; decide), by decide⟩

theorem test_BundleIssuesOrWaits_5 : ∃ (s : State) (k : Nat), betweenBundles s.m k ∧ holdBits (modCore k dropLoops s.m) k
    (coreAt s.m k) (nextBundle (coreAt s.m k)) ≠ 0 :=
  ⟨inStep (withCore 0 (8 * 2 ^ 22) (setRing 0 { desc := (ringFor 3) })), 0, (by unfold betweenBundles; decide), by decide⟩

theorem test_BundleIssuesOrWaits_6 : ∃ (s : State) (k : Nat), s.m.cores.has k = true ∧ issues s.m (coreAt s.m k) = true ∧ gate
    s.m k ≠ 0 ∧ (coreAt s.m k).dbgOps = [] :=
  ⟨inStep (fun m => withCore 0 0 id (onPwr (fun p => { p with dies := p.dies.set 0 { switching := true } }) m)), 0, by decide⟩

theorem test_BundleIssuesOrWaits_6b : ∃ (s : State) (k : Nat), s.m.cores.has k = true ∧ issues s.m (coreAt s.m k) = true ∧
    gate s.m k ≠ 0 ∧ (coreAt s.m k).dbgOps = [] :=
  ⟨inStep (fun m => withCore 0 0 (fun c => { c with aclk := 63 }) (onPwr (fun p =>
    { p with dies := p.dies.set 0 { duty := 63 } }) m)), 0, by decide⟩

theorem test_BundleIssuesOrWaits_7 : ∃ (s : State) (k : Nat), s.m.cores.has k = true :=
  ⟨inStep (withCore 0 0 (fun c => { c with loops := [⟨0, 1, 0⟩] })), 0, by decide⟩

theorem test_ArrayOperationsAndDrainsComplete_1 : ∃ (s : State) (k : Nat) (arr : Nat) (bank : Nat), arr < 2 ∧ bank < 2 ∧
    (bankAt (coreAt s.m k) (bankIx arr bank)).loading = true ∧ (bankAt (coreAt s.m k) (bankIx arr bank)).plan = [] ∧ (bankAt
    (coreAt s.m k) (bankIx arr bank)).ready ≤ (coreAt s.m k).aclk :=
  ⟨inStep (withCore 0 0 (setBank 3 { loading := true })), 0, 1, 1, by decide⟩

theorem test_ArrayOperationsAndDrainsComplete_2 : ∃ (s : State) (k : Nat) (arr : Nat) (o : MxOp), o ∈ (coreAt s.m k).ops ∧
    o.arr = arr ∧ o.plan = [] ∧ o.retire < (coreAt s.m k).aclk ∧ (∀ x ∈ (coreAt s.m k).ops, x.arr = arr → x.plan = [] → x ≠ o →
    o.retire < x.retire) :=
  ⟨inStep (withCore 0 0 (fun c =>
    { c with aclk := 5, ops := [({ op := 2, arr := 1, bank := 0, tile := 3, row0 := 0, m := 1, cfg := 0, src := 0, stride := 0, scale := 0, start := 0, plan := [], res := [(0, 4, [7, 2 ^ 32 + 1])], retire := 4 } : MxOp)] })),
    0, 1,
    ({ op := 2, arr := 1, bank := 0, tile := 3, row0 := 0, m := 1, cfg := 0, src := 0, stride := 0, scale := 0, start := 0, plan := [], res := [(0, 4, [7, 2 ^ 32 + 1])], retire := 4 }
    : MxOp), by decide⟩

theorem test_ArrayOperationsAndDrainsComplete_3 : ∃ (s : State) (k : Nat) (o : MvOp), o ∈ (coreAt s.m k).mvs ∧ o.loads = [] ∧
    o.plan = [] ∧ o.retire < (coreAt s.m k).aclk ∧ (∀ x ∈ (coreAt s.m k).mvs, x.loads = [] → x.plan = [] → x ≠ o → o.retire <
    x.retire) ∧ (cCompact o.cfg = true → stepPairOk (ctxAt s.m (coreAt s.m k).ctx) = true) :=
  ⟨inStep (withCore 0 0 (fun c =>
    { c with aclk := 5, mvs := [({ arr := 0, tile := 0, row0 := 0, m := 1, k := 32, cfg := 0, acc := false, tr := false, vsrc := 0, vstride := 0, vscale := 0, msrc := 0, mstride := 0, mscale := 0, start := 0, plan := [], retire := 4 } : MvOp)] })),
    0,
    ({ arr := 0, tile := 0, row0 := 0, m := 1, k := 32, cfg := 0, acc := false, tr := false, vsrc := 0, vstride := 0, vscale := 0, msrc := 0, mstride := 0, mscale := 0, start := 0, plan := [], retire := 4 }
    : MvOp), by decide⟩

theorem test_ArrayOperationsAndDrainsComplete_4 : ∃ (s : State) (k : Nat) (d : Drain) (r : List Drain), stepPairOk (ctxAt s.m
    (coreAt s.m k).ctx) = true ∧ readDrains s.m k = d :: r ∧ d.dest ≠ 1 ∧ eRingEn d.epi = false :=
  ⟨inStep (withCore 0 0 (fun c =>
    { c with drains := [({ arr := 0, tile := 0, compact := false, dest := 0, fmt := 0, rnd := 0, epi := 0, regs := [5, 0], left := 0 } : Drain)] })),
    0, ({ arr := 0, tile := 0, compact := false, dest := 0, fmt := 0, rnd := 0, epi := 0, regs := [5, 0], left := 0 } : Drain),
    [], by decide⟩

theorem test_ArrayOperationsAndDrainsComplete_4b : ∃ (s : State) (k : Nat) (d : Drain) (r : List Drain), stepPairOk (ctxAt s.m
    (coreAt s.m k).ctx) = true ∧ readDrains s.m k = d :: r ∧ d.dest ≠ 1 ∧ eRingEn d.epi = false :=
  ⟨inStep (withCore 0 0 (fun c =>
    { c with drains := [({ arr := 0, tile := 0, compact := false, dest := 2, fmt := 0, rnd := 0, epi := 0, regs := [5, 0], left := 0 } : Drain)] })),
    0, ({ arr := 0, tile := 0, compact := false, dest := 2, fmt := 0, rnd := 0, epi := 0, regs := [5, 0], left := 0 } : Drain),
    [], by decide⟩

theorem test_ArrayOperationsAndDrainsComplete_5 : ∃ (s : State) (k : Nat) (d : Drain) (r : List Drain), stepPairOk (ctxAt s.m
    (coreAt s.m k).ctx) = true ∧ readDrains s.m k = d :: r ∧ d.dest ≠ 1 ∧ eRingEn d.epi = true ∧ ringTakes (.drain k d.arr)
    (ringAt (coreAt s.m k) (eRing d.epi)) :=
  ⟨inStep (withCore 0 0 (fun c => setRing 0 { desc := (ringFor 3) }
    { c with drains := [({ arr := 0, tile := 0, compact := false, dest := 0, fmt := 0, rnd := 0, epi := 2 ^ 11, regs := [5, 0], left := 0 } : Drain)] })),
    0, ({ arr := 0, tile := 0, compact := false, dest := 0, fmt := 0, rnd := 0, epi := 2 ^ 11, regs := [5, 0], left := 0 } :
    Drain), [], by decide, by decide, by decide, by decide, (by unfold ringTakes; decide)⟩

set_option maxRecDepth 100000 in
theorem test_ArrayOperationsAndDrainsComplete_6 : ∃ (s : State) (k : Nat) (d : Drain) (r : List Drain) (m1 : Mach), stepPairOk
    (ctxAt s.m (coreAt s.m k).ctx) = true ∧ readDrains s.m k = d :: r ∧ d.dest = 1 ∧ deliverTile k d s.m = some m1 :=
  ⟨inStep (withCore 0 0 (fun c =>
    { c with drains := [({ arr := 0, tile := 0, compact := false, dest := 1, fmt := 0, rnd := 0, epi := 0, regs := [5, 0], left := 0 } : Drain)] })),
    0, ({ arr := 0, tile := 0, compact := false, dest := 1, fmt := 0, rnd := 0, epi := 0, regs := [5, 0], left := 0 } : Drain),
    [], (deliverTile 0
    ({ arr := 0, tile := 0, compact := false, dest := 1, fmt := 0, rnd := 0, epi := 0, regs := [5, 0], left := 0 } : Drain)
    (inStep (withCore 0 0 (fun c =>
    { c with drains := [({ arr := 0, tile := 0, compact := false, dest := 1, fmt := 0, rnd := 0, epi := 0, regs := [5, 0], left := 0 } : Drain)] }))).m).getD
    {}, by decide +kernel⟩

set_option maxRecDepth 100000 in
theorem test_ArrayOperationsAndDrainsComplete_7 : ∃ (s : State) (k : Nat) (d : Drain), stepPairOk (ctxAt s.m (coreAt s.m
    k).ctx) = true ∧ readDrains s.m k = [d] ∧ d.dest = 1 ∧ deliverTile k d s.m = none :=
  ⟨base .run (fun m => withCore 0 0 (fun c =>
    { c with drains := [({ arr := 0, tile := 0, compact := false, dest := 1, fmt := 0, rnd := 0, epi := 0, regs := [1, 0], left := 0 } : Drain)] })
    (withCtx 0
    { running with gey := { buckets := List.replicate 64 { desc := mkPair 256 (64 * 2 ^ 198) } ++ [{ desc := mkPair 256 (2 ^ 232 + 1024 * 2 ^ 198) }] } }
    m)), 0, ({ arr := 0, tile := 0, compact := false, dest := 1, fmt := 0, rnd := 0, epi := 0, regs := [1, 0], left := 0 } :
    Drain), by decide +kernel⟩

set_option maxRecDepth 100000 in
theorem test_ArrayOperationsAndDrainsComplete_8 : ∃ (m : Mach) (k : Nat), queueWaits m k ≠ 0 :=
  ⟨(base .run (fun m => withCore 0 0 (fun c =>
    { c with drains := [({ arr := 0, tile := 0, compact := false, dest := 1, fmt := 0, rnd := 0, epi := 0, regs := [1, 0], left := 0 } : Drain)] })
    (withCtx 0
    { running with gey := { buckets := List.replicate 64 { desc := mkPair 256 (64 * 2 ^ 198) } ++ [{ desc := mkPair 256 (2 ^ 232 + 1024 * 2 ^ 198) }] } }
    m))).m, 0, by decide +kernel⟩

set_option maxRecDepth 100000 in
theorem test_ArrayOperationsAndDrainsComplete_9 : ∃ (s : State) (k : Nat), stepPairOk (ctxAt s.m (coreAt s.m k).ctx) = false ∧
    (ctxAt s.m (coreAt s.m k).ctx).st = .run ∧ (coreAt s.m k).ctx < 16 :=
  ⟨base .run (fun m => withCore 0 0 id (withCtx 0 { running with stepC := 4 } m)), 0, by decide +kernel⟩

set_option maxRecDepth 100000 in
theorem test_TransfersMoveOctets_1 : ∃ (s : State) (k : Nat) (dir : Nat) (len : Nat) (addr : Nat) (off : Nat) (ring : Nat) (pc
    : Nat) (got : List (Nat × List Byte)) (rest : List TCmd), issues s.m (coreAt s.m k) = true ∧ posting s.m (.te k) = false ∧
    (coreAt s.m k).par = [] ∧ s.m.mem.stagingBad = [] ∧ takeXfer (coreAt s.m k).queue = some (.xfer dir len addr off ring pc 0
    got, rest) ∧ ringTakes (.te k) (ringAt (coreAt s.m k) ring) ∧ dir = 0 ∧ readCheck s.m.mem addr len = 0 :=
  ⟨inStep (fun m => withCore 0 0 (fun c => setRing 1 { desc := ringFor 5 }
    { c with queue := [.xfer 0 64 (2 ^ 21) 128 1 0 0 [], .stream 3 0], opc := [(128, 1#8), (129, 2#8)] }) (withObj 5 5 0 m)), 0,
    0, 64, 2 ^ 21, 128, 1, 0, [], [.stream 3 0], by decide +kernel, by decide +kernel, by decide +kernel, ⟨by decide +kernel,
    by decide +kernel, (by unfold ringTakes; decide +kernel), by decide +kernel, by decide +kernel⟩⟩

set_option maxRecDepth 100000 in
theorem test_TransfersMoveOctets_2 : ∃ (s : State) (k : Nat) (dir : Nat) (len : Nat) (addr : Nat) (off : Nat) (ring : Nat) (pc
    : Nat) (got : List (Nat × List Byte)) (rest : List TCmd) (v : _), issues s.m (coreAt s.m k) = true ∧ posting s.m (.te k) =
    false ∧ (coreAt s.m k).par = [] ∧ s.m.mem.stagingBad = [] ∧ takeXfer (coreAt s.m k).queue = some (.xfer dir len addr off ring
    pc 0 got, rest) ∧ ringTakes (.te k) (ringAt (coreAt s.m k) ring) ∧ dir = 1 ∧ objHolding s.m.mem addr (clipTo 262144 off
    (opcGet (coreAt s.m k) off len)).length = some v ∧ readCheck s.m.mem addr (clipTo 262144 off (opcGet (coreAt s.m k) off
    len)).length = 0 ∧ oClass v < 2 ∧ oCtx v = (coreAt s.m k).ctx ∧ oShared v = false ∧ (coreAt s.m k).ctx < 16 :=
  ⟨inStep (fun m => withCore 0 0 (fun c => setRing 1 { desc := ringFor 5 }
    { c with queue := [.xfer 1 64 (2 ^ 21) 128 1 0 0 [], .stream 3 0], opc := [(128, 1#8), (129, 2#8)] }) (withObj 0 5 0 m)), 0,
    1, 64, 2 ^ 21, 128, 1, 0, [], [.stream 3 0], objDesc 0 5 0, by decide +kernel, by decide +kernel, by decide +kernel,
    ⟨by decide +kernel, by decide +kernel, (by unfold ringTakes; decide +kernel), by decide +kernel, by decide +kernel,
    by decide +kernel, ⟨by decide +kernel, by decide +kernel, by decide +kernel, by decide +kernel⟩⟩⟩

set_option maxRecDepth 100000 in
theorem test_TransfersMoveOctets_3 : ∃ (s : State) (k : Nat) (dir : Nat) (len : Nat) (addr : Nat) (off : Nat) (ring : Nat) (pc
    : Nat) (got : List (Nat × List Byte)) (rest : List TCmd) (v : _), issues s.m (coreAt s.m k) = true ∧ posting s.m (.te k) =
    false ∧ (coreAt s.m k).par = [] ∧ s.m.mem.stagingBad = [] ∧ takeXfer (coreAt s.m k).queue = some (.xfer dir len addr off ring
    pc 0 got, rest) ∧ ringTakes (.te k) (ringAt (coreAt s.m k) ring) ∧ dir = 1 ∧ objHolding s.m.mem addr (clipTo 262144 off
    (opcGet (coreAt s.m k) off len)).length = some v ∧ writeCheck s.m.mem (coreAt s.m k).ctx addr (clipTo 262144 off (opcGet
    (coreAt s.m k) off len)).length = 0 ∧ 2 < oClass v :=
  ⟨inStep (fun m => withCore 0 0 (fun c => setRing 1 { desc := ringFor 5 }
    { c with queue := [.xfer 1 64 (2 ^ 22 - 64) 128 1 0 0 [], .stream 3 0], opc := [(128, 1#8), (129, 2#8)] }) (withObj 5 5 0 m)),
    0, 1, 64, 2 ^ 22 - 64, 128, 1, 0, [], [.stream 3 0], objDesc 5 5 0, by decide +kernel, by decide +kernel, by decide +kernel,
    ⟨by decide +kernel, by decide +kernel, (by unfold ringTakes; decide +kernel), by decide +kernel, by decide +kernel,
    by decide +kernel, by decide +kernel⟩⟩

set_option maxRecDepth 100000 in
theorem test_TransfersMoveOctets_4 : ∃ (s : State) (k : Nat) (dir : Nat) (len : Nat) (addr : Nat) (off : Nat) (ring : Nat) (pc
    : Nat) (got : List (Nat × List Byte)) (rest : List TCmd), issues s.m (coreAt s.m k) = true ∧ posting s.m (.te k) = false ∧
    (coreAt s.m k).par = [] ∧ s.m.mem.stagingBad = [] ∧ takeXfer (coreAt s.m k).queue = some (.xfer dir len addr off ring pc 0
    got, rest) ∧ ringTakes (.te k) (ringAt (coreAt s.m k) ring) ∧ dir = 1 ∧ objHolding s.m.mem addr (clipTo 262144 off (opcGet
    (coreAt s.m k) off len)).length = none ∧ writeCheck s.m.mem (coreAt s.m k).ctx addr (clipTo 262144 off (opcGet (coreAt s.m k)
    off len)).length = 0 :=
  ⟨inStep (fun m => withCore 0 0 (fun c => setRing 1 { desc := ringFor 5 }
    { c with queue := [.xfer 1 128 (2 ^ 22 - 64) 128 1 0 0 [], .stream 3 0], opc := [(128, 1#8), (129, 2#8)] }) (withTwo m)), 0,
    1, 128, 2 ^ 22 - 64, 128, 1, 0, [], [.stream 3 0], by decide +kernel, by decide +kernel, by decide +kernel, ⟨by decide +kernel,
    by decide +kernel, (by unfold ringTakes; decide +kernel), by decide +kernel, by decide +kernel, by decide +kernel⟩⟩

set_option maxRecDepth 100000 in
theorem test_TransfersMoveOctets_5 : ∃ (s : State) (k : Nat) (dir : Nat) (len : Nat) (addr : Nat) (off : Nat) (ring : Nat) (pc
    : Nat) (got : List (Nat × List Byte)) (rest : List TCmd), issues s.m (coreAt s.m k) = true ∧ posting s.m (.te k) = false ∧
    (coreAt s.m k).par = [] ∧ s.m.mem.stagingBad = [] ∧ takeXfer (coreAt s.m k).queue = some (.xfer dir len addr off ring pc 0
    got, rest) ∧ ringTakes (.te k) (ringAt (coreAt s.m k) ring) ∧ dir = 2 :=
  ⟨inStep (fun m => withCore 0 0 (fun c => setRing 1 { desc := ringFor 5 }
    { c with queue := [.xfer 2 64 (64) 128 1 0 0 [], .stream 3 0], opc := [(128, 1#8), (129, 2#8)] }) (withObj 5 5 0 m)), 0, 2,
    64, 64, 128, 1, 0, [], [.stream 3 0], by decide +kernel, by decide +kernel, by decide +kernel, ⟨by decide +kernel,
    by decide +kernel, (by unfold ringTakes; decide +kernel), by decide +kernel⟩⟩

set_option maxRecDepth 100000 in
theorem test_TransfersMoveOctets_6 : ∃ (s : State) (k : Nat) (dir : Nat) (len : Nat) (addr : Nat) (off : Nat) (ring : Nat) (pc
    : Nat) (got : List (Nat × List Byte)) (rest : List TCmd), issues s.m (coreAt s.m k) = true ∧ posting s.m (.te k) = false ∧
    (coreAt s.m k).par = [] ∧ s.m.mem.stagingBad = [] ∧ takeXfer (coreAt s.m k).queue = some (.xfer dir len addr off ring pc 0
    got, rest) ∧ ringTakes (.te k) (ringAt (coreAt s.m k) ring) ∧ dir = 3 :=
  ⟨inStep (fun m => withCore 0 0 (fun c => setRing 1 { desc := ringFor 5 }
    { c with queue := [.xfer 3 64 (0) 128 1 0 0 [], .stream 3 0], opc := [(128, 1#8), (129, 2#8)] }) (withObj 5 5 0 m)), 0, 3, 64,
    0, 128, 1, 0, [], [.stream 3 0], by decide +kernel, by decide +kernel, by decide +kernel, ⟨by decide +kernel,
    by decide +kernel, (by unfold ringTakes; decide +kernel), by decide +kernel⟩⟩

set_option maxRecDepth 100000 in
theorem test_StreamsAndPostsGoOn_1 : ∃ (s : State) (k : Nat) (ring : Nat) (id : Nat) (pc : Nat) (rest : List TCmd) (p : Pair)
    (o : Nat), issues s.m (coreAt s.m k) = true ∧ (ringAt (coreAt s.m k) ring).active = none ∧ takeStream s.m k (coreAt s.m k).ctx
    ring (coreAt s.m k).queue = some (id, pc, rest) ∧ streamOf s.m (coreAt s.m k).ctx id = some p ∧ pairOk 512 p.v p.c = true ∧
    stCore p.v = k ∧ objAt s.m.mem (stVa p.v) = some o ∧ stVa p.v + streamSpan p.v ≤ (objSpan o).2 ∧ readCheck s.m.mem (stVa p.v)
    1 = 0 ∧ entryBad s.m.mem (stVa p.v) = false :=
  ⟨inStep (fun m => withCore 0 0 (fun c => setRing 2 { desc := mkPair 256 (4 * 2 ^ 32 + 2 ^ 48), active := none }
    { c with queue := [.stream 3 7] }) (withObj 0 5 0
    { m with streams := [(3, mkPair 512 (2 * 2 ^ 476 + 2 ^ 21 * 2 ^ 413 + 2 * 2 ^ 389 + 2 ^ 373 + 2 ^ 357))] })), 0, 2, 3, 7, [],
    mkPair 512 (2 * 2 ^ 476 + 2 ^ 21 * 2 ^ 413 + 2 * 2 ^ 389 + 2 ^ 373 + 2 ^ 357), objDesc 0 5 0, by decide +kernel⟩

set_option maxRecDepth 100000 in
theorem test_StreamsAndPostsGoOn_2 : ∃ (s : State) (k : Nat) (ring : Nat) (a : Active) (p : Pair), issues s.m (coreAt s.m k) =
    true ∧ (coreAt s.m k).rings.has ring = true ∧ ringOk (ringAt (coreAt s.m k) ring) = true ∧ inFetch (ringAt (coreAt s.m k)
    ring) ≠ 0 ∧ rdKind (ringAt (coreAt s.m k) ring) ≠ 2 ∧ (ringAt (coreAt s.m k) ring).active = some a ∧ streamOf s.m (coreAt s.m
    k).ctx a.index = some p ∧ pairOk 512 p.v p.c = true ∧ hbmCheck s.m (streamRows p.v a.next) = 0 :=
  ⟨inStep (fun m => withCore 0 0 (fun c => setRing 2
    { desc := mkPair 256 (4 * 2 ^ 32 + 2 ^ 48), wacq := 1, active := some ⟨3, 1, 2, 7⟩ } { c with queue := [.stream 3 7] })
    (withObj 0 5 0 { m with streams := [(3, mkPair 512 (2 * 2 ^ 476 + 2 ^ 21 * 2 ^ 413 + 2 * 2 ^ 389 + 2 ^ 373 + 2 ^ 357))] })),
    0, 2, (⟨3, 1, 2, 7⟩ : Active), mkPair 512 (2 * 2 ^ 476 + 2 ^ 21 * 2 ^ 413 + 2 * 2 ^ 389 + 2 ^ 373 + 2 ^ 357),
    by decide +kernel⟩

theorem test_StreamsAndPostsGoOn_3 : ∃ (s : State) (k : Nat) (ring : Nat) (w : Post) (rest : List Post), (ringAt (coreAt s.m
    k) ring).waiting = w :: rest ∧ ringOk (ringAt (coreAt s.m k) ring) = true ∧ ringRoom (ringAt (coreAt s.m k) ring) = true :=
  ⟨inStep (withCore 0 0 (setRing 7 { desc := ringFor 5, waiting := [⟨.te 0, 9, 0⟩] })), 0, 7, (⟨.te 0, 9, 0⟩ : Post), [], by
    decide⟩

theorem test_LayerDrainEndsTheLayer_1 : ∃ (s : State) (k : Nat), (coreAt s.m k).st = .layer ∧ issues s.m (coreAt s.m k) = true
    ∧ drainQuiet (coreAt s.m k) = true ∧ layerLanded s.m (coreAt s.m k) = true ∧ brokenRing s.m (coreAt s.m k) = none :=
  ⟨inStep (withCore 0 0 (fun c => { c with st := .layer, layer := 1, acc := [(0, 1#8)], queue := [.stream 3 7] })), 0, by
    decide⟩

set_option maxRecDepth 100000 in
theorem test_SamplerRequestsRun_1 : ∃ (s : State) (k : Nat) (key : Nat) (d : Nat) (rest : List Nat) (seeds : List (Nat ×
    Nat)), (smpAt s.m k).run = none ∧ (smpAt s.m k).queue = key :: rest ∧ inPass (ctxAt s.m (key / 65536)) = true ∧ posting s.m
    (.sampler k) = false ∧ smpDesc s.m key = .ok d ∧ seedList s.m d = .ok seeds :=
  ⟨inStep (fun m => withGraph { m with smpDescs := [(0, mkPair 512 smpD)], samplers := [(0, { queue := [0] })] }), 0, 0, smpD,
    [], [(0, 0)], by decide +kernel, by decide +kernel, by decide +kernel, by decide +kernel, ok_eq (by decide +kernel),
    ok_eq (by decide +kernel)⟩

set_option maxRecDepth 100000 in
theorem test_SamplerRequestsRun_2 : ∃ (m : Mach) (k : Nat) (d : Nat) (r : SmpRun), (smpAt m k).run = some r ∧ smpDesc m r.key
    = .ok d ∧ stepPairOk (ctxAt m (r.key / 65536)) = true ∧ ctxOfTag m (ctxAt m (r.key / 65536)).jobTag = some (r.key / 65536) :=
  ⟨(inStep (fun m => withGraph { m with smpDescs := [(0, mkPair 512 smpD)], samplers := [(0, { run := some smpR })] })).m, 0,
    smpD, smpR, by decide +kernel, ok_eq (by decide +kernel), by decide +kernel, by decide +kernel⟩

set_option maxRecDepth 100000 in
theorem test_SamplerRequestsRun_3 : ∃ (s : State) (k : Nat) (d : Nat) (r : SmpRun) (seeds : List (Nat × Nat)) (es : List (Nat
    × Nat × Nat)) (u : List (Nat × Nat)) (cs : List Nat) (b : Bool), (smpAt s.m k).run = some r ∧ inPass (ctxAt s.m (r.key /
    65536)) = true ∧ posting s.m (.sampler k) = false ∧ smpDesc s.m r.key = .ok d ∧ seedList s.m d = .ok seeds ∧ stepPairOk (ctxAt
    s.m (r.key / 65536)) = true ∧ (runHop s.m (ctxAt s.m (r.key / 65536)) d r).1 = .ok (.done es u cs b) ∧ writeCheck s.m.mem
    (r.key / 65536) r.out (blockBytes s.m (ctxAt s.m (r.key / 65536)) d r seeds es u cs b (isWalk (sdMethod d) || decide (r.hop ≥
    sdHops d))).2 = 0 :=
  ⟨inStep (fun m => withGraph { m with smpDescs := [(0, mkPair 512 smpD)], samplers := [(0, { run := some smpR })] }), 0, smpD,
    smpR, [(0, 0)], [], [(0, 0)], [0], false, by decide +kernel, by decide +kernel, by decide +kernel, ok_eq (by decide +kernel),
    ok_eq (by decide +kernel), by decide +kernel, ok_eq (by decide +kernel), by decide +kernel⟩

set_option maxRecDepth 100000 in
theorem test_ForwardsAnswered_1 : ∃ (s : State) (x : Txn) (i : Nat) (f : Fwd), reaches x i s.m ∧ x.body = .fwd f ∧
    s.m.tor.held = [] ∧ claimedSamplers (ctxAt s.m i) ≠ [] ∧ 256 ≤ (smpAt s.m (servingSampler (ctxAt s.m i) f)).incoming.length :=
  ⟨inStep (fun m =>
    { m with samplers := [(0, { incoming := List.replicate 256 ⟨fresh 0x06 7 (.fwd { kind := 1 }), {}, false⟩ })] }), fresh 0x06 7
    (.fwd { kind := 1 }), 0, { kind := 1 }, (by unfold reaches listening stepSound; decide +kernel), by decide +kernel,
    by decide +kernel, by decide +kernel, by decide +kernel⟩

set_option maxRecDepth 100000 in
theorem test_ForwardsAnswered_2 : ∃ (s : State) (x : Txn) (i : Nat) (f : Fwd) (n : Nat) (es : List (Nat × Nat)), reaches x i
    s.m ∧ x.body = .fwd f ∧ s.m.tor.held = [] ∧ claimedSamplers (ctxAt s.m i) ≠ [] ∧ (smpAt s.m (servingSampler (ctxAt s.m i)
    f)).incoming.length < 256 ∧ (∀ r, (smpAt s.m (servingSampler (ctxAt s.m i) f)).run = some r → r.fwds.length < 256) ∧
    (serveForward s.m (ctxAt s.m i) (servingSampler (ctxAt s.m i) f) x.detail f).1 = .ok (n, es) ∧ routable s.m x.src = true :=
  ⟨inStep (fun m => withGraph (sized m)), fresh 0x06 7 (.fwd { kind := 1 }), 0, { kind := 1 }, 0, [],
    (by unfold reaches listening stepSound; decide +kernel), by decide +kernel, by decide +kernel, by decide +kernel,
    ⟨by decide +kernel, by decide +kernel, ok_eq (by decide +kernel), by decide +kernel⟩⟩

set_option maxRecDepth 100000 in
theorem test_ForwardsAnswered_3 : ∃ (s : State) (x : Txn) (i : Nat) (f : Fwd), reaches x i s.m ∧ x.body = .fwd f ∧
    s.m.tor.held = [] ∧ claimedSamplers (ctxAt s.m i) ≠ [] ∧ (smpAt s.m (servingSampler (ctxAt s.m i) f)).incoming.length < 256 ∧
    (∀ r, (smpAt s.m (servingSampler (ctxAt s.m i) f)).run = some r → r.fwds.length < 256) ∧ (serveForward s.m (ctxAt s.m i)
    (servingSampler (ctxAt s.m i) f) x.detail f).1 = .error pageWaits :=
  ⟨inStep (fun m0 => let m := withGraph m0; { m with mem := { m.mem with pages := m.mem.pages.put 1 (mkPair 64 (pageVal 1 false false 7 5)) } }),
    fresh 0x06 7 (.fwd { kind := 1 }), 0, { kind := 1 }, (by unfold reaches listening stepSound; decide +kernel),
    by decide +kernel, by decide +kernel, by decide +kernel, ⟨by decide +kernel, by decide +kernel, error_of (by decide +kernel)⟩⟩

set_option maxRecDepth 100000 in
theorem test_ForwardsAnswered_4 : ∃ (s : State) (x : Txn) (i : Nat) (n : Nat) (k : Nat) (es : List (Nat × Nat)) (y : Sampler)
    (r : SmpRun) (f : FwdOut), reaches x i s.m ∧ x.body = .fwdRes n es ∧
    (s.m.samplers.find? (fun p => match p.2.run with | some r => r.key / 65536 == i && r.fwds.any (fun f => f.tag == x.tag) | none => false) = some (k, y))
    ∧ y.run = some r ∧ r.fwds.find? (fun f => f.tag == x.tag) = some f :=
  ⟨inStep (fun m => withGraph
    { m with smpDescs := [(0, mkPair 512 smpD)], samplers := [(0, { run := some { smpR with fwds := [⟨5, 0, 0⟩] } })] }), fresh
    0x86 0 (.fwdRes 0 []), 0, 0, 0, [], ({ run := some { smpR with fwds := [⟨5, 0, 0⟩] } } : Sampler),
    ({ smpR with fwds := [⟨5, 0, 0⟩] } : SmpRun), (⟨5, 0, 0⟩ : FwdOut), (by unfold reaches listening stepSound; decide +kernel),
    by decide +kernel, by decide +kernel, by decide +kernel, by decide +kernel⟩

theorem test_StaleTransactionsDiscarded_1 : ∃ (s : State) (x : Txn) (i : Nat) (f : _), listening s.m ∧ ctxOfTag s.m x.jobTag =
    some i ∧ stepSound s.m i ∧ sameTag (ctxAt s.m i) x = false ∧ x.body = .fwd f ∧ s.m.tor.held = [] :=
  ⟨inStep, stale 6 0 (.fwd {}), 0, {}, (by unfold listening; decide), by decide, (by unfold stepSound; decide), by decide,
    by decide, by decide⟩

theorem test_StaleTransactionsDiscarded_2 : ∃ (s : State) (x : Txn) (i : Nat) (n : _) (es : _), listening s.m ∧ ctxOfTag s.m
    x.jobTag = some i ∧ stepSound s.m i ∧ sameTag (ctxAt s.m i) x = false ∧ x.body = .fwdRes n es :=
  ⟨inStep, stale 134 0 (.fwdRes 0 []), 0, 0, [], (by unfold listening; decide), by decide, (by unfold stepSound; decide),
    by decide, by decide⟩

theorem test_StaleTransactionsDiscarded_3 : ∃ (s : State) (x : Txn) (i : Nat) (a : _) (b : _) (c : _) (d : _), listening s.m ∧
    ctxOfTag s.m x.jobTag = some i ∧ stepSound s.m i ∧ sameTag (ctxAt s.m i) x = false ∧ x.body = .gather a b c d ∧ s.m.tor.held =
    [] :=
  ⟨inStep, stale 3 0 (.gather 1 2 3 4), 0, 1, 2, 3, 4, (by unfold listening; decide), by decide, (by unfold stepSound; decide),
    by decide, by decide, by decide⟩

theorem test_StaleTransactionsDiscarded_4 : ∃ (s : State) (x : Txn) (i : Nat) (a : _) (b : _) (c : _), listening s.m ∧
    ctxOfTag s.m x.jobTag = some i ∧ stepSound s.m i ∧ sameTag (ctxAt s.m i) x = false ∧ x.body = .gatherRes a b c :=
  ⟨inStep, stale 131 0 (.gatherRes [] false 0), 0, [], false, 0, (by unfold listening; decide), by decide,
    (by unfold stepSound; decide), by decide, by decide⟩

theorem test_StaleTransactionsDiscarded_5 : ∃ (s : State) (x : Txn) (i : Nat) (a : _) (b : _) (c : _), listening s.m ∧
    ctxOfTag s.m x.jobTag = some i ∧ stepSound s.m i ∧ sameTag (ctxAt s.m i) x = false ∧ x.body = .scatter a b c :=
  ⟨inStep, stale 4 0 (.scatter 1 2 []), 0, 1, 2, [], (by unfold listening; decide), by decide, (by unfold stepSound; decide),
    by decide, by decide⟩

theorem test_StaleTransactionsDiscarded_6 : ∃ (s : State) (x : Txn) (i : Nat) (a : _) (b : _) (c : _) (d : _), listening s.m ∧
    ctxOfTag s.m x.jobTag = some i ∧ stepSound s.m i ∧ sameTag (ctxAt s.m i) x = false ∧ x.body = .scatterEnd a b c d :=
  ⟨inStep, stale 5 0 (.scatterEnd 1 2 3 4), 0, 1, 2, 3, 4, (by unfold listening; decide), by decide,
    (by unfold stepSound; decide), by decide, by decide⟩

theorem test_StaleTransactionsDiscarded_7 : ∃ (s : State) (x : Txn) (c : Instr) (i : _), (c = .contrib x ∨ c = .result x ∨ c =
    .maxima x ∨ c = .norm x) ∧ listening s.m ∧ ctxOfTag s.m x.jobTag = some i ∧ stepSound s.m i ∧ sameTag (ctxAt s.m i) x = false
    :=
  ⟨inStep, stale 8 0 (.raw []), .contrib (stale 8 0 (.raw [])), 0, by decide, (by unfold listening; decide), by decide,
    (by unfold stepSound; decide), by decide⟩

theorem test_StaleTransactionsDiscarded_7b : ∃ (s : State) (x : Txn) (c : Instr) (i : _), (c = .contrib x ∨ c = .result x ∨ c
    = .maxima x ∨ c = .norm x) ∧ listening s.m ∧ ctxOfTag s.m x.jobTag = some i ∧ stepSound s.m i ∧ sameTag (ctxAt s.m i) x =
    false :=
  ⟨inStep, stale 8 0 (.raw []), .norm (stale 8 0 (.raw [])), 0, by decide, (by unfold listening; decide), by decide,
    (by unfold stepSound; decide), by decide⟩

theorem test_StaleTransactionsDiscarded_8 : ∃ (s : State) (x : Txn) (i : Nat), listening s.m ∧ ctxOfTag s.m x.jobTag = some i
    ∧ (ctxAt s.m i).st ≠ .halt ∧ stepPairOk (ctxAt s.m i) = true ∧ sameTag (ctxAt s.m i) x = false :=
  ⟨inStep, stale 10 0 (.raw []), 0, (by unfold listening; decide), by decide, by decide, by decide, by decide⟩

theorem test_StaleTransactionsDiscarded_9 : ∃ (s : State) (x : Txn) (i : Nat), listening s.m ∧ ctxOfTag s.m x.jobTag = some i
    ∧ (ctxAt s.m i).st ≠ .halt ∧ stepPairOk (ctxAt s.m i) = true ∧ stalePass (ctxAt s.m i) x = true :=
  ⟨inStep, stale 10 0 (.raw []), 0, (by unfold listening; decide), by decide, by decide, by decide, by decide⟩

theorem test_StaleTransactionsDiscarded_10 : ∃ (s : State) (x : Txn) (i : Nat), listening s.m ∧ ctxOfTag s.m x.jobTag = some i
    ∧ (ctxAt s.m i).st ≠ .halt ∧ stepPairOk (ctxAt s.m i) = true ∧ x.step < (ctxAt s.m i).step :=
  ⟨inStep, stale 10 0 (.raw []), 0, (by unfold listening; decide), by decide, by decide, by decide, by decide⟩

theorem test_StaleTransactionsDiscarded_11 : ∃ (s : State) (x : Txn) (i : Nat), listening s.m ∧ ctxOfTag s.m x.jobTag = some i
    ∧ (ctxAt s.m i).st ≠ .halt ∧ stepPairOk (ctxAt s.m i) = true ∧ sameTag (ctxAt s.m i) x = true ∧ (ctxAt s.m i).pass.committed =
    true :=
  ⟨base .run (withCtx 0 { running with pass := { running := true, committed := true } }), fresh 10 0 (.raw []), 0,
    (by unfold listening; decide), by decide, by decide, by decide, by decide, by decide⟩

theorem test_LateAnswersAbortThePass_1 : ∃ (s : State) (k : Nat) (tag : Nat) (r : SmpRun) (f : FwdOut), notifies s.m.dev.st =
    true ∧ (smpAt s.m k).run = some r ∧ r.fwds.find? (fun f => f.tag == tag) = some f ∧ beforeReady s.m (r.key / 65536) :=
  ⟨inStep (fun m => { m with samplers := [(0, { run := some { smpR with fwds := [⟨5, 0, 0⟩] } })] }), 0, 5,
    ({ smpR with fwds := [⟨5, 0, 0⟩] } : SmpRun), (⟨5, 0, 0⟩ : FwdOut), by decide, by decide, by decide,
    (by unfold beforeReady; decide)⟩

theorem test_LateAnswersAbortThePass_2 : ∃ (s : State) (e : Nat) (tag : Nat) (o : GsOp) (g : GsRow), notifies s.m.dev.st =
    true ∧ (engAt s.m e).running.find? (fun o => o.rows.any (fun r => r.remote && r.tag == tag && r.vals.isNone && r.st == 2)) =
    some o ∧ o.rows.find? (fun r => r.remote && r.tag == tag && r.vals.isNone && r.st == 2) = some g ∧ beforeReady s.m (o.key /
    65536) :=
  ⟨inStep (fun m =>
    { m with engines := [(0, { running := [{ gsOp 1 with rows := [{ key := 0, remote := true, tag := 5, st := 2 }] }] })] }), 0,
    5, ({ gsOp 1 with rows := [{ key := 0, remote := true, tag := 5, st := 2 }] } : GsOp),
    ({ key := 0, remote := true, tag := 5, st := 2 } : GsRow), by decide, by decide, by decide, (by unfold beforeReady; decide)⟩

set_option maxRecDepth 100000 in
theorem test_LateAnswersAbortThePass_3 : ∃ (s : State) (id : Nat) (r : TierRead), notifies s.m.dev.st = true ∧ readById s.m id
    = some r ∧ (r.step = (ctxAt s.m r.ctx).step → r.replay = (ctxAt s.m r.ctx).replay) ∧ beforeReady s.m r.ctx :=
  ⟨inStep (fun m0 => let m := withGs m0; { m with mem := { m.mem with reads := [({ id := 6, ctx := 0, step := 4, replay := 0, va := 2 ^ 21, len := 64, tier := 1, region := 0, issuedAt := 0, deadline := some 9, who := .none } : TierRead)] } }),
    6,
    ({ id := 6, ctx := 0, step := 4, replay := 0, va := 2 ^ 21, len := 64, tier := 1, region := 0, issuedAt := 0, deadline := some 9, who := .none }
    : TierRead), by decide +kernel, by decide +kernel, by decide +kernel, (by unfold beforeReady; decide +kernel)⟩

set_option maxRecDepth 100000 in
theorem test_LateAnswersAbortThePass_4 : ∃ (s : State) (id : Nat) (r : TierRead), readById s.m id = some r ∧ r.step = (ctxAt
    s.m r.ctx).step ∧ r.replay ≠ (ctxAt s.m r.ctx).replay :=
  ⟨inStep (fun m0 => let m := withGs m0; { m with mem := { m.mem with reads := [({ id := 6, ctx := 0, step := 4, replay := 1, va := 2 ^ 21, len := 64, tier := 1, region := 0, issuedAt := 0, deadline := some 9, who := .none } : TierRead)] } }),
    6,
    ({ id := 6, ctx := 0, step := 4, replay := 1, va := 2 ^ 21, len := 64, tier := 1, region := 0, issuedAt := 0, deadline := some 9, who := .none }
    : TierRead), by decide +kernel⟩

set_option maxRecDepth 100000 in
theorem test_LateAnswersAbortThePass_5 : ∃ (s : State) (id : Nat) (r : TierRead), notifies s.m.dev.st = true ∧ readById s.m id
    = some r ∧ readCurrent s.m r = true ∧ r.substituted = false ∧ r.lost = false ∧ beforeReady s.m r.ctx ∧ (∀ v, objAt s.m.mem
    r.va = some v → oCtx v = r.ctx) ∧ (∀ v, objAt s.m.mem r.va = some v → recoveryClass s.m r.ctx v = 0) :=
  ⟨inStep (fun m0 => let m := withGs m0; { m with mem := { m.mem with reads := [({ id := 6, ctx := 0, step := 4, replay := 0, va := 3 * 2 ^ 21, len := 64, tier := 1, region := 0, issuedAt := 0, deadline := some 9, who := .none } : TierRead)] } }),
    6,
    ({ id := 6, ctx := 0, step := 4, replay := 0, va := 3 * 2 ^ 21, len := 64, tier := 1, region := 0, issuedAt := 0, deadline := some 9, who := .none }
    : TierRead), by decide +kernel, by decide +kernel, by decide +kernel, ⟨by decide +kernel, by decide +kernel,
    (by unfold beforeReady; decide +kernel), opt_all (by decide +kernel), opt_all (by decide +kernel)⟩⟩

set_option maxRecDepth 100000 in
theorem test_LateAnswersAbortThePass_6 : ∃ (s : State) (id : Nat) (r : TierRead) (v : _), notifies s.m.dev.st = true ∧
    readById s.m id = some r ∧ readCurrent s.m r = true ∧ r.substituted = false ∧ r.lost = false ∧ beforeReady s.m r.ctx ∧ (∀ v,
    objAt s.m.mem r.va = some v → oCtx v = r.ctx) ∧ objAt s.m.mem r.va = some v ∧ recoveryClass s.m r.ctx v = 1 :=
  ⟨inStep (fun m0 => let m := withGs m0; { m with mem := { m.mem with reads := [({ id := 6, ctx := 0, step := 4, replay := 0, va := 2 ^ 21, len := 64, tier := 1, region := 0, issuedAt := 0, deadline := some 9, who := .none } : TierRead)] } }),
    6,
    ({ id := 6, ctx := 0, step := 4, replay := 0, va := 2 ^ 21, len := 64, tier := 1, region := 0, issuedAt := 0, deadline := some 9, who := .none }
    : TierRead), objAtPage 7 1 2 3 0 0, by decide +kernel, by decide +kernel, by decide +kernel, ⟨by decide +kernel,
    by decide +kernel, (by unfold beforeReady; decide +kernel), by decide +kernel, by decide +kernel, by decide +kernel⟩⟩

set_option maxRecDepth 100000 in
theorem test_OperationsStartAndComplete_1 : ∃ (s : State) (e : Nat) (d : Nat) (o : GsOp) (rest : List GsOp), (engAt s.m
    e).queue = o :: rest ∧ (engAt s.m e).running.length < 8 ∧ inPass (ctxAt s.m (o.key / 65536)) = true ∧ posting s.m (.engine e)
    = false ∧ stepPairOk (ctxAt s.m (o.key / 65536)) = true ∧ gsDesc s.m o.key = .ok d ∧ scatterLow s.m o ≠ [] :=
  ⟨inStep (fun m => withFarMap { m with engines := [(0, { queue := [gsOp 2], running := [] })] }), 0, 2 ^ 490 + (2 ^ 455 + 7 * 2
    ^ 437 + 16 * 2 ^ 424) + 8 * 2 ^ 363, gsOp 2, [], by decide +kernel, by decide +kernel, by decide +kernel, ⟨by decide +kernel,
    by decide +kernel, ok_eq (by decide +kernel), by decide +kernel⟩⟩

set_option maxRecDepth 100000 in
theorem test_OperationsStartAndComplete_2 : ∃ (s : State) (e : Nat) (d : Nat) (o : GsOp) (rest : List GsOp) (o1 : _) (n : _),
    (engAt s.m e).queue = o :: rest ∧ (engAt s.m e).running.length < 8 ∧ inPass (ctxAt s.m (o.key / 65536)) = true ∧ posting s.m
    (.engine e) = false ∧ stepPairOk (ctxAt s.m (o.key / 65536)) = true ∧ gsDesc s.m o.key = .ok d ∧ gdOp d = 0 ∧ startGather
    (setEng e { engAt s.m e with queue := rest } s.m) o d = .ok (o1, n) :=
  ⟨inStep (fun m => withGs { m with engines := [(0, { queue := [gsOp 1], running := [] })] }), 0, gatD, gsOp 1, [], gsOp 1, 0,
    by decide +kernel, by decide +kernel, by decide +kernel, ⟨by decide +kernel, by decide +kernel, ok_eq (by decide +kernel),
    by decide +kernel, ok_eq (by decide +kernel)⟩⟩

set_option maxRecDepth 100000 in
theorem test_OperationsStartAndComplete_3 : ∃ (s : State) (e : Nat) (d : Nat) (o : GsOp) (rest : List GsOp) (o1 : _) (m2 : _),
    (engAt s.m e).queue = o :: rest ∧ (engAt s.m e).running.length < 8 ∧ inPass (ctxAt s.m (o.key / 65536)) = true ∧ posting s.m
    (.engine e) = false ∧ stepPairOk (ctxAt s.m (o.key / 65536)) = true ∧ gsDesc s.m o.key = .ok d ∧ gdOp d ≠ 0 ∧ scatterLow s.m o
    = [] ∧ startScatter e o d (setEng e { engAt s.m e with queue := rest } s.m) = .ok (o1, m2) :=
  ⟨inStep (fun m => withGs { m with engines := [(0, { queue := [gsOp 2], running := [] })] }), 0, scaD, gsOp 2, [], (gotten
    (gsOp 2, {}) (startScatter 0 (gsOp 2) scaD (setEng 0
    { engAt (inStep (fun m => withGs { m with engines := [(0, { queue := [gsOp 2], running := [] })] })).m 0 with queue := [] }
    (inStep (fun m => withGs { m with engines := [(0, { queue := [gsOp 2], running := [] })] })).m))).1, (gotten (gsOp 2, {})
    (startScatter 0 (gsOp 2) scaD (setEng 0
    { engAt (inStep (fun m => withGs { m with engines := [(0, { queue := [gsOp 2], running := [] })] })).m 0 with queue := [] }
    (inStep (fun m => withGs { m with engines := [(0, { queue := [gsOp 2], running := [] })] })).m))).2, by decide +kernel,
    by decide +kernel, by decide +kernel, ⟨by decide +kernel, by decide +kernel, ok_eq (by decide +kernel), by decide +kernel,
    by decide +kernel, ok_gotten (gsOp 2, {}) (by decide +kernel)⟩⟩

set_option maxRecDepth 100000 in
theorem test_OperationsStartAndComplete_4 : ∃ (s : State) (e : Nat) (id : Nat) (d : Nat) (o : GsOp) (p : SlicePlan) (outs :
    List (List Byte)) (parts : List (Nat × List Byte)), runningOp s.m e id = some o ∧ rowsReady o = true ∧ inPass (ctxAt s.m
    (o.key / 65536)) = true ∧ posting s.m (.engine e) = false ∧ gsDesc s.m o.key = .ok d ∧ gdOp d = 0 ∧ gatherOutput s.m o d = .ok
    (p, outs, parts) ∧ writeCheck s.m.mem (o.key / 65536) o.path (parts.foldl (fun a x => max a (x.1 + x.2.length)) 0) = 0 :=
  ⟨inStep (fun m => withGs { m with engines := [(0, { queue := [], running := [gsOp 1] })] }), 0, 1, gatD, gsOp 1, (⟨0, 0, [],
    [], false, 0⟩ : SlicePlan), [], [(128, []), (0, recordHeader running gatD (gsOp 1) ⟨0, 0, [], [], false, 0⟩)],
    by decide +kernel, by decide +kernel, by decide +kernel, by decide +kernel, ok_eq (by decide +kernel), by decide +kernel,
    ok_eq (by decide +kernel), by decide +kernel⟩

set_option maxRecDepth 100000 in
theorem test_OperationsStartAndComplete_5 : ∃ (s : State) (e : Nat) (id : Nat) (d : Nat) (g : Nat) (o : GsOp) (p : SlicePlan)
    (h : List Byte) (tg : Target), runningOp s.m e id = some o ∧ rowsReady o = true ∧ inPass (ctxAt s.m (o.key / 65536)) = true ∧
    posting s.m (.engine e) = false ∧ gsDesc s.m o.key = .ok d ∧ gdOp d = 1 ∧ checkRecord s.m o d = .ok (g, p, h) ∧ targetOf s.m
    (o.key / 65536) (gdTarget d) = .ok tg ∧ stepPairOk (ctxAt s.m (o.key / 65536)) = true ∧ ctxOfTag s.m (ctxAt s.m (o.key /
    65536)).jobTag = some (o.key / 65536) ∧ (writesGrads d h = true → (dataRead s.m o.core o.data (p.count * gdStride
    d)).toOption.isSome = true) :=
  ⟨inStep (fun m => withGs { m with engines := [(0, { queue := [], running := [gsOp 2] })] }), 0, 1, scaD, gatD, gsOp 2, (⟨0, 0,
    [], [], false, 0⟩ : SlicePlan), vget (inStep (fun m => withGs
    { m with engines := [(0, { queue := [], running := [gsOp 2] })] })).m.mem (3 * 2 ^ 21 + 4096) 128,
    ({ desc := mkPair 512 (16 * 2 ^ 478 + 2 ^ 462) } : Target), by decide +kernel, by decide +kernel, by decide +kernel,
    by decide +kernel, ok_eq (by decide +kernel), by decide +kernel, ok_eq (by decide +kernel), ok_eq (by decide +kernel),
    by decide +kernel, by decide +kernel, by decide +kernel⟩

set_option maxRecDepth 100000 in
theorem test_TierReadsAnswered_1 : ∃ (s : State) (id : Nat) (k : Nat) (r : TierRead), readById s.m id = some r ∧ r.lost =
    false ∧ readCurrent s.m r = true ∧ r.substituted = false ∧ r.who = .xfer k :=
  ⟨inStep (fun m => withCore 0 0 (fun c => { c with queue := [.xfer 0 64 (2 ^ 21) 0 0 0 1 []] })
    { m with mem := { m.mem with reads := [({ id := 6, ctx := 0, step := 4, replay := 0, va := 2 ^ 21, len := 64, tier := 1, region := 0, issuedAt := 0, deadline := some 9, who := .xfer 0 } : TierRead)] } }),
    6, 0,
    ({ id := 6, ctx := 0, step := 4, replay := 0, va := 2 ^ 21, len := 64, tier := 1, region := 0, issuedAt := 0, deadline := some 9, who := .xfer 0 }
    : TierRead), by decide +kernel⟩

set_option maxRecDepth 100000 in
theorem test_TierReadsAnswered_2 : ∃ (s : State) (id : Nat) (e : Nat) (op : Nat) (n : Nat) (r : TierRead) (o : GsOp) (src :
    GsSrc) (re : Bool) (row : GsRow), readById s.m id = some r ∧ r.lost = false ∧ readCurrent s.m r = true ∧ r.substituted = false
    ∧ r.who = .item e op n ∧ runningOp s.m e op = some o ∧ opSource s.m o = .ok (src, re) ∧ o.rows[n]? = some row :=
  ⟨inStep (fun m0 => let m := withGs { m0 with engines := [(0, { running := [{ gsOp 1 with rows := [{ key := 0, need := 1, st := 2, cls := 1, va := 2 ^ 21, len := 64 }] }] })] }; { m with mem := { m.mem with reads := [({ id := 6, ctx := 0, step := 4, replay := 0, va := 2 ^ 21, len := 64, tier := 1, region := 0, issuedAt := 0, deadline := some 9, who := .item 0 1 0 } : TierRead)] } }),
    6, 0, 1, 0,
    ({ id := 6, ctx := 0, step := 4, replay := 0, va := 2 ^ 21, len := 64, tier := 1, region := 0, issuedAt := 0, deadline := some 9, who := .item 0 1 0 }
    : TierRead), ({ gsOp 1 with rows := [{ key := 0, need := 1, st := 2, cls := 1, va := 2 ^ 21, len := 64 }] } : GsOp), (⟨2, 8,
    16, false, false, 0, 0⟩ : GsSrc), false, ({ key := 0, need := 1, st := 2, cls := 1, va := 2 ^ 21, len := 64 } : GsRow),
    by decide +kernel, by decide +kernel, by decide +kernel, ⟨by decide +kernel, by decide +kernel, by decide +kernel,
    ok_eq (by decide +kernel), by decide +kernel⟩⟩

set_option maxRecDepth 100000 in
theorem test_TierReadsAnswered_3 : ∃ (s : State) (id : Nat) (r : TierRead), readById s.m id = some r ∧ r.lost = false ∧
    (readCurrent s.m r = false ∨ r.substituted = true) :=
  ⟨inStep (fun m0 => let m := withGs m0; { m with mem := { m.mem with reads := [({ id := 6, ctx := 0, replay := 0, va := 2 ^ 21, len := 64, tier := 1, region := 0, issuedAt := 0, deadline := some 9, who := .none, step := 3 } : TierRead)] } }),
    6,
    ({ id := 6, ctx := 0, replay := 0, va := 2 ^ 21, len := 64, tier := 1, region := 0, issuedAt := 0, deadline := some 9, who := .none, step := 3 }
    : TierRead), by decide +kernel⟩

set_option maxRecDepth 100000 in
theorem test_TierReadsAnswered_3b : ∃ (s : State) (id : Nat) (r : TierRead), readById s.m id = some r ∧ r.lost = false ∧
    (readCurrent s.m r = false ∨ r.substituted = true) :=
  ⟨inStep (fun m0 => let m := withGs m0; { m with mem := { m.mem with reads := [({ id := 6, ctx := 0, step := 4, replay := 0, va := 2 ^ 21, len := 64, tier := 1, region := 0, issuedAt := 0, deadline := some 9, who := .none, substituted := true } : TierRead)] } }),
    6,
    ({ id := 6, ctx := 0, step := 4, replay := 0, va := 2 ^ 21, len := 64, tier := 1, region := 0, issuedAt := 0, deadline := some 9, who := .none, substituted := true }
    : TierRead), by decide +kernel⟩

set_option maxRecDepth 100000 in
theorem test_TierReadsAnswered_4 : ∃ (s : State) (id : Nat) (dl : Nat) (r : TierRead), readById s.m id = some r ∧ r.deadline =
    some dl ∧ r.missed = false ∧ readCurrent s.m r = true ∧ inPass (ctxAt s.m r.ctx) = true ∧ r.substituted = false ∧ r.stalled =
    false ∧ (ctxAt s.m r.ctx).pass.strict = true :=
  ⟨inStep (fun m0 => let m := withGs m0; { m with mem := { m.mem with reads := [({ id := 6, ctx := 0, step := 4, replay := 0, va := 2 ^ 21, len := 64, tier := 1, region := 0, issuedAt := 0, deadline := some 9, who := .none } : TierRead)] } }),
    6, 9,
    ({ id := 6, ctx := 0, step := 4, replay := 0, va := 2 ^ 21, len := 64, tier := 1, region := 0, issuedAt := 0, deadline := some 9, who := .none }
    : TierRead), by decide +kernel⟩

set_option maxRecDepth 100000 in
theorem test_TierReadsAnswered_5 : ∃ (s : State) (id : Nat) (e : Nat) (op : Nat) (n : Nat) (d : Nat) (key : Nat) (dl : Nat) (r
    : TierRead) (o : GsOp) (row : GsRow), readById s.m id = some r ∧ r.deadline = some dl ∧ r.missed = false ∧ readCurrent s.m r =
    true ∧ inPass (ctxAt s.m r.ctx) = true ∧ r.ctx < 16 ∧ r.substituted = false ∧ (ctxAt s.m r.ctx).pass.strict = false ∧
    readTable s.m r = some (d, key) ∧ tdAsh d ≠ 0 ∧ r.who = .item e op n ∧ runningOp s.m e op = some o ∧ o.rows[n]? = some row :=
  ⟨base .run (fun m => withCtx 0 { running with pass := { running := true, strict := false } }
    { m with gsDescs := [(3, mkPair 512 (2 ^ 455 + 1 * 2 ^ 453 + 8 * 2 ^ 437 + 16 * 2 ^ 424))], tabSnap := [(8, mkPair 512 (1 * 2 ^ 377))], engines := [(0, { running := [{ gsOp 3 with rows := [{ key := 7, need := 1, st := 2, cls := 1, va := 2 ^ 21, len := 64 }] }] })], mem := { m.mem with reads := [({ id := 6, ctx := 0, step := 4, replay := 0, va := 2 ^ 21, len := 64, tier := 1, region := 0, issuedAt := 0, deadline := some 9, who := .item 0 1 0 } : TierRead)] } }),
    6, 0, 1, 0, 1 * 2 ^ 377, 7, 9,
    ({ id := 6, ctx := 0, step := 4, replay := 0, va := 2 ^ 21, len := 64, tier := 1, region := 0, issuedAt := 0, deadline := some 9, who := .item 0 1 0 }
    : TierRead), ({ gsOp 3 with rows := [{ key := 7, need := 1, st := 2, cls := 1, va := 2 ^ 21, len := 64 }] } : GsOp),
    ({ key := 7, need := 1, st := 2, cls := 1, va := 2 ^ 21, len := 64 } : GsRow), by decide +kernel⟩

set_option maxRecDepth 100000 in
theorem test_RemoteGathersAndTargetsAnswered_1 : ∃ (s : State) (x : Txn) (i : Nat) (key : Nat) (e : Nat) (src : GsSrc) (re :
    Bool) (ash : Bool), reaches x i s.m ∧ s.m.tor.held = [] ∧ askedSource x = some (src, key, re, ash) ∧ (ctxAt s.m
    i).claims.engines ≠ [] ∧ e = (ctxAt s.m i).claims.engines.getD (askedPart src key % (ctxAt s.m i).claims.engines.length) 0 ∧
    ¬((s.m.served.filter (fun v => v.engine == e)).length < 256) :=
  ⟨inStep (fun m => withGraph { m with served := List.replicate 256 ⟨0, fresh 0x03 0 (.gather 0 8 2 16), { key := 0 }⟩ }), fresh
    0x03 0 (.gather 0 8 2 16), 0, 0, 0, (⟨2, 8, 16, false, false, 0, 0⟩ : GsSrc), false, false,
    (by unfold reaches listening stepSound; decide +kernel), by decide +kernel, by decide +kernel, by decide +kernel,
    by decide +kernel, by decide +kernel⟩

set_option maxRecDepth 100000 in
theorem test_RemoteGathersAndTargetsAnswered_2 : ∃ (s : State) (x : Txn) (i : Nat) (key : Nat) (e : Nat) (src : GsSrc) (re :
    Bool) (ash : Bool), reaches x i s.m ∧ s.m.tor.held = [] ∧ askedSource x = some (src, key, re, ash) ∧ (ctxAt s.m
    i).claims.engines ≠ [] ∧ e = (ctxAt s.m i).claims.engines.getD (askedPart src key % (ctxAt s.m i).claims.engines.length) 0 ∧
    ((s.m.served.filter (fun v => v.engine == e)).length < 256) ∧ (¬(src.kind ≠ 1 ∨ inPass (ctxAt s.m i) = true ∨
    (s.m.tabSnap.find (dkeyOf i src.obj)).isSome = true)) :=
  ⟨base .run (fun m => withCtx 0 { running with pass := {} } (withGraph m)), fresh 0x03 0 (.gather 0 8 1 16), 0, 0, 0, (⟨1, 8,
    16, false, false, 0, 0⟩ : GsSrc), false, false, (by unfold reaches listening stepSound; decide +kernel), by decide +kernel,
    by decide +kernel, by decide +kernel, ⟨by decide +kernel, by decide +kernel, by decide +kernel⟩⟩

set_option maxRecDepth 100000 in
theorem test_RemoteGathersAndTargetsAnswered_3 : ∃ (s : State) (x : Txn) (i : Nat) (key : Nat) (e : Nat) (src : GsSrc) (re :
    Bool) (ash : Bool) (code : _), reaches x i s.m ∧ s.m.tor.held = [] ∧ askedSource x = some (src, key, re, ash) ∧ (ctxAt s.m
    i).claims.engines ≠ [] ∧ e = (ctxAt s.m i).claims.engines.getD (askedPart src key % (ctxAt s.m i).claims.engines.length) 0 ∧
    startRow i e (.remote e x) src re false { key := key, loc := key, ash := ash } s.m = .error code ∧ ((s.m.served.filter (fun v
    => v.engine == e)).length < 256) ∧ (src.kind ≠ 1 ∨ inPass (ctxAt s.m i) = true ∨ (s.m.tabSnap.find (dkeyOf i src.obj)).isSome
    = true) :=
  ⟨inStep (fun m => withGraph (sized m)), fresh 0x03 0 (.gather 0 9 2 16), 0, 0, 0, (⟨2, 9, 16, false, false, 0, 0⟩ : GsSrc),
    false, false, 0x0506, (by unfold reaches listening stepSound; decide +kernel), by decide +kernel, by decide +kernel,
    by decide +kernel, by decide +kernel, error_of (by decide +kernel), by decide +kernel, by decide +kernel⟩

set_option maxRecDepth 100000 in
theorem test_RemoteGathersAndTargetsAnswered_4 : ∃ (s : State) (x : Txn) (i : Nat) (key : Nat) (e : Nat) (src : GsSrc) (re :
    Bool) (ash : Bool) (r : _) (m1 : _), reaches x i s.m ∧ s.m.tor.held = [] ∧ askedSource x = some (src, key, re, ash) ∧ (ctxAt
    s.m i).claims.engines ≠ [] ∧ e = (ctxAt s.m i).claims.engines.getD (askedPart src key % (ctxAt s.m i).claims.engines.length) 0
    ∧ startRow i e (.remote e x) src re false { key := key, loc := key, ash := ash } s.m = .ok (some (r, m1)) ∧ r.vals.isSome =
    true ∧ ((s.m.served.filter (fun v => v.engine == e)).length < 256) ∧ (src.kind ≠ 1 ∨ inPass (ctxAt s.m i) = true ∨
    (s.m.tabSnap.find (dkeyOf i src.obj)).isSome = true) ∧ routable s.m x.src = true :=
  ⟨inStep (fun m => withGraph (sized m)), fresh 0x03 0 (.gather 0 8 2 16), 0, 0, 0, (⟨2, 8, 16, false, false, 0, 0⟩ : GsSrc),
    false, false, ((gotten none (startRow 0 0 (.remote 0 (fresh 0x03 0 (.gather 0 8 2 16))) (⟨2, 8, 16, false, false, 0, 0⟩ :
    GsSrc) false false { key := 0, loc := 0, ash := false } (inStep (fun m => withGraph (sized m))).m)).getD ({ key := 0 },
    {})).1, ((gotten none (startRow 0 0 (.remote 0 (fresh 0x03 0 (.gather 0 8 2 16))) (⟨2, 8, 16, false, false, 0, 0⟩ : GsSrc)
    false false { key := 0, loc := 0, ash := false } (inStep (fun m => withGraph (sized m))).m)).getD ({ key := 0 }, {})).2,
    (by unfold reaches listening stepSound; decide +kernel), by decide +kernel, by decide +kernel, by decide +kernel,
    by decide +kernel, ok_row ({ key := 0 }, {}) (by decide +kernel), by decide +kernel, by decide +kernel, by decide +kernel,
    by decide +kernel⟩

set_option maxRecDepth 100000 in
theorem test_RemoteGathersAndTargetsAnswered_5 : ∃ (s : State) (x : Txn) (i : Nat) (key : Nat) (e : Nat) (src : GsSrc) (re :
    Bool) (ash : Bool) (r : _) (m1 : _), reaches x i s.m ∧ s.m.tor.held = [] ∧ askedSource x = some (src, key, re, ash) ∧ (ctxAt
    s.m i).claims.engines ≠ [] ∧ e = (ctxAt s.m i).claims.engines.getD (askedPart src key % (ctxAt s.m i).claims.engines.length) 0
    ∧ startRow i e (.remote e x) src re false { key := key, loc := key, ash := ash } s.m = .ok (some (r, m1)) ∧ r.vals.isSome =
    false ∧ ((s.m.served.filter (fun v => v.engine == e)).length < 256) ∧ (src.kind ≠ 1 ∨ inPass (ctxAt s.m i) = true ∨
    (s.m.tabSnap.find (dkeyOf i src.obj)).isSome = true) :=
  ⟨inStep (fun m0 => let m := withGraph m0; { m with mem := { m.mem with pages := m.mem.pages.put 3 (mkPair 64 (pageVal 1 false false 8 7)) } }),
    fresh 0x03 0 (.gather 0 8 2 16), 0, 0, 0, (⟨2, 8, 16, false, false, 0, 0⟩ : GsSrc), false, false,
    ((gotten none (startRow 0 0 (.remote 0 (fresh 0x03 0 (.gather 0 8 2 16))) (⟨2, 8, 16, false, false, 0, 0⟩ : GsSrc) false false { key := 0, loc := 0, ash := false } (inStep (fun m0 => let m := withGraph m0; { m with mem := { m.mem with pages := m.mem.pages.put 3 (mkPair 64 (pageVal 1 false false 8 7)) } })).m)).getD ({ key := 0 }, {})).1,
    ((gotten none (startRow 0 0 (.remote 0 (fresh 0x03 0 (.gather 0 8 2 16))) (⟨2, 8, 16, false, false, 0, 0⟩ : GsSrc) false false { key := 0, loc := 0, ash := false } (inStep (fun m0 => let m := withGraph m0; { m with mem := { m.mem with pages := m.mem.pages.put 3 (mkPair 64 (pageVal 1 false false 8 7)) } })).m)).getD ({ key := 0 }, {})).2,
    (by unfold reaches listening stepSound; decide +kernel), by decide +kernel, by decide +kernel, by decide +kernel,
    by decide +kernel, ok_row ({ key := 0 }, {}) (by decide +kernel), by decide +kernel, by decide +kernel, by decide +kernel⟩

set_option maxRecDepth 100000 in
theorem test_RemoteGathersAndTargetsAnswered_6 : ∃ (s : State) (x : Txn) (i : Nat) (key : Nat) (e : Nat) (src : GsSrc) (re :
    Bool) (ash : Bool), reaches x i s.m ∧ s.m.tor.held = [] ∧ askedSource x = some (src, key, re, ash) ∧ (ctxAt s.m
    i).claims.engines ≠ [] ∧ e = (ctxAt s.m i).claims.engines.getD (askedPart src key % (ctxAt s.m i).claims.engines.length) 0 ∧
    startRow i e (.remote e x) src re false { key := key, loc := key, ash := ash } s.m = .ok none ∧ ((s.m.served.filter (fun v =>
    v.engine == e)).length < 256) ∧ (src.kind ≠ 1 ∨ inPass (ctxAt s.m i) = true ∨ (s.m.tabSnap.find (dkeyOf i src.obj)).isSome =
    true) :=
  ⟨inStep (fun m0 => let m := withGraph m0; { m with mem := { m.mem with pages := m.mem.pages.put 3 (mkPair 64 (pageVal 1 false false 8 7)), reads := List.replicate 256 ({ id := 6, ctx := 0, step := 4, replay := 0, va := 2 ^ 21, len := 64, tier := 1, region := 0, issuedAt := 0, deadline := some 9, who := .item 0 0 0 } : TierRead) } }),
    fresh 0x03 0 (.gather 0 8 2 16), 0, 0, 0, (⟨2, 8, 16, false, false, 0, 0⟩ : GsSrc), false, false,
    (by unfold reaches listening stepSound; decide +kernel), by decide +kernel, by decide +kernel, by decide +kernel,
    by decide +kernel, ok_eq (by decide +kernel), by decide +kernel, by decide +kernel⟩

set_option maxRecDepth 100000 in
theorem test_RemoteGathersAndTargetsAnswered_7 : ∃ (s : State) (x : Txn) (i : Nat) (e : Nat) (ver : Nat) (d : Nat) (vals :
    List Nat) (ash : Bool) (o : GsOp), reaches x i s.m ∧ i < 16 ∧ x.body = .gatherRes vals ash ver ∧ s.m.engines.findSome? (fun p
    => (p.2.running.find? (fun o => o.key / 65536 == i && o.rows.any (fun (r : GsRow) => r.remote && r.tag == x.tag &&
    r.vals.isNone && r.st == 2))).map (fun o => (p.1, o))) = some (e, o) ∧ runningOp s.m e o.id = some o ∧ gsDesc s.m o.key = .ok
    d ∧ (∀ r ∈ o.rows, (fun (r : GsRow) => r.remote && r.tag == x.tag && r.vals.isNone && r.st == 2) r = true → r.version = ver)
    :=
  ⟨inStep (fun m => withGs
    { m with engines := [(0, { running := [{ gsOp 1 with rows := [{ key := 0, remote := true, tag := 5, st := 2 }] }] })] }),
    fresh 0x83 0 (.gatherRes [1, 2] false 0), 0, 0, 0, gatD, [1, 2], false,
    ({ gsOp 1 with rows := [{ key := 0, remote := true, tag := 5, st := 2 }] } : GsOp),
    (by unfold reaches listening stepSound; decide +kernel), by decide +kernel, by decide +kernel, by decide +kernel,
    by decide +kernel, ok_eq (by decide +kernel), by decide +kernel⟩

set_option maxRecDepth 100000 in
theorem test_RemoteGathersAndTargetsAnswered_8 : ∃ (s : State) (x : Txn) (i : Nat) (tid : Nat) (key : Nat) (row : List Nat)
    (tg : Target), reaches x i s.m ∧ x.body = .scatter tid key row ∧ targetOf s.m i tid = .ok tg ∧ tg.closed = false ∧ sgKind
    tg.desc.v = 1 :=
  ⟨inStep (fun m0 => let m := withGs m0; { m with targets := [(8, ({ desc := mkPair 512 (2 ^ 491 + 16 * 2 ^ 478) } : Target))] }),
    fresh 4 0 (.scatter 8 77 [1]), 0, 8, 77, [1], ({ desc := mkPair 512 (2 ^ 491 + 16 * 2 ^ 478) } : Target),
    (by unfold reaches listening stepSound; decide +kernel), by decide +kernel, ok_eq (by decide +kernel), by decide +kernel,
    by decide +kernel⟩

set_option maxRecDepth 100000 in
theorem test_RemoteGathersAndTargetsAnswered_9 : ∃ (s : State) (x : Txn) (i : Nat) (tid : Nat) (key : Nat) (row : List Nat)
    (tg : Target) (v : _), reaches x i s.m ∧ x.body = .scatter tid key row ∧ targetOf s.m i tid = .ok tg ∧ tg.closed = false ∧
    sgKind tg.desc.v = 0 ∧ objById s.m.mem tid = some v ∧ rightCheck s.m.mem i ((objSpan v).1 + tg.bound * a64 (8 + 4 * (sgWidth
    tg.desc.v)) + ((tg.log.findIdx? (fun y => y.1 == key && decide (y.2.length < (sgWidth tg.desc.v)))).getD tg.log.length) * a64
    (24 + 4 * (sgWidth tg.desc.v))) (leBytes 24 key ++ ((tg.log.getD ((tg.log.findIdx? (fun y => y.1 == key && decide (y.2.length
    < (sgWidth tg.desc.v)))).getD tg.log.length) (0, [])).2 ++ row.map F32.canon).flatMap (leBytes 4)).length = 0 :=
  ⟨inStep (fun m0 => let m := withGs m0; { m with targets := [(8, ({ desc := mkPair 512 (16 * 2 ^ 478) } : Target))] }), fresh 4
    0 (.scatter 8 77 [1]), 0, 8, 77, [1], ({ desc := mkPair 512 (16 * 2 ^ 478) } : Target), objAtPage 8 3 1 5 0 0,
    (by unfold reaches listening stepSound; decide +kernel), by decide +kernel, ok_eq (by decide +kernel), by decide +kernel,
    by decide +kernel, by decide +kernel, by decide +kernel⟩

set_option maxRecDepth 100000 in
theorem test_RemoteGathersAndTargetsAnswered_10 : ∃ (s : State) (x : Txn) (i : Nat) (tid : Nat) (key : Nat) (row : List Nat)
    (tg : Target), reaches x i s.m ∧ x.body = .scatter tid key row ∧ targetOf s.m i tid = .ok tg ∧ tg.closed = true ∧ notifies
    s.m.dev.st = true ∧ beforeReady s.m i :=
  ⟨inStep (fun m0 => let m := withCore 0 0 (setRing 0 { desc := (ringFor 3) }) (withGs m0); { m with targets := [(8, ({ desc := mkPair 512 (16 * 2 ^ 478 + 2 ^ 462), closed := true, log := [(2 ^ 128, [0])] } : Target))] }),
    fresh 4 0 (.scatter 8 77 [1]), 0, 8, 77, [1],
    ({ desc := mkPair 512 (16 * 2 ^ 478 + 2 ^ 462), closed := true, log := [(2 ^ 128, [0])] } : Target),
    (by unfold reaches listening stepSound; decide +kernel), by decide +kernel, ok_eq (by decide +kernel), by decide +kernel,
    by decide +kernel, (by unfold beforeReady; decide +kernel)⟩

set_option maxRecDepth 100000 in
theorem test_RemoteGathersAndTargetsAnswered_11 : ∃ (s : State) (x : Txn) (i : Nat) (tid : Nat) (a : Nat) (b : Nat) (c : Nat)
    (tg : Target), reaches x i s.m ∧ x.body = .scatterEnd tid a b c ∧ targetOf s.m i tid = .ok tg ∧ tg.closed = false :=
  ⟨inStep withGs, fresh 5 0 (.scatterEnd 8 1 0 0), 0, 8, 1, 0, 0, ({ desc := mkPair 512 (16 * 2 ^ 478 + 2 ^ 462) } : Target),
    (by unfold reaches listening stepSound; decide +kernel), by decide +kernel, ok_eq (by decide +kernel), by decide +kernel⟩

set_option maxRecDepth 100000 in
theorem test_RemoteGathersAndTargetsAnswered_12 : ∃ (s : State) (i : Nat) (tid : Nat) (v : Nat) (tg : Target), targetOf s.m i
    tid = .ok tg ∧ objById s.m.mem tid = some v ∧ tg.closed = true ∧ tg.written = false ∧ inPass (ctxAt s.m i) = true ∧ ringTakes
    .target (ringAt (coreAt s.m (sgCore tg.desc.v)) (sgRing tg.desc.v)) ∧ (∀ x ∈ tg.log, x.2.length = (sgWidth tg.desc.v)) ∧
    sgKind tg.desc.v = 0 ∧ rightCheck s.m.mem i ((objSpan v).1) (((segmentAdd (sortBy (fun a b => decide (a.1 ≤ b.1))
    tg.log)).length + 1) * a64 (8 + 4 * (sgWidth tg.desc.v))) = 0 :=
  ⟨inStep (fun m0 => let m := withCore 0 0 (setRing 0 { desc := ringFor 2 }) (withGs m0); { m with targets := [(8, ({ desc := mkPair 512 (16 * 2 ^ 478 + 2 ^ 462), closed := true, log := [(2 ^ 128, List.replicate 16 0)] } : Target))] }),
    0, 8, objAtPage 8 3 1 5 0 0,
    ({ desc := mkPair 512 (16 * 2 ^ 478 + 2 ^ 462), closed := true, log := [(2 ^ 128, List.replicate 16 0)] } : Target),
    ok_eq (by decide +kernel), by decide +kernel, by decide +kernel, by decide +kernel, by decide +kernel,
    (by unfold ringTakes; decide +kernel), by decide +kernel, by decide +kernel, by decide +kernel⟩

set_option maxRecDepth 100000 in
theorem test_RemoteGathersAndTargetsAnswered_13 : ∃ (s : State) (i : Nat) (tid : Nat) (v : Nat) (tg : Target), targetOf s.m i
    tid = .ok tg ∧ objById s.m.mem tid = some v ∧ tg.closed = true ∧ tg.written = false ∧ inPass (ctxAt s.m i) = true ∧ ringTakes
    .target (ringAt (coreAt s.m (sgCore tg.desc.v)) (sgRing tg.desc.v)) ∧ (∀ x ∈ tg.log, x.2.length = (sgWidth tg.desc.v)) ∧
    sgKind tg.desc.v = 1 ∧ (∀ x ∈ (segmentAdd (sortBy (fun a b => decide (a.1 ≤ b.1)) tg.log)), x.1 < (((objSpan v).2 - ((objSpan
    v).1)) / a64 (4 * (sgWidth tg.desc.v)))) ∧ (∀ k, k < (((objSpan v).2 - ((objSpan v).1)) / a64 (4 * (sgWidth tg.desc.v))) →
    rightCheck s.m.mem i (((objSpan v).1) + k * a64 (4 * (sgWidth tg.desc.v))) (4 * (sgWidth tg.desc.v)) = 0) :=
  ⟨inStep (fun m0 => let m := withCore 0 0 (setRing 0 { desc := ringFor 2 }) (withGs m0); { m with targets := [(8, ({ desc := mkPair 512 (2 ^ 491 + 4096 * 2 ^ 478 + 2 ^ 462), closed := true, log := [(127 * 2 ^ 128, List.replicate 4096 0)] } : Target))] }),
    0, 8, objAtPage 8 3 1 5 0 0,
    ({ desc := mkPair 512 (2 ^ 491 + 4096 * 2 ^ 478 + 2 ^ 462), closed := true, log := [(127 * 2 ^ 128, List.replicate 4096 0)] }
    : Target), ok_eq (by decide +kernel), by decide +kernel, by decide +kernel, by decide +kernel, by decide +kernel,
    (by unfold ringTakes; decide +kernel), by decide +kernel, by decide +kernel, by decide +kernel, by decide +kernel⟩

set_option maxRecDepth 100000 in
theorem test_RemoteGathersAndTargetsAnswered_14 : ∃ (s : State) (i : Nat) (tid : Nat) (v : Nat) (tg : Target) (x : Nat × List
    Nat), targetOf s.m i tid = .ok tg ∧ objById s.m.mem tid = some v ∧ tg.closed = true ∧ tg.written = false ∧ inPass (ctxAt s.m
    i) = true ∧ ringTakes .target (ringAt (coreAt s.m (sgCore tg.desc.v)) (sgRing tg.desc.v)) ∧ (∀ x ∈ tg.log, x.2.length =
    (sgWidth tg.desc.v)) ∧ sgKind tg.desc.v = 1 ∧ i < 16 ∧ x ∈ (segmentAdd (sortBy (fun a b => decide (a.1 ≤ b.1)) tg.log)) ∧
    (((objSpan v).2 - ((objSpan v).1)) / a64 (4 * (sgWidth tg.desc.v))) ≤ x.1 :=
  ⟨inStep (fun m0 => let m := withCore 0 0 (setRing 0 { desc := ringFor 2 }) (withGs m0); { m with targets := [(8, ({ desc := mkPair 512 (2 ^ 491 + 4096 * 2 ^ 478 + 2 ^ 462), closed := true, log := [(128 * 2 ^ 128, List.replicate 4096 0)] } : Target))] }),
    0, 8, objAtPage 8 3 1 5 0 0,
    ({ desc := mkPair 512 (2 ^ 491 + 4096 * 2 ^ 478 + 2 ^ 462), closed := true, log := [(128 * 2 ^ 128, List.replicate 4096 0)] }
    : Target), (128, List.replicate 4096 0), ok_eq (by decide +kernel), by decide +kernel, by decide +kernel, by decide +kernel,
    by decide +kernel, (by unfold ringTakes; decide +kernel), by decide +kernel, by decide +kernel, by decide +kernel,
    by decide +kernel, by decide +kernel⟩

set_option maxRecDepth 100000 in
theorem test_TierEventsAct_1 : ∃ (s : State) (vpn : Nat) (g : Mig), s.m.mem.migs.find? (fun g => g.vpn == vpn && !g.copied) =
    some g ∧ copyDone g = false :=
  ⟨inStep (fun m0 => let m := withGs m0; { m with mem := { m.mem with migs := [({ vpn := 3, srcTier := 1, srcFrame := 7, dstTier := 0, dstFrame := 9, begun := true, fetched := false, stored := false } : Mig)] } }),
    3, ({ vpn := 3, srcTier := 1, srcFrame := 7, dstTier := 0, dstFrame := 9, begun := true, fetched := false, stored := false } :
    Mig), by decide +kernel⟩

set_option maxRecDepth 100000 in
theorem test_TierEventsAct_1b : ∃ (s : State) (vpn : Nat) (g : Mig), s.m.mem.migs.find? (fun g => g.vpn == vpn && !g.copied) =
    some g ∧ copyDone g = false :=
  ⟨inStep (fun m0 => let m := withGs m0; { m with mem := { m.mem with migs := [({ vpn := 3, srcTier := 0, srcFrame := 7, dstTier := 1, dstFrame := 9, begun := true, fetched := false, stored := false } : Mig)] } }),
    3, ({ vpn := 3, srcTier := 0, srcFrame := 7, dstTier := 1, dstFrame := 9, begun := true, fetched := false, stored := false } :
    Mig), by decide +kernel⟩

set_option maxRecDepth 100000 in
theorem test_TierEventsAct_2 : ∃ (s : State) (vpn : Nat) (g : Mig), s.m.mem.migs.find? (fun g => g.vpn == vpn && !g.copied) =
    some g ∧ copyDone g = true :=
  ⟨inStep (fun m0 => let m := withGs m0; { m with mem := { m.mem with migs := [({ vpn := 3, srcTier := 1, srcFrame := 7, dstTier := 0, dstFrame := 9, begun := true, fetched := true, stored := false } : Mig)] } }),
    3, ({ vpn := 3, srcTier := 1, srcFrame := 7, dstTier := 0, dstFrame := 9, begun := true, fetched := true, stored := false } :
    Mig), by decide +kernel⟩

set_option maxRecDepth 100000 in
theorem test_TierEventsAct_2b : ∃ (s : State) (vpn : Nat) (g : Mig), s.m.mem.migs.find? (fun g => g.vpn == vpn && !g.copied) =
    some g ∧ copyDone g = true :=
  ⟨inStep (fun m0 => let m := withGs m0; { m with mem := { m.mem with migs := [({ vpn := 3, srcTier := 0, srcFrame := 7, dstTier := 1, dstFrame := 9, begun := true, fetched := false, stored := true } : Mig)] } }),
    3, ({ vpn := 3, srcTier := 0, srcFrame := 7, dstTier := 1, dstFrame := 9, begun := true, fetched := false, stored := true } :
    Mig), by decide +kernel⟩

theorem test_TierEventsAct_3 : ∃ (s : State) (id : Nat) (w : TierWrite), s.m.mem.writes.find? (fun x => x.id == id) = some w ∧
    writeCurrent s.m w = true ∧ s.m.mem.heldReads = [] ∧ w.mig = none :=
  ⟨inStep (fun m =>
    { m with mem := { m.mem with writes := [({ id := 4, ctx := 0, region := 0, step := 4, replay := 0 } : TierWrite)] } }), 4,
    ({ id := 4, ctx := 0, region := 0, step := 4, replay := 0 } : TierWrite), by decide⟩

set_option maxRecDepth 100000 in
theorem test_TierEventsAct_4 : ∃ (s : State) (id : Nat) (w : TierWrite) (v : _), s.m.mem.writes.find? (fun x => x.id == id) =
    some w ∧ writeCurrent s.m w = true ∧ s.m.mem.heldReads = [] ∧ w.mig = some v :=
  ⟨inStep (fun m0 => let m := withGs m0; { m with mem := { m.mem with migs := [({ vpn := 3, srcTier := 0, srcFrame := 7, dstTier := 1, dstFrame := 9, begun := true, fetched := false, stored := false } : Mig)], writes := [({ id := 4, ctx := 0, region := 0, step := 4, replay := 0, mig := some 3 } : TierWrite)] } }),
    4, ({ id := 4, ctx := 0, region := 0, step := 4, replay := 0, mig := some 3 } : TierWrite), 3, by decide +kernel⟩

theorem test_TierEventsAct_5 : ∃ (s : State) (id : Nat) (w : TierWrite), s.m.mem.writes.find? (fun x => x.id == id) = some w ∧
    writeCurrent s.m w = true ∧ s.m.mem.heldReads = [] ∧ w.mig = none ∧ w.ctx < 16 ∧ (ctxAt s.m w.ctx).st ≠ .halt ∧ (ctxAt s.m
    w.ctx).st ≠ .free :=
  ⟨inStep (fun m =>
    { m with mem := { m.mem with writes := [({ id := 4, ctx := 0, region := 0, step := 4, replay := 0 } : TierWrite)] } }), 4,
    ({ id := 4, ctx := 0, region := 0, step := 4, replay := 0 } : TierWrite), by decide⟩

theorem test_TierEventsAct_6 : ∃ (s : State) (k : Nat), s.m.mem.lostRegions.contains k = true :=
  ⟨base .run (fun m => { m with mem := { m.mem with lostRegions := [7] } }), 7, by decide⟩

theorem test_TierEventsAct_7 : ∃ (s : State) (k : Nat), s.m.mem.lostRegions.contains k = false ∧ (regionAt s.m k).kind ≠ 0 ∧
    notifies s.m.dev.st = true :=
  ⟨base .ready (fun m =>
    { m with mgmt := { m.mgmt with dict := [(dkey 0x4000 0x17, (leBytes 13 (2 ^ 96) ++ leBytes 3 0, cplBytes (leBytes 13 (2 ^ 96) ++ leBytes 3 0)))] } }),
    7, by decide⟩

set_option maxRecDepth 100000 in
theorem test_PublishesAndRefreshGoOn_1 : ∃ (s : State) (v : List Byte), writeState s.m.dev.st = 0 ∧ storedOk s.m 0x4100 0x10 ∧
    v.length = 66 ∧ ((liveVersions (tabAt s.m (octs v 0 2))).length < 2) ∧ ¬(if (ctxAt s.m (tdCtx (octs v 2 64))).st = .run then
    tdEff (octs v 2 64) ≤ (ctxAt s.m (tdCtx (octs v 2 64))).step else tdEff (octs v 2 64) < (ctxAt s.m (tdCtx (octs v 2
    64))).step) ∧ publishFields s.m (octs v 0 2) (octs v 2 64) = true ∧ publishLimits s.m (octs v 0 2) (octs v 2 64) = true :=
  ⟨base .ready withTables, leBytes 2 7 ++ leBytes 64 (tabD 1 5), by decide +kernel, stored_ok (by decide +kernel),
    by decide +kernel, by decide +kernel, by decide +kernel, by decide +kernel, by decide +kernel⟩

set_option maxRecDepth 100000 in
theorem test_PublishesAndRefreshGoOn_2 : ∃ (s : State) (v : List Byte), writeState s.m.dev.st = 0 ∧ storedOk s.m 0x4100 0x10 ∧
    v.length = 66 ∧ ¬((liveVersions (tabAt s.m (octs v 0 2))).length < 2) :=
  ⟨base .ready (withTab (tabD 1 5) (fun t => { t with pend := some (mkPair 512 (tabD 2 6)) })), leBytes 2 7 ++ leBytes 64 (tabD
    3 7), by decide +kernel, stored_ok (by decide +kernel), by decide +kernel, by decide +kernel⟩

set_option maxRecDepth 100000 in
theorem test_PublishesAndRefreshGoOn_3 : ∃ (s : State) (v : List Byte), writeState s.m.dev.st = 0 ∧ storedOk s.m 0x4100 0x10 ∧
    v.length = 66 ∧ ((liveVersions (tabAt s.m (octs v 0 2))).length < 2) ∧ (if (ctxAt s.m (tdCtx (octs v 2 64))).st = .run then
    tdEff (octs v 2 64) ≤ (ctxAt s.m (tdCtx (octs v 2 64))).step else tdEff (octs v 2 64) < (ctxAt s.m (tdCtx (octs v 2
    64))).step) :=
  ⟨inStep withTables, leBytes 2 7 ++ leBytes 64 (tabD 1 4), by decide +kernel, stored_ok (by decide +kernel), by decide +kernel,
    by decide +kernel, by decide +kernel⟩

set_option maxRecDepth 100000 in
theorem test_PublishesAndRefreshGoOn_4 : ∃ (s : State) (v : List Byte), writeState s.m.dev.st = 0 ∧ storedOk s.m 0x4100 0x10 ∧
    v.length = 66 ∧ ((liveVersions (tabAt s.m (octs v 0 2))).length < 2) ∧ ¬(if (ctxAt s.m (tdCtx (octs v 2 64))).st = .run then
    tdEff (octs v 2 64) ≤ (ctxAt s.m (tdCtx (octs v 2 64))).step else tdEff (octs v 2 64) < (ctxAt s.m (tdCtx (octs v 2
    64))).step) ∧ publishFields s.m (octs v 0 2) (octs v 2 64) = false :=
  ⟨inStep withTables, leBytes 2 7 ++ leBytes 64 (tabD 1 5 + 2 ^ 382), by decide +kernel, stored_ok (by decide +kernel),
    by decide +kernel, by decide +kernel, by decide +kernel, by decide +kernel⟩

set_option maxRecDepth 100000 in
theorem test_PublishesAndRefreshGoOn_5 : ∃ (s : State) (v : List Byte), writeState s.m.dev.st = 0 ∧ storedOk s.m 0x4100 0x10 ∧
    v.length = 66 ∧ ((liveVersions (tabAt s.m (octs v 0 2))).length < 2) ∧ ¬(if (ctxAt s.m (tdCtx (octs v 2 64))).st = .run then
    tdEff (octs v 2 64) ≤ (ctxAt s.m (tdCtx (octs v 2 64))).step else tdEff (octs v 2 64) < (ctxAt s.m (tdCtx (octs v 2
    64))).step) ∧ publishFields s.m (octs v 0 2) (octs v 2 64) = true ∧ publishLimits s.m (octs v 0 2) (octs v 2 64) = false :=
  ⟨base .ready (fun m => withTables { m with tables := (List.range 256).map (fun k => (k + 100, { cur := some {} })) }), leBytes
    2 7 ++ leBytes 64 (tabD 1 5), by decide +kernel, stored_ok (by decide +kernel), by decide +kernel, by decide +kernel,
    by decide +kernel, by decide +kernel, by decide +kernel⟩

set_option maxRecDepth 100000 in
theorem test_PublishesAndRefreshGoOn_6 : ∃ (s : State) (v : List Byte) (m1 : _), writeState s.m.dev.st = 0 ∧ storedOk s.m
    0x4100 0x11 ∧ v.length = 16 ∧ postPlan v s.m = .ok m1 :=
  ⟨base .ready (fun m0 => let m := withTab (tabD 1 0) (fun t => { t with awaiting := some (4, 1) }) m0; { m with mem := vput (3 * 2 ^ 21 + 2 ^ 20) (leBytes 2 1 ++ leBytes 2 7 ++ leBytes 4 0 ++ leBytes 8 4 ++ leBytes 4 1 ++ leBytes 44 0) m.mem }),
    leBytes 2 7 ++ leBytes 6 0 ++ leBytes 8 (3 * 2 ^ 21 + 2 ^ 20),
    (match postPlan (leBytes 2 7 ++ leBytes 6 0 ++ leBytes 8 (3 * 2 ^ 21 + 2 ^ 20)) (base .ready (fun m0 => let m := withTab (tabD 1 0) (fun t => { t with awaiting := some (4, 1) }) m0; { m with mem := vput (3 * 2 ^ 21 + 2 ^ 20) (leBytes 2 1 ++ leBytes 2 7 ++ leBytes 4 0 ++ leBytes 8 4 ++ leBytes 4 1 ++ leBytes 44 0) m.mem })).m with | .ok m => m | .error _ => {}),
    by decide +kernel, stored_ok (by decide +kernel), by decide +kernel, ok_eq (by decide +kernel)⟩

set_option maxRecDepth 100000 in
theorem test_PublishesAndRefreshGoOn_7 : ∃ (s : State) (v : List Byte) (code : _), writeState s.m.dev.st = 0 ∧ storedOk s.m
    0x4100 0x11 ∧ v.length = 16 ∧ postPlan v s.m = .error code ∧ code ≠ 0 :=
  ⟨base .ready (fun m0 => let m := withTab (tabD 1 0) (fun t => { t with awaiting := none }) m0; { m with mem := vput (3 * 2 ^ 21 + 2 ^ 20) (leBytes 2 1 ++ leBytes 2 7 ++ leBytes 4 0 ++ leBytes 8 4 ++ leBytes 4 1 ++ leBytes 44 0) m.mem }),
    leBytes 2 7 ++ leBytes 6 0 ++ leBytes 8 (3 * 2 ^ 21 + 2 ^ 20), 0x06200007, by decide +kernel, stored_ok (by decide +kernel),
    by decide +kernel, error_of (by decide +kernel), by decide +kernel⟩

set_option maxRecDepth 100000 in
theorem test_PublishesAndRefreshGoOn_8 : ∃ (s : State) (id : Nat) (slot : Nat) (cls : Nat) (va : Nat) (l : Nat) (p : Pair) (pl
    : Plan) (e : PlanEnt) (areas : List Nat) (counts : List Nat), (tabAt s.m id).cur = some p ∧ (tabAt s.m id).plan = some pl ∧
    pl.entries.find? (fun e => e.action == 1 && e.slot == slot && !e.copied) = some e ∧ pairOk 512 p.v p.c = true ∧ hotReady s.m
    p.v e = true ∧ (ctxAt s.m (tdCtx p.v)).st ≠ .halt ∧ rowPlace s.m p.v e.key = .ok (cls, va) ∧ hotHeader s.m p.v = .ok (l,
    areas, counts) ∧ readCheck s.m.mem va (rowBytesOf cls (tdWidth p.v)) = 0 ∧ readCheck s.m.mem (hotVa areas (tdWidth p.v) e.cls
    slot) (encodeRow e.cls (tdElem p.v) (srKeyTable (ctxAt s.m (tdCtx p.v)).seed (planKey s.m p.v pl) e.key (tdId p.v)) (decodeRow
    cls (tdWidth p.v) (tdElem p.v) (vget s.m.mem va (rowBytesOf cls (tdWidth p.v))))).length = 0 :=
  ⟨base .run (fun m0 => let m := withTab (tabD 1 0 + 2 * 2 ^ 379 + 2 * 2 ^ 270) (fun t => { t with plan := some (⟨4, [⟨0, 1, 2, 0, 0, false, false, false⟩]⟩ : Plan) }) m0; { m with mem := vput (2 * 2 ^ 21 + 4096) ((List.range 16).flatMap (fun _ => withCpl (leBytes 16 0))) (vput (2 * 2 ^ 21) (withCpl (leBytes 2 1 ++ leBytes 1 4 ++ leBytes 5 0 ++ leBytes 8 (2 ^ 21) ++ leBytes 8 (2 ^ 21 + 4096) ++ leBytes 8 (2 ^ 21 + 8192) ++ leBytes 4 8 ++ leBytes 4 8 ++ leBytes 4 8 ++ leBytes 20 0)) m.mem) }),
    7, 0, 1, 2 ^ 21, 4, mkPair 512 (tabD 1 0 + 2 * 2 ^ 379 + 2 * 2 ^ 270), (⟨4, [⟨0, 1, 2, 0, 0, false, false, false⟩]⟩ : Plan),
    (⟨0, 1, 2, 0, 0, false, false, false⟩ : PlanEnt), [2 ^ 21, 2 ^ 21 + 4096, 2 ^ 21 + 8192], [8, 8, 8], by decide +kernel,
    by decide +kernel, by decide +kernel, ⟨by decide +kernel, by decide +kernel, by decide +kernel, ok_eq (by decide +kernel),
    ok_eq (by decide +kernel), by decide +kernel, by decide +kernel⟩⟩

set_option maxRecDepth 100000 in
theorem test_PublishesAndRefreshGoOn_9 : ∃ (s : State) (id : Nat) (slot : Nat) (p : Pair) (pl : Plan) (e : PlanEnt), (tabAt
    s.m id).cur = some p ∧ (tabAt s.m id).plan = some pl ∧ pl.entries.find? (fun e => e.action == 1 && e.slot == slot &&
    !e.copied) = some e ∧ pairOk 512 p.v p.c = true ∧ hotReady s.m p.v e = false :=
  ⟨base .run (fun m0 => let m := lowRows (withTab (tabD 1 0 + 2 * 2 ^ 379 + 2 * 2 ^ 270) (fun t => { t with plan := some (⟨4, [⟨0, 1, 2, 0, 0, false, false, false⟩]⟩ : Plan) }) m0); { m with mem := vput (2 * 2 ^ 21 + 4096) ((List.range 16).flatMap (fun _ => withCpl (leBytes 16 0))) (vput (2 * 2 ^ 21) (withCpl (leBytes 2 1 ++ leBytes 1 4 ++ leBytes 5 0 ++ leBytes 8 (2 ^ 21) ++ leBytes 8 (2 ^ 21 + 4096) ++ leBytes 8 (2 ^ 21 + 8192) ++ leBytes 4 8 ++ leBytes 4 8 ++ leBytes 4 8 ++ leBytes 20 0)) m.mem) }),
    7, 0, mkPair 512 (tabD 1 0 + 2 * 2 ^ 379 + 2 * 2 ^ 270), (⟨4, [⟨0, 1, 2, 0, 0, false, false, false⟩]⟩ : Plan), (⟨0, 1, 2, 0,
    0, false, false, false⟩ : PlanEnt), by decide +kernel⟩

set_option maxRecDepth 100000 in
theorem test_PublishesAndRefreshGoOn_11 : ∃ (s : State) (i : Nat), i < 16 ∧ (ctxAt s.m i).st = .run ∧ (ctxAt s.m
    i).pass.waitPlan = true ∧ planMissing s.m i = true :=
  ⟨base .run (fun m => withCtx 0
    { running with step := 1004, pass := { running := true, committed := true, quench := 0, waitPlan := true } } (withTab (tabD 1
    0) (fun t => { t with awaiting := some (1004 - dnum m 0x4100 0x08, 1) }) m)), 0, by decide +kernel⟩

set_option maxRecDepth 100000 in
theorem test_SinterCommandsRun_2 : ∃ (s : State) (cl : Nat) (k : Nat) (pc : Nat) (b : List Byte), (s.m.sinters.get cl {}).run
    = some ⟨k, pc, b⟩ ∧ tbit (sntOf b).done 7 = false :=
  ⟨inStep (fun m => withCore 0 0 (setRing 0 { desc := (ringFor 5) })
    { m with sinters := [(0, { run := some ⟨0, 0, (leBytes 1 3 ++ leBytes 1 4 ++ leBytes 1 1 ++ leBytes 1 1 ++ leBytes 4 1 ++ leBytes 8 64 ++ leBytes 8 4096 ++ leBytes 4 0 ++ leBytes 1 0 ++ leBytes 3 0)⟩ })] }),
    0, 0, 0, (leBytes 1 3 ++ leBytes 1 4 ++ leBytes 1 1 ++ leBytes 1 1 ++ leBytes 4 1 ++ leBytes 8 64 ++ leBytes 8 4096 ++ leBytes
    4 0 ++ leBytes 1 0 ++ leBytes 3 0), by decide +kernel⟩

set_option maxRecDepth 100000 in
theorem test_SinterCommandsRun_3 : ∃ (s : State) (cl : Nat) (k : Nat) (pc : Nat) (b : List Byte), (s.m.sinters.get cl {}).run
    = some ⟨k, pc, b⟩ ∧ tbit (sntOf b).done 7 = true ∧ ringTakes (.sinter cl) (ringAt (coreAt s.m k) ((sntOf b).done % 8)) :=
  ⟨inStep (fun m => withCore 0 0 (setRing 0 { desc := ringFor 4 })
    { m with sinters := [(0, { run := some ⟨0, 0, (leBytes 1 3 ++ leBytes 1 4 ++ leBytes 1 1 ++ leBytes 1 1 ++ leBytes 4 1 ++ leBytes 8 64 ++ leBytes 8 4096 ++ leBytes 4 0 ++ leBytes 1 128 ++ leBytes 3 0)⟩ })] }),
    0, 0, 0, (leBytes 1 3 ++ leBytes 1 4 ++ leBytes 1 1 ++ leBytes 1 1 ++ leBytes 4 1 ++ leBytes 8 64 ++ leBytes 8 4096 ++ leBytes
    4 0 ++ leBytes 1 128 ++ leBytes 3 0), by decide +kernel, by decide +kernel, (by unfold ringTakes; decide +kernel)⟩

set_option maxRecDepth 100000 in
theorem test_CollectivesTaken_1 : ∃ (s : State) (x : Txn) (i : Nat) (k : Nat), reaches x i s.m ∧ i < 16 ∧ bucketIx s.m i
    (collFields x).1 = some k ∧ bucketsOk s.m i = true ∧ (collFields x).2.1 + (collFields x).2.2 ≤ bdBlocks (bucketAt s.m i
    k).desc.v ∧ (∀ j, j < ((collFields x).2.2) → ownBlock s.m i k (((collFields x).2.1) + j) = true → rightCheck s.m.mem i (recvVa
    s.m i ((bucketAt s.m i k).desc.v) (senderRank s.m i x) (((collFields x).2.1) + j)) (slice (rawOf x) (72 * j) 72).length = 0)
    :=
  ⟨base .run withBucket, fresh 8 (1 * 2 ^ 60 + 2 ^ 36 + 1) (.raw (List.replicate 128 1#8)), 0, 0,
    (by unfold reaches listening stepSound; decide +kernel), by decide +kernel, by decide +kernel, by decide +kernel,
    by decide +kernel, by decide +kernel⟩

set_option maxRecDepth 100000 in
theorem test_CollectivesTaken_2 : ∃ (s : State) (x : Txn) (i : Nat) (k : Nat), reaches x i s.m ∧ i < 16 ∧ bucketIx s.m i
    (collFields x).1 = some k ∧ bucketsOk s.m i = true ∧ (collFields x).2.1 + (collFields x).2.2 ≤ bdBlocks (bucketAt s.m i
    k).desc.v ∧ (∀ j, j < ((collFields x).2.2) → bdF32 ((bucketAt s.m i k).desc.v) = false → rightCheck s.m.mem i (bdResult
    ((bucketAt s.m i k).desc.v) + 128 * (((collFields x).2.1) + j)) (slice (rawOf x) ((2 * ((collFields x).2.2) + 15) / 16 * 16 +
    128 * j) 128).length = 0) :=
  ⟨base .run withBucket, fresh 8 (2 * 2 ^ 60 + 2 ^ 36 + 1) (.raw (List.replicate 128 1#8)), 0, 0,
    (by unfold reaches listening stepSound; decide +kernel), by decide +kernel, by decide +kernel, by decide +kernel,
    by decide +kernel, by decide +kernel⟩

set_option maxRecDepth 100000 in
theorem test_CollectivesTaken_3 : ∃ (s : State) (x : Txn) (i : Nat) (k : Nat), reaches x i s.m ∧ i < 16 ∧ bucketIx s.m i
    (collFields x).1 = some k ∧ bucketsOk s.m i = true ∧ (collFields x).2.1 + (collFields x).2.2 ≤ bdBlocks (bucketAt s.m i
    k).desc.v :=
  ⟨base .run withBucket, fresh 8 (3 * 2 ^ 60 + 2 ^ 36 + 1) (.raw (List.replicate 128 1#8)), 0, 0,
    (by unfold reaches listening stepSound; decide +kernel), by decide +kernel, by decide +kernel, by decide +kernel,
    by decide +kernel⟩

set_option maxRecDepth 100000 in
theorem test_CollectivesTaken_4 : ∃ (s : State) (x : Txn) (i : Nat) (d : Nat × Nat), reaches x i s.m ∧ i < 16 ∧ (normScope s.m
    i).find? (fun d => d.2 == x.src) = some d :=
  ⟨base .run withBucket, fresh 8 (4 * 2 ^ 60) (.raw (leBytes 8 5 ++ leBytes 8 6)), 0, (0, 0),
    (by unfold reaches listening stepSound; decide +kernel), by decide +kernel, by decide +kernel⟩

theorem test_ExchangeCompletes_1 : ∃ (s : State) (i : Nat), beforeReady s.m i ∧ (ctxAt s.m i).pass.xDone = false ∧ bucketsOk
    s.m i = true ∧ xReady s.m i = true ∧ noticesSound s.m i ∧ normApart s.m i ∧ ((ctxAt s.m i).gey).calibPass = true :=
  ⟨base .run (withCtx 0 { running with gey := { calibPass := true } }), 0, (by unfold beforeReady; decide), by decide,
    by decide, by decide, (by unfold noticesSound; decide), norm_apart (by decide +kernel), by decide⟩

set_option maxRecDepth 100000 in
theorem test_ExchangeCompletes_2 : ∃ (s : State) (i : Nat) (pend : _), beforeReady s.m i ∧ (ctxAt s.m i).pass.xDone = false ∧
    bucketsOk s.m i = true ∧ xReady s.m i = true ∧ noticesSound s.m i ∧ normApart s.m i ∧ ((ctxAt s.m i).gey).calibPass = false ∧
    (dlat s.m (ctxAt s.m i) 0x5100 0x06 < ((flagged s.m i).length)) ∧ ((ctxAt s.m i).pass.satRepeats < dlat s.m (ctxAt s.m i)
    0x5100 0x07) ∧ saturation s.m i = .ok pend :=
  ⟨base .run (fun m => withEntry 0x5100 6 2 0 (withEntry 0x5100 7 1 1 (onMem (vput (2 ^ 21 + 3) [0xFF#8]) (withBucket (fun b =>
    { b with desc := mkPair 256 (b.desc.v + 2 ^ 21 * 2 ^ 30), glob := [(0, (3, 1))] }) m)))), 0, [(0, 0, 1)],
    (by unfold beforeReady; decide +kernel), by decide +kernel, by decide +kernel, by decide +kernel,
    (by unfold noticesSound; decide +kernel), norm_apart (by decide +kernel), by decide +kernel, by decide +kernel,
    by decide +kernel, ok_eq (by decide +kernel)⟩

set_option maxRecDepth 100000 in
theorem test_ExchangeCompletes_3 : ∃ (s : State) (i : Nat), beforeReady s.m i ∧ (ctxAt s.m i).pass.xDone = false ∧ bucketsOk
    s.m i = true ∧ xReady s.m i = true ∧ noticesSound s.m i ∧ normApart s.m i ∧ ((ctxAt s.m i).gey).calibPass = false ∧ (dlat s.m
    (ctxAt s.m i) 0x5100 0x06 < ((flagged s.m i).length)) ∧ ((ctxAt s.m i).pass.satRepeats < dlat s.m (ctxAt s.m i) 0x5100 0x07) ∧
    saturation s.m i = .error 0x0A01 ∧ notifies s.m.dev.st = true :=
  ⟨base .run (fun m => withEntry 0x5100 6 2 0 (withEntry 0x5100 7 1 1 (id (withBucket (fun b =>
    { b with desc := mkPair 256 (b.desc.v + 2 ^ 21 * 2 ^ 30), glob := [(0, (3, 1))] }) m)))), 0,
    (by unfold beforeReady; decide +kernel), by decide +kernel, by decide +kernel, by decide +kernel,
    (by unfold noticesSound; decide +kernel), norm_apart (by decide +kernel), by decide +kernel, by decide +kernel,
    by decide +kernel, error_of (by decide +kernel), by decide +kernel⟩

set_option maxRecDepth 100000 in
theorem test_ExchangeCompletes_4 : ∃ (s : State) (i : Nat), beforeReady s.m i ∧ (ctxAt s.m i).pass.xDone = false ∧ bucketsOk
    s.m i = true ∧ xReady s.m i = true ∧ noticesSound s.m i ∧ normApart s.m i ∧ ((ctxAt s.m i).gey).calibPass = false ∧ ¬((dlat
    s.m (ctxAt s.m i) 0x5100 0x06 < ((flagged s.m i).length)) ∧ ((ctxAt s.m i).pass.satRepeats < dlat s.m (ctxAt s.m i) 0x5100
    0x07)) :=
  ⟨base .run (fun m => withEntry 0x5100 6 2 0 (withEntry 0x5100 7 1 1 (id (withBucket (fun b =>
    { b with desc := mkPair 256 (b.desc.v + 2 ^ 21 * 2 ^ 30), glob := [(0, (3, 0))] }) m)))), 0,
    (by unfold beforeReady; decide +kernel), by decide +kernel, by decide +kernel, by decide +kernel,
    (by unfold noticesSound; decide +kernel), norm_apart (by decide +kernel), by decide +kernel, by decide +kernel⟩

set_option maxRecDepth 100000 in
theorem test_ExchangeCompletes_4b : ∃ (s : State) (i : Nat), beforeReady s.m i ∧ (ctxAt s.m i).pass.xDone = false ∧ bucketsOk
    s.m i = true ∧ xReady s.m i = true ∧ noticesSound s.m i ∧ normApart s.m i ∧ ((ctxAt s.m i).gey).calibPass = false ∧ ¬((dlat
    s.m (ctxAt s.m i) 0x5100 0x06 < ((flagged s.m i).length)) ∧ ((ctxAt s.m i).pass.satRepeats < dlat s.m (ctxAt s.m i) 0x5100
    0x07)) :=
  ⟨base .run (fun m => withEntry 0x5100 6 2 0 (withEntry 0x5100 7 1 0 (id (withBucket (fun b =>
    { b with desc := mkPair 256 (b.desc.v + 2 ^ 21 * 2 ^ 30), glob := [(0, (3, 1))] }) m)))), 0,
    (by unfold beforeReady; decide +kernel), by decide +kernel, by decide +kernel, by decide +kernel,
    (by unfold noticesSound; decide +kernel), norm_apart (by decide +kernel), by decide +kernel, by decide +kernel⟩

set_option maxRecDepth 100000 in
theorem test_ExchangeCompletes_4c : ∃ (s : State) (i : Nat), beforeReady s.m i ∧ (ctxAt s.m i).pass.xDone = false ∧ bucketsOk
    s.m i = true ∧ xReady s.m i = true ∧ noticesSound s.m i ∧ normApart s.m i ∧ ((ctxAt s.m i).gey).calibPass = false ∧ ¬((dlat
    s.m (ctxAt s.m i) 0x5100 0x06 < ((flagged s.m i).length)) ∧ ((ctxAt s.m i).pass.satRepeats < dlat s.m (ctxAt s.m i) 0x5100
    0x07)) :=
  ⟨inStep (fun m => withCtx 0 { running with gey := { header := mkPair 512 (2 ^ 22 * 2 ^ 64 + 1), norms := [(0, (0, 0))] } }
    (withTwo m)), 0, (by unfold beforeReady; decide +kernel), by decide +kernel, by decide +kernel, by decide +kernel,
    (by unfold noticesSound; decide +kernel), norm_apart (by decide +kernel), by decide +kernel, by decide +kernel⟩

set_option maxRecDepth 100000 in
theorem test_ExchangeCompletes_4d : ∃ (s : State) (i : Nat), beforeReady s.m i ∧ (ctxAt s.m i).pass.xDone = false ∧ bucketsOk
    s.m i = true ∧ xReady s.m i = true ∧ noticesSound s.m i ∧ normApart s.m i ∧ ((ctxAt s.m i).gey).calibPass = false ∧ ¬((dlat
    s.m (ctxAt s.m i) 0x5100 0x06 < ((flagged s.m i).length)) ∧ ((ctxAt s.m i).pass.satRepeats < dlat s.m (ctxAt s.m i) 0x5100
    0x07)) :=
  ⟨inStep (fun m => withCtx 0 { running with noticeVa := 2 ^ 21, noticeCount := 1 } (withCore 0 0 (setRing 0
    { desc := ringFor 7 }) (withObj 5 0 0 m))), 0, (by unfold beforeReady; decide +kernel), by decide +kernel, by decide +kernel,
    by decide +kernel, (by unfold noticesSound; decide +kernel), norm_apart (by decide +kernel), by decide +kernel,
    by decide +kernel⟩

set_option maxRecDepth 100000 in
theorem test_ExchangeCompletes_5 : ∃ (s : State) (i : Nat), i < 16 ∧ (ctxAt s.m i).st = .run ∧ (ctxAt s.m i).pass.running =
    true ∧ (ctxAt s.m i).pass.xDone = false ∧ (ctxAt s.m i).pass.aborted = true ∧ (ctxAt s.m i).pass.waitX = true ∧ bucketsOk s.m
    i = true ∧ xReady s.m i = true :=
  ⟨base .run (withCtx 0 { running with pass := { running := true, aborted := true, waitX := true } }), 0, by decide +kernel⟩

theorem test_WaitLimitsAct_1 : ∃ (s : State) (i : Nat), i < 16 ∧ (ctxAt s.m i).st = .run ∧ (ctxAt s.m i).pass.sentReady = true
    ∧ (ctxAt s.m i).pass.committed = false ∧ (ctxAt s.m i).pass.aborted = false :=
  ⟨base .run (withCtx 0 { running with pass := { running := true, sentReady := true } }), 0, by decide⟩

theorem test_WaitLimitsAct_2 : ∃ (s : State) (i : Nat), i < 16 ∧ (ctxAt s.m i).st = .run ∧ (ctxAt s.m i).pass.sentBegin = true
    ∧ (ctxAt s.m i).pass.running = false ∧ (ctxAt s.m i).pass.aborted = false :=
  ⟨base .run (withCtx 0 { running with pass := { sentBegin := true } }), 0, by decide⟩

theorem test_WaitLimitsAct_3 : ∃ (s : State) (i : Nat), beforeReady s.m i :=
  ⟨inStep, 0, (by unfold beforeReady; decide)⟩

set_option maxRecDepth 100000 in
theorem test_BarrierOpensAndStepsCommit_1 : ∃ (s : State) (x : Txn) (i : Nat), listening s.m ∧ ctxOfTag s.m x.jobTag = some i
    ∧ i < 16 ∧ (ctxAt s.m i).st ≠ .halt ∧ stepPairOk (ctxAt s.m i) = true ∧ stalePass (ctxAt s.m i) x = false ∧ slice (rawOf x) 0
    16 ≠ beginData (ctxAt s.m i) ∧ (ctxAt s.m i).st ≠ .free :=
  ⟨base .run (withCtx 0 { running with pass := { sentBegin := true } }), fresh 10 (2 ^ 60) (.raw (leBytes 64 1)), 0,
    (by unfold listening; decide +kernel), by decide +kernel, by decide +kernel, by decide +kernel, ⟨by decide +kernel,
    by decide +kernel, by decide +kernel, by decide +kernel⟩⟩

set_option maxRecDepth 100000 in
theorem test_BarrierOpensAndStepsCommit_2 : ∃ (s : State) (x : Txn) (i : Nat), listening s.m ∧ ctxOfTag s.m x.jobTag = some i
    ∧ i < 16 ∧ (ctxAt s.m i).st ≠ .halt ∧ stepPairOk (ctxAt s.m i) = true ∧ stalePass (ctxAt s.m i) x = false ∧ slice (rawOf x) 0
    16 = beginData (ctxAt s.m i) ∧ (ctxAt s.m i).repairs = [] ∧ (ctxAt s.m i).pass.sentBegin = false :=
  ⟨base .run (withCtx 0 { running with pass := {} }), fresh 10 (2 ^ 60) (.raw (beginData running)), 0,
    (by unfold listening; decide +kernel), by decide +kernel, by decide +kernel, by decide +kernel, ⟨by decide +kernel,
    by decide +kernel, by decide +kernel, by decide +kernel, by decide +kernel⟩⟩

set_option maxRecDepth 100000 in
theorem test_BarrierOpensAndStepsCommit_3 : ∃ (s : State) (x : Txn) (i : Nat), listening s.m ∧ ctxOfTag s.m x.jobTag = some i
    ∧ i < 16 ∧ (ctxAt s.m i).st ≠ .halt ∧ stepPairOk (ctxAt s.m i) = true ∧ stalePass (ctxAt s.m i) x = false ∧ slice (rawOf x) 0
    16 = beginData (ctxAt s.m i) ∧ (ctxAt s.m i).repairs = [] ∧ (ctxAt s.m i).st = .run ∧ (ctxAt s.m i).pass.sentBegin = true ∧
    (ctxAt s.m i).pass.running = false ∧ (ctxAt s.m i).pass.aborted = false ∧ (ctxAt s.m i).gey.entries = [] ∧ (∀ q ∈ (ctxAt s.m
    i).gey.buckets, bucketOk q = true ∧ ∀ blk, blk < bdBlocks q.desc.v → (expGet s.m q.desc.v 0 blk).toOption.isSome = true ∧
    rightCheck s.m.mem i (expVa q.desc.v 2 blk) 1 = 0 ∧ rightCheck s.m.mem i (expVa q.desc.v 3 blk) 1 = 0) ∧ (∀ e ∈ (ctxAt s.m
    i).claims.engines, (engAt s.m e).running = [] ∧ ∀ v ∈ s.m.served, v.engine ≠ e) ∧ (groupOf s.m (ctxAt s.m i)).all (fun d =>
    ((((ctxAt s.m i).pass.begins.filter (fun y => !(y.coord == (⟨x.src, x.step, x.replay, fld x.detail 59 52⟩ : BeginRec).coord &&
    y.step == (⟨x.src, x.step, x.replay, fld x.detail 59 52⟩ : BeginRec).step && y.replay == (⟨x.src, x.step, x.replay, fld
    x.detail 59 52⟩ : BeginRec).replay))) ++ [(⟨x.src, x.step, x.replay, fld x.detail 59 52⟩ : BeginRec)]).filter (fun y => y.step
    == (ctxAt s.m i).step && y.replay == (ctxAt s.m i).replay % 65536)).any (fun y => y.coord == d)) = true ∧ (∀ y ∈ ((((ctxAt s.m
    i).pass.begins.filter (fun y => !(y.coord == (⟨x.src, x.step, x.replay, fld x.detail 59 52⟩ : BeginRec).coord && y.step ==
    (⟨x.src, x.step, x.replay, fld x.detail 59 52⟩ : BeginRec).step && y.replay == (⟨x.src, x.step, x.replay, fld x.detail 59 52⟩
    : BeginRec).replay))) ++ [(⟨x.src, x.step, x.replay, fld x.detail 59 52⟩ : BeginRec)]).filter (fun y => y.step == (ctxAt s.m
    i).step && y.replay == (ctxAt s.m i).replay % 65536)), y.causes = 0) :=
  ⟨base .run (fun m => withCore 0 0 id (withCtx 0 { running with pass := { sentBegin := true } } m)), fresh 10 (2 ^ 60) (.raw
    (beginData running)), 0, (by unfold listening; decide +kernel), by decide +kernel, by decide +kernel, by decide +kernel,
    ⟨by decide +kernel, by decide +kernel, by decide +kernel, ⟨by decide +kernel, by decide +kernel, by decide +kernel,
    ⟨by decide +kernel, by decide +kernel, by decide +kernel, ⟨by decide +kernel, by decide +kernel, by decide +kernel,
    by decide +kernel⟩⟩⟩⟩⟩

theorem test_BarrierOpensAndStepsCommit_4 : ∃ (s : State) (i : Nat), i < 16 ∧ oReady s.m i = true ∧ (ctxAt s.m
    i).pass.committed = false ∧ stepPairOk (ctxAt s.m i) = true :=
  ⟨base .run (withCtx 0 { running with pass := { running := true, xDone := true } }), 0, by decide⟩

theorem test_BarrierOpensAndStepsCommit_5 : ∃ (s : State) (x : Txn) (i : Nat), reaches x i s.m ∧ i < 16 ∧ (ctxAt s.m i).st =
    .run ∧ (ctxAt s.m i).pass.sentBegin = true :=
  ⟨base .run (withCtx 0
    { running with pass := { running := true, sentBegin := true, sentReady := true, oDone := true, xDone := true, readies := [0] } }),
    fresh 10 (2 * 2 ^ 60) (.raw []), 0, (by unfold reaches listening stepSound; decide +kernel), by decide +kernel,
    by decide +kernel, by decide +kernel⟩

theorem test_AbortsAndReplays_1 : ∃ (s : State) (x : Txn) (i : Nat), reaches x i s.m ∧ i < 16 ∧ (ctxAt s.m i).st = .run ∧
    (ctxAt s.m i).pass.sentBegin = true ∧ (ctxAt s.m i).pass.committed = false ∧ (ctxAt s.m i).pass.aborted = false :=
  ⟨base .run (withCtx 0 { running with pass := { running := true, sentBegin := true } }), fresh 10 (3 * 2 ^ 60 + 4 * 2 ^ 52)
    (.raw []), 0, (by unfold reaches listening stepSound; decide +kernel), by decide +kernel, by decide +kernel,
    by decide +kernel, by decide +kernel, by decide +kernel⟩

theorem test_AbortsAndReplays_2 : ∃ (s : State) (i : Nat), i < 16 ∧ (ctxAt s.m i).st = .run ∧ (ctxAt s.m i).pass.discarding =
    true :=
  ⟨base .run (withCtx 0 { running with pass := { running := true, aborted := true, discarding := true } }), 0, by decide⟩

theorem test_AbortsAndReplays_3 : ∃ (s : State) (x : Txn) (i : Nat), listening s.m ∧ ctxOfTag s.m x.jobTag = some i ∧ i < 16 ∧
    (ctxAt s.m i).st ≠ .halt ∧ (ctxAt s.m i).st ≠ .free ∧ stepPairOk (ctxAt s.m i) = true :=
  ⟨inStep, fresh 10 (4 * 2 ^ 60) (.raw []), 0, (by unfold listening; decide), by decide, by decide, by decide, by decide,
    by decide⟩

theorem test_AbortsAndReplays_4 : ∃ (s : State) (x : Txn) (i : Nat), listening s.m ∧ ctxOfTag s.m x.jobTag = some i ∧
    stepSound s.m i :=
  ⟨inStep, fresh 11 0 (.raw []), 0, (by unfold listening; decide), by decide, (by unfold stepSound; decide)⟩

theorem test_ContextCommandsActOrRefuse_1 : ∃ (s : State) (i : Nat), writeState s.m.dev.st = 0 ∧ i < 16 ∧ ((ctxAt s.m i).st =
    .idle ∨ (ctxAt s.m i).st = .run ∨ (ctxAt s.m i).st = .held) :=
  ⟨base .ready (withCtx 3 { running with st := .idle }), 3, by decide⟩

theorem test_ContextCommandsActOrRefuse_1b : ∃ (s : State) (i : Nat), writeState s.m.dev.st = 0 ∧ i < 16 ∧ ((ctxAt s.m i).st =
    .idle ∨ (ctxAt s.m i).st = .run ∨ (ctxAt s.m i).st = .held) :=
  ⟨base .ready (withCtx 3 { running with st := .run }), 3, by decide⟩

theorem test_ContextCommandsActOrRefuse_2 : ∃ (s : State) (i : Nat), writeState s.m.dev.st = 0 ∧ i < 16 ∧ (ctxAt s.m i).st =
    .held ∧ (ctxAt s.m i).grant = 0 ∧ (ctxAt s.m i).repairs = [] :=
  ⟨base .ready (withCtx 3 { running with st := .held }), 3, by decide⟩

theorem test_ContextCommandsActOrRefuse_3 : ∃ (s : State) (i : Nat), writeState s.m.dev.st = 0 ∧ i < 16 ∧ ((ctxAt s.m i).st =
    .idle ∨ (ctxAt s.m i).st = .run ∨ (ctxAt s.m i).st = .held) :=
  ⟨base .ready (withCtx 3 { running with st := .held }), 3, by decide⟩

theorem test_ContextCommandsActOrRefuse_4 : ∃ (s : State) (i : Nat), writeState s.m.dev.st = 0 ∧ i < 16 ∧ (ctxAt s.m i).st ≠
    .free :=
  ⟨base .ready (withCtx 3 { running with st := .halt, grant := 5 }), 3, by decide⟩

theorem test_ContextCommandsActOrRefuse_5 : ∃ (s : State) (i : Nat), writeState s.m.dev.st = 0 ∧ ((ctxAt s.m i).st = .free ∨
    (ctxAt s.m i).st = .halt) :=
  ⟨base .ready (withCtx 3 { running with st := .halt }), 3, by decide⟩

theorem test_ContextCommandsActOrRefuse_5b : ∃ (s : State) (i : Nat), writeState s.m.dev.st = 0 ∧ ((ctxAt s.m i).st = .free ∨
    (ctxAt s.m i).st = .halt) :=
  ⟨base .ready, 3, by decide⟩

theorem test_ContextCommandsActOrRefuse_6 : ∃ (s : State) (i : Nat), writeState s.m.dev.st = 0 ∧ (ctxAt s.m i).st ≠ .held :=
  ⟨base .ready (withCtx 3 { running with st := .idle }), 3, by decide⟩

theorem test_ContextCommandsActOrRefuse_7 : ∃ (s : State) (i : Nat), writeState s.m.dev.st = 0 ∧ (ctxAt s.m i).st = .free :=
  ⟨base .ready, 3, by decide⟩

theorem test_QuenchEndsTheStep_1 : ∃ (s : State) (i : Nat), ((ctxAt s.m i).st ≠ .run ∨ (ctxAt s.m i).pass.committed = false)
    :=
  ⟨inStep, 0, by decide⟩

set_option maxRecDepth 100000 in
theorem test_QuenchEndsTheStep_2 : ∃ (s : State) (i : Nat), i < 16 ∧ (ctxAt s.m i).st = .run ∧ (ctxAt s.m i).pass.committed =
    true ∧ (ctxAt s.m i).pass.quench = 0 ∧ planMissing s.m i = true ∧ (ctxAt s.m i).pass.waitPlan = true :=
  ⟨base .run (fun m => withCtx 0
    { running with step := 1004, pass := { running := true, committed := true, quench := 0, waitPlan := true } } (withTab (tabD 1
    0) (fun t => { t with awaiting := some (1004 - dnum m 0x4100 0x08, 1) }) m)), 0, by decide +kernel⟩

set_option maxRecDepth 100000 in
theorem test_QuenchEndsTheStep_3 : ∃ (s : State) (i : Nat), i < 16 ∧ (ctxAt s.m i).st = .run ∧ (ctxAt s.m i).pass.committed =
    true ∧ (ctxAt s.m i).pass.quench = 0 ∧ planMissing s.m i = true ∧ (ctxAt s.m i).pass.waitPlan = false :=
  ⟨base .run (fun m => withCtx 0
    { running with step := 1004, pass := { running := true, committed := true, quench := 0, waitPlan := false } } (withTab (tabD 1
    0) (fun t => { t with awaiting := some (1004 - dnum m 0x4100 0x08, 1) }) m)), 0, by decide +kernel⟩

set_option maxRecDepth 100000 in
theorem test_QuenchEndsTheStep_4 : ∃ (s : State) (i : Nat), i < 16 ∧ (ctxAt s.m i).st = .run ∧ (ctxAt s.m i).pass.committed =
    true ∧ (ctxAt s.m i).pass.quench = 3 ∧ writesDone s.m i = true ∧ (ctxAt (quenchQ6 i (quenchQ5 i (tablesQ4 i s.m))) i).st =
    .run ∧ stepPairOk (ctxAt (quenchQ6 i (quenchQ5 i (tablesQ4 i s.m))) i) = true ∧ readCheck (quenchQ6 i (quenchQ5 i (tablesQ4 i
    s.m))).mem ((ctxAt (quenchQ6 i (quenchQ5 i (tablesQ4 i s.m))) i).logVa + 32 * (if (ctxAt (quenchQ6 i (quenchQ5 i (tablesQ4 i
    s.m))) i).logEntries = 0 then 0 else (ctxAt (quenchQ6 i (quenchQ5 i (tablesQ4 i s.m))) i).step % (ctxAt (quenchQ6 i (quenchQ5
    i (tablesQ4 i s.m))) i).logEntries)) 32 = 0 :=
  ⟨base .run (fun m => withCtx 0
    { running with logVa := 2 ^ 21, logEntries := 4, pass := { running := true, committed := true, quench := 3 } } (withObj 5 0 0
    m)), 0, by decide +kernel⟩

set_option maxRecDepth 100000 in
theorem test_TransferChunksLand_1 : ∃ (s : State) (x : Txn) (i : Nat) (k : Nat), reaches x i s.m ∧ i < 16 ∧ (ctxAt s.m i).st =
    .run ∧ chunkEntry s.m i x = some k ∧ entriesOk s.m i = true ∧ teKind (entryAt s.m i k).desc.v = 0 ∧ fld x.detail 63 60 = 0 ∧
    rightCheck s.m.mem i (teDest ((entryAt s.m i k).desc.v) + (fld x.detail 39 8)) (rawOf x).length = 0 ∧ (entryAt s.m i
    k).landed.contains (0, (fld x.detail 39 8)) = false ∧ (ringTakes .notice (ringAt (coreAt s.m (teNoticeCore ((entryAt s.m i
    k).desc.v))) (teNoticeRing ((entryAt s.m i k).desc.v))) ∨ (entryAt s.m i k).noticed = true) :=
  ⟨base .run (fun m => withCore 0 0 (setRing 0 { desc := (ringFor 5) }) (withXfer 0 m)), fresh 7 (3 * 2 ^ 44) (.raw
    (List.replicate 64 1#8)), 0, 0, (by unfold reaches listening stepSound; decide +kernel), by decide +kernel, by decide +kernel,
    by decide +kernel, ⟨by decide +kernel, by decide +kernel, by decide +kernel, ⟨by decide +kernel, by decide +kernel,
    (by unfold ringTakes; decide +kernel)⟩⟩⟩

set_option maxRecDepth 100000 in
theorem test_TransferChunksLand_2 : ∃ (s : State) (x : Txn) (i : Nat) (k : Nat), reaches x i s.m ∧ i < 16 ∧ (ctxAt s.m i).st =
    .run ∧ chunkEntry s.m i x = some k ∧ entriesOk s.m i = true ∧ teKind (entryAt s.m i k).desc.v = fld x.detail 63 60 ∧ teKind
    (entryAt s.m i k).desc.v = 3 ∧ (entryAt s.m i k).fired = false :=
  ⟨base .run (withXfer 3), fresh 9 (3 * 2 ^ 60 + 3 * 2 ^ 44) (.raw (List.replicate 80 1#8)), 0, 0,
    (by unfold reaches listening stepSound; decide +kernel), by decide +kernel, by decide +kernel, by decide +kernel,
    ⟨by decide +kernel, by decide +kernel, by decide +kernel, by decide +kernel⟩⟩

set_option maxRecDepth 100000 in
theorem test_TransferChunksLand_3 : ∃ (s : State) (x : Txn) (i : Nat) (k : Nat), reaches x i s.m ∧ i < 16 ∧ (ctxAt s.m i).st =
    .run ∧ chunkEntry s.m i x = some k ∧ entriesOk s.m i = true ∧ teKind (entryAt s.m i k).desc.v = fld x.detail 63 60 ∧ teKind
    (entryAt s.m i k).desc.v = 2 ∧ octs (slice (rawOf x) 0 16) 2 2 < cutSize s.m (ctxAt s.m i) 1 ∧ beforeReady s.m i ∧ notifies
    s.m.dev.st = true ∧ routable s.m (entryPeer s.m i (entryAt s.m i k).desc.v 0) = true ∧ readCheck s.m.mem (teReceipt (entryAt
    s.m i k).desc.v + 16 * octs (slice (rawOf x) 0 16) 2 2) 16 = 0 ∧ receiptDiffers s.m (teReceipt (entryAt s.m i k).desc.v + 16 *
    octs (slice (rawOf x) 0 16) 2 2) (slice (rawOf x) 0 16) = true :=
  ⟨base .run (withXfer 2), fresh 9 (2 * 2 ^ 60 + 3 * 2 ^ 44) (.raw (leBytes 4 0 ++ leBytes 12 (2 ^ 8) ++ List.replicate 64
    1#8)), 0, 0, (by unfold reaches listening stepSound; decide +kernel), by decide +kernel, by decide +kernel, by decide +kernel,
    ⟨by decide +kernel, by decide +kernel, by decide +kernel, by decide +kernel, (by unfold beforeReady; decide +kernel),
    by decide +kernel, by decide +kernel, by decide +kernel, by decide +kernel⟩⟩

theorem test_MemoryErrorsHandled_1 : ∃ (s : State), s.m.dev.st ≠ .off ∧ s.m.dev.st ≠ .reset ∧ s.m.dev.st ≠ .fault :=
  ⟨base .selftest, by decide⟩

theorem test_MemoryErrorsHandled_1b : ∃ (s : State), s.m.dev.st ≠ .off ∧ s.m.dev.st ≠ .reset ∧ s.m.dev.st ≠ .fault :=
  ⟨base .run, by decide⟩

set_option maxRecDepth 100000 in
theorem test_MemoryErrorsHandled_2 : ∃ (s : State) (source : Nat) (va : Nat) (v : Nat) (passed : Bool), listening s.m ∧
    (passed = false ∨ source ≠ 0) ∧ objAt s.m.mem va = some v ∧ (oCtx v) < 16 ∧ (ctxAt s.m (oCtx v)).st ≠ .free ∧ (ctxAt s.m (oCtx
    v)).st ≠ .halt ∧ (recoveryClass s.m (oCtx v) v = 1 ∨ reencodeRead s.m (oCtx v) va = true) :=
  ⟨base .ready (fun m => withCtx 0 { running with st := .idle } (withObj 2 0 0 m)), 0, 2 ^ 21, objDesc 2 0 0, false,
    (by unfold listening; decide +kernel), by decide +kernel, by decide +kernel, by decide +kernel, ⟨by decide +kernel,
    by decide +kernel, by decide +kernel⟩⟩

set_option maxRecDepth 100000 in
theorem test_MemoryErrorsHandled_2b : ∃ (s : State) (source : Nat) (va : Nat) (v : Nat) (passed : Bool), listening s.m ∧
    (passed = false ∨ source ≠ 0) ∧ objAt s.m.mem va = some v ∧ (oCtx v) < 16 ∧ (ctxAt s.m (oCtx v)).st ≠ .free ∧ (ctxAt s.m (oCtx
    v)).st ≠ .halt ∧ (recoveryClass s.m (oCtx v) v = 1 ∨ reencodeRead s.m (oCtx v) va = true) :=
  ⟨base .ready (fun m => withCtx 0 { running with st := .idle } (withObj 2 0 0 m)), 1, 2 ^ 21, objDesc 2 0 0, true,
    (by unfold listening; decide +kernel), by decide +kernel, by decide +kernel, by decide +kernel, ⟨by decide +kernel,
    by decide +kernel, by decide +kernel⟩⟩

set_option maxRecDepth 100000 in
theorem test_MemoryErrorsHandled_3 : ∃ (s : State) (source : Nat) (va : Nat) (v : Nat) (passed : Bool), listening s.m ∧
    (passed = false ∨ source ≠ 0) ∧ objAt s.m.mem va = some v ∧ beforeReady s.m (oCtx v) ∧ recoveryClass s.m (oCtx v) v = 0 :=
  ⟨inStep (withObj 5 0 0), 0, 2 ^ 21, objDesc 5 0 0, false, (by unfold listening; decide +kernel), by decide +kernel,
    by decide +kernel, (by unfold beforeReady; decide +kernel), by decide +kernel⟩

set_option maxRecDepth 100000 in
theorem test_MemoryErrorsHandled_3b : ∃ (s : State) (source : Nat) (va : Nat) (v : Nat) (passed : Bool), listening s.m ∧
    (passed = false ∨ source ≠ 0) ∧ objAt s.m.mem va = some v ∧ beforeReady s.m (oCtx v) ∧ recoveryClass s.m (oCtx v) v = 0 :=
  ⟨inStep (withObj 5 0 0), 2, 2 ^ 21, objDesc 5 0 0, true, (by unfold listening; decide +kernel), by decide +kernel,
    by decide +kernel, (by unfold beforeReady; decide +kernel), by decide +kernel⟩

set_option maxRecDepth 100000 in
theorem test_MemoryErrorsHandled_4 : ∃ (s : State) (source : Nat) (passed : Bool), listening s.m ∧ (passed = false ∨ source ≠
    0) :=
  ⟨inStep (withObj 5 0 0), 0, false, (by unfold listening; decide +kernel), by decide +kernel⟩

set_option maxRecDepth 100000 in
theorem test_MemoryErrorsHandled_5 : ∃ (s : State) (source : Nat) (i : Nat) (k : Nat) (passed : Bool) (u : UpdWrite),
    listening s.m ∧ (passed = false ∨ source ≠ 0) ∧ i < 16 ∧ k < 2 ^ 32 ∧ (ctxAt s.m i).upd[k]? = some u ∧ beforeReady s.m i :=
  ⟨base .run (fun m => withCtx 0 { running with upd := [⟨2 ^ 21, 0, [], 0⟩] } (withObj 0 0 0 m)), 0, 0, 0, false, ⟨2 ^ 21, 0,
    [], 0⟩, (by unfold listening; decide +kernel), by decide +kernel, by decide +kernel, by decide +kernel, by decide +kernel,
    (by unfold beforeReady; decide +kernel)⟩

set_option maxRecDepth 100000 in
theorem test_MemoryErrorsHandled_6 : ∃ (s : State) (source : Nat) (i : Nat) (k : Nat) (passed : Bool) (u : UpdWrite),
    listening s.m ∧ (passed = false ∨ source ≠ 0) ∧ i < 16 ∧ k < 2 ^ 32 ∧ (ctxAt s.m i).upd[k]? = some u ∧ (ctxAt s.m i).st = .run
    ∧ (ctxAt s.m i).pass.committed = true ∧ recoveryClass s.m i ((objAt s.m.mem u.va).getD 0) ≠ 2 :=
  ⟨base .run (fun m => withCtx 0 { running with upd := [⟨2 ^ 21, 0, [], 0⟩], pass := { running := true, committed := true } }
    (withObj 0 0 0 m)), 0, 0, 0, false, ⟨2 ^ 21, 0, [], 0⟩, (by unfold listening; decide +kernel), by decide +kernel,
    by decide +kernel, by decide +kernel, ⟨by decide +kernel, by decide +kernel, by decide +kernel, by decide +kernel⟩⟩

set_option maxRecDepth 100000 in
theorem test_ReadsRepairsAndChunks_1 : ∃ (s : State) (x : Txn) (i : Nat), listening s.m ∧ ctxOfTag s.m x.jobTag = some i ∧
    stepSound s.m i ∧ (512 ≤ (fld x.detail 63 56 * 512) ∧ (fld x.detail 63 56 * 512) ≤ 16384 ∧ servable s.m i (fld x.detail 55 0)
    (fld x.detail 63 56 * 512) = true) ∧ q1Writes s.m (fld x.detail 55 0) (fld x.detail 63 56 * 512) = true :=
  ⟨base .run (fun m0 => let m := withCtx 0 { running with ckpt := { va := 2 ^ 21 } } (withObj 7 0 0 m0); { m with mem := { m.mem with pages := [(1, mkPair 64 (pageVal 1 false false 7 5))], writes := [{ id := 4, ctx := 0, region := 0, frame := 5, step := 4 }] } }),
    fresh 1 (2 ^ 56 + 2 ^ 21) (.raw []), 0, (by unfold listening; decide +kernel), by decide +kernel,
    (by unfold stepSound; decide +kernel), by decide +kernel, by decide +kernel⟩

set_option maxRecDepth 100000 in
theorem test_ReadsRepairsAndChunks_2 : ∃ (s : State) (x : Txn) (i : Nat), listening s.m ∧ ctxOfTag s.m x.jobTag = some i ∧
    stepSound s.m i ∧ ¬((512 ≤ (fld x.detail 63 56 * 512) ∧ (fld x.detail 63 56 * 512) ≤ 16384 ∧ servable s.m i (fld x.detail 55
    0) (fld x.detail 63 56 * 512) = true) ∧ q1Writes s.m (fld x.detail 55 0) (fld x.detail 63 56 * 512) = true) ∧ ((512 ≤ (fld
    x.detail 63 56 * 512) ∧ (fld x.detail 63 56 * 512) ≤ 16384 ∧ servable s.m i (fld x.detail 55 0) (fld x.detail 63 56 * 512) =
    true) ∨ readCheck s.m.mem (fld x.detail 55 0) (fld x.detail 63 56 * 512) ≠ 0x0701) ∧ routable s.m x.src = true :=
  ⟨base .run (fun m => withCtx 0 { running with ckpt := { va := 2 ^ 21 } } (withObj 7 0 0 (sized m))), fresh 1 (2 ^ 56 + 2 ^ 21)
    (.raw []), 0, (by unfold listening; decide +kernel), by decide +kernel, (by unfold stepSound; decide +kernel),
    by decide +kernel, by decide +kernel, by decide +kernel⟩

set_option maxRecDepth 100000 in
theorem test_ReadsRepairsAndChunks_2b : ∃ (s : State) (x : Txn) (i : Nat), listening s.m ∧ ctxOfTag s.m x.jobTag = some i ∧
    stepSound s.m i ∧ ¬((512 ≤ (fld x.detail 63 56 * 512) ∧ (fld x.detail 63 56 * 512) ≤ 16384 ∧ servable s.m i (fld x.detail 55
    0) (fld x.detail 63 56 * 512) = true) ∧ q1Writes s.m (fld x.detail 55 0) (fld x.detail 63 56 * 512) = true) ∧ ((512 ≤ (fld
    x.detail 63 56 * 512) ∧ (fld x.detail 63 56 * 512) ≤ 16384 ∧ servable s.m i (fld x.detail 55 0) (fld x.detail 63 56 * 512) =
    true) ∨ readCheck s.m.mem (fld x.detail 55 0) (fld x.detail 63 56 * 512) ≠ 0x0701) ∧ routable s.m x.src = true :=
  ⟨inStep (fun m => withObj 2 0 0 (sized m)), fresh 1 (2 ^ 56 + 2 ^ 22) (.raw []), 0, (by unfold listening; decide +kernel),
    by decide +kernel, (by unfold stepSound; decide +kernel), by decide +kernel, by decide +kernel, by decide +kernel⟩

set_option maxRecDepth 100000 in
theorem test_ReadsRepairsAndChunks_3 : ∃ (s : State) (x : Txn) (i : Nat) (j : Nat) (chunk : Nat) (r : Repair), listening s.m ∧
    ctxOfTag s.m x.jobTag = some i ∧ i < 16 ∧ stepSound s.m i ∧ repairOf (ctxAt s.m i) x.tag = some (j, chunk) ∧ repairAt s.m i j
    = some r ∧ x.err = false ∧ shake256 (slice (rawOf x) 0 8192) 32 = slice (rawOf x) 8192 32 :=
  ⟨base .run (fun m => withCtx 0
    { running with repairs := [({ page := 1, peer := 2, other := 3, started := true, asked := [(5, 7)], next := 8 } : Repair)] }
    (withObj 2 0 0 m)), fresh 0x81 0 (.raw (List.replicate 8192 0 ++ shake256 (List.replicate 8192 0) 32)), 0, 0, 7,
    ({ page := 1, peer := 2, other := 3, started := true, asked := [(5, 7)], next := 8 } : Repair),
    (by unfold listening; decide +kernel), by decide +kernel, by decide +kernel, (by unfold stepSound; decide +kernel),
    by decide +kernel, by decide +kernel, by decide +kernel, digest_carried List.length_replicate⟩

set_option maxRecDepth 100000 in
theorem test_ReadsRepairsAndChunks_4 : ∃ (s : State) (x : Txn) (i : Nat) (j : Nat) (chunk : Nat) (r : Repair), listening s.m ∧
    ctxOfTag s.m x.jobTag = some i ∧ i < 16 ∧ stepSound s.m i ∧ repairOf (ctxAt s.m i) x.tag = some (j, chunk) ∧ repairAt s.m i j
    = some r ∧ x.err = false ∧ shake256 (slice (rawOf x) 0 8192) 32 ≠ slice (rawOf x) 8192 32 ∧ r.retried.contains chunk = false
    :=
  ⟨base .run (fun m => withCtx 0
    { running with repairs := [({ page := 1, peer := 2, other := 3, started := true, asked := [(5, 7)], next := 8 } : Repair)] }
    (withObj 2 0 0 m)), fresh 0x81 0 (.raw (List.replicate 8192 0 ++ cplBytes (shake256 (List.replicate 8192 0) 32))), 0, 0, 7,
    ({ page := 1, peer := 2, other := 3, started := true, asked := [(5, 7)], next := 8 } : Repair),
    (by unfold listening; decide +kernel), by decide +kernel, by decide +kernel, (by unfold stepSound; decide +kernel),
    by decide +kernel, by decide +kernel, by decide +kernel, digest_wrong List.length_replicate, by decide +kernel⟩

theorem test_ReadsRepairsAndChunks_5 : ∃ (s : State) (x : Txn) (i : Nat) (e : Nat × List Byte), listening s.m ∧ ctxOfTag s.m
    x.jobTag = some i ∧ i < 16 ∧ stepSound s.m i ∧ repairOf (ctxAt s.m i) x.tag = none ∧ (ctxAt s.m i).ckpt.verifying.find? (fun e
    => e.1 == x.tag) = some e :=
  ⟨base .run (withCtx 0 { running with ckpt := { verifying := [(5, [])] } }), fresh 0x81 0 (.raw []), 0, (5, []),
    (by unfold listening; decide), by decide, by decide, (by unfold stepSound; decide), by decide, by decide⟩

set_option maxRecDepth 100000 in
theorem test_ReadsRepairsAndChunks_6 : ∃ (s : State) (i : Nat) (j : Nat) (v : Nat) (r : Repair), i < 16 ∧
    ((List.range (ctxAt s.m i).repairs.length).find? (fun j => match (ctxAt s.m i).repairs[j]? with | some r => r.data.length == 256 | none => false) = some j)
    ∧ repairAt s.m i j = some r ∧ walkVpn s.m.mem r.page = .entry v ∧ (ctxAt s.m i).st ≠ .free ∧ (ctxAt s.m i).st ≠ .halt ∧
    stepPairOk (ctxAt s.m i) = true :=
  ⟨base .run (fun m => withCtx 0
    { running with repairs := [({ page := 1, peer := 2, other := 3, started := true, data := (List.range 256).map (fun k => (k, [])) } : Repair)] }
    (withObj 2 0 0 m)), 0, 0, pageVal 0 false false 7 5,
    ({ page := 1, peer := 2, other := 3, started := true, data := (List.range 256).map (fun k => (k, [])) } : Repair),
    by decide +kernel⟩

set_option maxRecDepth 100000 in
theorem test_ReadsRepairsAndChunks_7 : ∃ (s : State) (i : Nat) (j : Nat) (v : Nat) (r : Repair), i < 16 ∧
    ((List.range (ctxAt s.m i).repairs.length).find? (fun j => match (ctxAt s.m i).repairs[j]? with | some r => r.data.length == 256 | none => false) = some j)
    ∧ repairAt s.m i j = some r ∧ walkVpn s.m.mem r.page = .entry v ∧ (ctxAt s.m i).st ≠ .free ∧ (ctxAt s.m i).st ≠ .halt ∧
    stepPairOk (ctxAt s.m i) = true :=
  ⟨base .run (fun m => withCtx 0
    { running with repairs := [({ page := 1, peer := 2, other := 3, started := true, data := (List.range 256).map (fun k => (k, [])) } : Repair)] }
    (withObj 2 0 0 m)), 0, 0, pageVal 0 false false 7 5,
    ({ page := 1, peer := 2, other := 3, started := true, data := (List.range 256).map (fun k => (k, [])) } : Repair),
    by decide +kernel⟩

set_option maxRecDepth 100000 in
theorem test_ReadsRepairsAndChunks_8 : ∃ (s : State) (i : Nat) (j : Nat) (r : Repair), i < 16 ∧
    ((List.range (ctxAt s.m i).repairs.length).find? (fun j => match (ctxAt s.m i).repairs[j]? with | some r => r.started || r.usedOther | none => false) = some j)
    ∧ repairAt s.m i j = some r ∧ (ctxAt s.m i).st ≠ .free ∧ (ctxAt s.m i).st ≠ .halt :=
  ⟨base .run (fun m => withCtx 0 { running with repairs := [({ page := 1, peer := 2, other := 3, started := true } : Repair)] }
    (withObj 2 0 0 m)), 0, 0, ({ page := 1, peer := 2, other := 3, started := true } : Repair), by decide +kernel⟩

set_option maxRecDepth 100000 in
theorem test_CheckpointsRun_1 : ∃ (s : State) (i : Nat) (cmd : Nat) (c : Instr), ((cmd = 1 ∧ c = .record i) ∨ (cmd = 2 ∧ c =
    .restore i) ∨ (cmd = 3 ∧ c = .digest i) ∨ (cmd = 4 ∧ c = .verify i)) ∧ writeState s.m.dev.st = 0 ∧ i < 16 ∧ ckptAllowed s.m i
    cmd = false :=
  ⟨base .ready, 0, 1, .record 0, by decide +kernel⟩

set_option maxRecDepth 100000 in
theorem test_CheckpointsRun_1b : ∃ (s : State) (i : Nat) (cmd : Nat) (c : Instr), ((cmd = 1 ∧ c = .record i) ∨ (cmd = 2 ∧ c =
    .restore i) ∨ (cmd = 3 ∧ c = .digest i) ∨ (cmd = 4 ∧ c = .verify i)) ∧ writeState s.m.dev.st = 0 ∧ i < 16 ∧ ckptAllowed s.m i
    cmd = false :=
  ⟨base .ready, 0, 2, .restore 0, by decide +kernel⟩

set_option maxRecDepth 100000 in
theorem test_CheckpointsRun_1c : ∃ (s : State) (i : Nat) (cmd : Nat) (c : Instr), ((cmd = 1 ∧ c = .record i) ∨ (cmd = 2 ∧ c =
    .restore i) ∨ (cmd = 3 ∧ c = .digest i) ∨ (cmd = 4 ∧ c = .verify i)) ∧ writeState s.m.dev.st = 0 ∧ i < 16 ∧ ckptAllowed s.m i
    cmd = false :=
  ⟨base .ready, 0, 3, .digest 0, by decide +kernel⟩

set_option maxRecDepth 100000 in
theorem test_CheckpointsRun_1d : ∃ (s : State) (i : Nat) (cmd : Nat) (c : Instr), ((cmd = 1 ∧ c = .record i) ∨ (cmd = 2 ∧ c =
    .restore i) ∨ (cmd = 3 ∧ c = .digest i) ∨ (cmd = 4 ∧ c = .verify i)) ∧ writeState s.m.dev.st = 0 ∧ i < 16 ∧ ckptAllowed s.m i
    cmd = false :=
  ⟨base .ready, 0, 4, .verify 0, by decide +kernel⟩

set_option maxRecDepth 100000 in
theorem test_CheckpointsRun_2 : ∃ (s : State) (i : Nat) (cmd : Nat) (c : Instr), ((cmd = 1 ∧ c = .record i) ∨ (cmd = 2 ∧ c =
    .restore i) ∨ (cmd = 3 ∧ c = .digest i) ∨ (cmd = 4 ∧ c = .verify i)) ∧ writeState s.m.dev.st = 0 ∧ i < 16 ∧ ckptAllowed s.m i
    cmd = true :=
  ⟨base .ready (fun m0 => let m := withCtx 0 { running with st := .held, everRan := true, pass := {}, ckpt := { va := 2 ^ 21, digested := true } } m0; { m with mem := { m.mem with objects := [(7, mkPair 256 (objAtPage 7 1 4 7 0 0))], pages := [(1, mkPair 64 (pageVal 0 false false 7 5))] } }),
    0, 1, .record 0, by decide +kernel⟩

set_option maxRecDepth 100000 in
theorem test_CheckpointsRun_2b : ∃ (s : State) (i : Nat) (cmd : Nat) (c : Instr), ((cmd = 1 ∧ c = .record i) ∨ (cmd = 2 ∧ c =
    .restore i) ∨ (cmd = 3 ∧ c = .digest i) ∨ (cmd = 4 ∧ c = .verify i)) ∧ writeState s.m.dev.st = 0 ∧ i < 16 ∧ ckptAllowed s.m i
    cmd = true :=
  ⟨base .ready (fun m0 => let m := withCtx 0 { running with st := .idle, pass := {}, ckpt := { va := 2 ^ 21, digested := true } } m0; { m with mem := { m.mem with objects := [(7, mkPair 256 (objAtPage 7 1 4 7 0 0))], pages := [(1, mkPair 64 (pageVal 0 false false 7 5))] } }),
    0, 2, .restore 0, by decide +kernel⟩

set_option maxRecDepth 100000 in
theorem test_CheckpointsRun_2c : ∃ (s : State) (i : Nat) (cmd : Nat) (c : Instr), ((cmd = 1 ∧ c = .record i) ∨ (cmd = 2 ∧ c =
    .restore i) ∨ (cmd = 3 ∧ c = .digest i) ∨ (cmd = 4 ∧ c = .verify i)) ∧ writeState s.m.dev.st = 0 ∧ i < 16 ∧ ckptAllowed s.m i
    cmd = true :=
  ⟨base .ready (fun m0 => let m := withCtx 0 { running with st := .held, pass := {}, ckpt := { va := 2 ^ 21, digested := true } } m0; { m with mem := { m.mem with objects := [(7, mkPair 256 (objAtPage 7 1 4 7 0 0))], pages := [(1, mkPair 64 (pageVal 0 false false 7 5))] } }),
    0, 3, .digest 0, by decide +kernel⟩

set_option maxRecDepth 100000 in
theorem test_CheckpointsRun_2d : ∃ (s : State) (i : Nat) (cmd : Nat) (c : Instr), ((cmd = 1 ∧ c = .record i) ∨ (cmd = 2 ∧ c =
    .restore i) ∨ (cmd = 3 ∧ c = .digest i) ∨ (cmd = 4 ∧ c = .verify i)) ∧ writeState s.m.dev.st = 0 ∧ i < 16 ∧ ckptAllowed s.m i
    cmd = true :=
  ⟨base .ready (fun m0 => let m := withCtx 0 { running with st := .idle, pass := {}, ckpt := { va := 2 ^ 21, digested := true } } m0; { m with mem := { m.mem with objects := [(7, mkPair 256 (objAtPage 7 1 4 7 0 0))], pages := [(1, mkPair 64 (pageVal 0 false false 7 5))] } }),
    0, 4, .verify 0, by decide +kernel⟩

set_option maxRecDepth 100000 in
theorem test_CheckpointsRun_3 : ∃ (s : State) (i : Nat), i < 16 ∧ octs (ctxAt s.m i).ckpt.status 1 1 = 1 ∧ (ctxAt s.m
    i).ckpt.verifying = [] ∧ digestReads s.m i = false ∧ (octs (ctxAt s.m i).ckpt.status 0 1 = 1 ∨ octs (ctxAt s.m i).ckpt.status
    0 1 = 3) ∧ ¬(ckptWritable s.m i (octs (ctxAt s.m i).ckpt.status 0 1) = true) :=
  ⟨base .ready (fun m0 => let m := withCtx 0 { running with st := .run, pass := {}, ckpt := { va := 2 ^ 21, status := leBytes 1 1 ++ leBytes 1 1 ++ leBytes 6 0 ++ leBytes 8 9 } } m0; { m with mem := { m.mem with objects := [(7, mkPair 256 (objAtPage 7 1 4 7 0 0))], pages := [(1, mkPair 64 (pageVal 0 false false 7 5))] } }),
    0, by decide +kernel⟩

set_option maxRecDepth 100000 in
theorem test_CheckpointsRun_4 : ∃ (s : State) (i : Nat), i < 16 ∧ octs (ctxAt s.m i).ckpt.status 1 1 = 1 ∧ (ctxAt s.m
    i).ckpt.verifying = [] ∧ digestReads s.m i = false ∧ octs (ctxAt s.m i).ckpt.status 0 1 = 1 ∧ (ckptWritable s.m i (octs (ctxAt
    s.m i).ckpt.status 0 1) = true) :=
  ⟨base .ready (fun m0 => let m := withCtx 0 { running with st := .held, pass := {}, ckpt := { va := 2 ^ 21, status := leBytes 1 1 ++ leBytes 1 1 ++ leBytes 6 0 ++ leBytes 8 9 } } m0; { m with mem := { m.mem with objects := [(7, mkPair 256 (objAtPage 7 1 4 7 0 0))], pages := [(1, mkPair 64 (pageVal 0 false false 7 5))] } }),
    0, by decide +kernel⟩

set_option maxRecDepth 100000 in
theorem test_CheckpointsRun_5 : ∃ (s : State) (i : Nat), i < 16 ∧ octs (ctxAt s.m i).ckpt.status 1 1 = 1 ∧ (ctxAt s.m
    i).ckpt.verifying = [] ∧ digestReads s.m i = false ∧ octs (ctxAt s.m i).ckpt.status 0 1 = 2 ∧ octs (readRecord s.m (ctxAt s.m
    i).ckpt.va) 0 2 = 1 ∧ (ctxAt s.m i).st = .idle ∧ (ctxAt s.m i).everRan = false :=
  ⟨base .ready (fun m0 => let m := withCtx 0 { running with st := .idle, pass := {}, ckpt := { va := 2 ^ 21, status := leBytes 1 2 ++ leBytes 1 1 ++ leBytes 6 0 ++ leBytes 8 9 } } m0; { m with mem := vput (2 ^ 21) (leBytes 2 1 ++ leBytes 6 0 ++ leBytes 8 7) { m.mem with objects := [(7, mkPair 256 (objAtPage 7 1 4 7 0 0))], pages := [(1, mkPair 64 (pageVal 0 false false 7 5))] } }),
    0, by decide +kernel⟩

set_option maxRecDepth 100000 in
theorem test_CheckpointsRun_6 : ∃ (s : State) (i : Nat), i < 16 ∧ octs (ctxAt s.m i).ckpt.status 1 1 = 1 ∧ (ctxAt s.m
    i).ckpt.verifying = [] ∧ digestReads s.m i = false ∧ octs (ctxAt s.m i).ckpt.status 0 1 = 3 ∧ (ckptWritable s.m i (octs (ctxAt
    s.m i).ckpt.status 0 1) = true) :=
  ⟨base .ready (fun m0 => let m := withCtx 0 { running with st := .idle, pass := {}, ckpt := { va := 2 ^ 21, status := leBytes 1 3 ++ leBytes 1 1 ++ leBytes 6 0 ++ leBytes 8 9 } } m0; { m with mem := { m.mem with objects := [(7, mkPair 256 (objAtPage 7 1 4 7 0 0))], pages := [(1, mkPair 64 (pageVal 0 false false 7 5))] } }),
    0, by decide +kernel⟩

set_option maxRecDepth 100000 in
theorem test_CheckpointsRun_7 : ∃ (s : State) (i : Nat), i < 16 ∧ octs (ctxAt s.m i).ckpt.status 1 1 = 1 ∧ (ctxAt s.m
    i).ckpt.verifying = [] ∧ digestReads s.m i = false ∧ octs (ctxAt s.m i).ckpt.status 0 1 = 4 :=
  ⟨base .ready (fun m0 => let m := withCtx 0 { running with st := .idle, pass := {}, ckpt := { va := 2 ^ 21, status := leBytes 1 4 ++ leBytes 1 1 ++ leBytes 6 0 ++ leBytes 8 9 } } m0; { m with mem := { m.mem with objects := [(7, mkPair 256 (objAtPage 7 1 4 7 0 0))], pages := [(1, mkPair 64 (pageVal 0 false false 7 5))] } }),
    0, by decide +kernel⟩

set_option maxRecDepth 100000 in
theorem test_CheckpointsRun_8 : ∃ (s : State) (x : Txn) (i : Nat), listening s.m ∧ ctxOfTag s.m x.jobTag = some i ∧ stepSound
    s.m i ∧ routable s.m x.src = true ∧ reserveVa ≤ fld x.detail 55 0 ∧ fromNeighbour s.m none x.src = true ∧ 0 < (rawOf x).length
    ∧ (fld x.detail 55 0 - reserveVa) + (rawOf x).length ≤ 2 * (s.m.mem.reserve.length / 2 * 2 ^ 21) :=
  ⟨inStep (fun m => withEntry 0x5000 3 4 0x04040404 { m with mem := { m.mem with reserve := [8, 9] } }),
    { fresh 2 (0xFFFF * 2 ^ 40) (.raw (List.replicate 64 1#8)) with src := portPeer (inStep (fun m => withEntry 0x5000 3 4 0x04040404 { m with mem := { m.mem with reserve := [8, 9] } })).m 0 },
    0, (by unfold listening; decide +kernel), by decide +kernel, (by unfold stepSound; decide +kernel), by decide +kernel,
    by decide +kernel, by decide +kernel, by decide +kernel, by decide +kernel⟩

theorem test_CheckpointsRun_9 : ∃ (s : State) (x : Txn) (i : Nat), listening s.m ∧ ctxOfTag s.m x.jobTag = some i ∧ stepSound
    s.m i ∧ routable s.m x.src = true ∧ (fld x.detail 55 0 < reserveVa ∨ 2 * (s.m.mem.reserve.length / 2 * 2 ^ 21) < (fld x.detail
    55 0 - reserveVa) + (rawOf x).length ∨ fromNeighbour s.m none x.src = false) :=
  ⟨inStep, fresh 2 (2 ^ 21) (.raw []), 0, (by unfold listening; decide), by decide, (by unfold stepSound; decide), by decide,
    by decide⟩

theorem test_CheckpointsRun_10 : ∃ (s : State) (x : Txn) (i : Nat), listening s.m ∧ ctxOfTag s.m x.jobTag = some i ∧ i < 16 ∧
    stepSound s.m i ∧ (ctxAt s.m i).ckpt.fast = true ∧ (ctxAt s.m i).ckpt.fastTags.contains x.tag = true ∧ x.err = false ∧
    (((ctxAt s.m i).ckpt.fastTags.filter (fun y => y != x.tag)) ≠ [] ∨ (ctxAt s.m i).ckpt.fastHead = true) :=
  ⟨base .run (withCtx 0 { running with ckpt := { fast := true, fastTags := [5, 6] } }), fresh 0x82 0 (.raw []), 0,
    (by unfold listening; decide), by decide, by decide, (by unfold stepSound; decide), by decide, by decide, by decide,
    by decide⟩

theorem test_CheckpointsRun_11 : ∃ (s : State) (x : Txn) (i : Nat), listening s.m ∧ ctxOfTag s.m x.jobTag = some i ∧ i < 16 ∧
    stepSound s.m i ∧ (ctxAt s.m i).ckpt.fast = true ∧ (ctxAt s.m i).ckpt.fastTags.contains x.tag = true ∧ x.err = false ∧ ((ctxAt
    s.m i).ckpt.fastTags.filter (fun y => y != x.tag)) = [] ∧ (ctxAt s.m i).ckpt.fastHead = false ∧ routable s.m (portPeer s.m
    (dnum s.m 0x8100 0x0F)) = true :=
  ⟨base .run (withCtx 0 { running with ckpt := { fast := true, fastTags := [5] } }), fresh 0x82 0 (.raw []), 0,
    (by unfold listening; decide), by decide, by decide, (by unfold stepSound; decide), by decide, by decide, by decide,
    by decide, by decide, by decide⟩

theorem test_CheckpointsRun_12 : ∃ (s : State) (x : Txn) (i : Nat), listening s.m ∧ ctxOfTag s.m x.jobTag = some i ∧ i < 16 ∧
    stepSound s.m i ∧ (ctxAt s.m i).ckpt.fast = true ∧ (ctxAt s.m i).ckpt.fastTags.contains x.tag = true ∧ x.err = true :=
  ⟨base .run (withCtx 0 { running with ckpt := { fast := true, fastTags := [5] } }),
    { fresh 0x82 0 (.raw []) with err := true }, 0, (by unfold listening; decide), by decide, by decide,
    (by unfold stepSound; decide), by decide, by decide, by decide⟩

theorem test_CheckpointsRun_13 : ∃ (s : State) (i : Nat), i < 16 ∧ (ctxAt s.m i).ckpt.fast = true ∧ (ctxAt s.m
    i).ckpt.fastHead = true ∧ (ctxAt s.m i).ckpt.fastTags = [] :=
  ⟨base .run (withCtx 0 { running with ckpt := { fast := true, fastHead := true } }), 0, by decide⟩

theorem test_StepRunsTheFrontCommand_2 : ∃ (s : State), s.pending = [] ∧ alive s.m = true :=
  ⟨base .run (fun m => { m with mgmt := { m.mgmt with dict := [(dkey 0x3000 0x08, ([0x11#8], [0x00#8]))] } }), by decide⟩

theorem test_StepRunsTheFrontCommand_3 : ∃ (s : State), s.pending = [] ∧ alive s.m = false :=
  ⟨State.reset, by decide⟩

theorem test_StepRunsTheFrontCommand_4 : ∃ (s : State), s.pending = [] ∧ alive s.m = true ∧ (∀ p ∈ s.m.mgmt.dict, p.2.2 =
    cplBytes p.2.1) :=
  ⟨base .run (fun m => dput m 0x3000 0x08 [0x11#8]), by decide⟩

theorem test_SecurityStateKept_1 : ∃ (s : State) (t : State), SecInv s.boot ∧ step s = .next t :=
  ⟨owned, ({ owned with m := { owned.m with dev := { owned.m.dev with time10 := owned.m.dev.time10 + 10 } } } : State),
    (by unfold SecInv; decide), rfl⟩

theorem test_UntaggedDiscarded_1 : ∃ (c : Instr) (x : Txn) (s : State), torusTxn c = some x ∧ listening s.m ∧ (c = .gather x ∨
    c = .sampleFwd x → s.m.tor.held = []) ∧ (∀ i, i < 16 → loaded (ctxAt s.m i) = true → (ctxAt s.m i).jobTag ≠ x.jobTag) :=
  ⟨.gather { fresh 3 0 (.gather 0 8 2 16) with jobTag := 8 }, { fresh 3 0 (.gather 0 8 2 16) with jobTag := 8 }, inStep,
    by decide, (by unfold listening; decide), by decide, by decide⟩

theorem test_UntaggedDiscarded_1b : ∃ (c : Instr) (x : Txn) (s : State), torusTxn c = some x ∧ listening s.m ∧ (c = .gather x
    ∨ c = .sampleFwd x → s.m.tor.held = []) ∧ (∀ i, i < 16 → loaded (ctxAt s.m i) = true → (ctxAt s.m i).jobTag ≠ x.jobTag) :=
  ⟨.halt (fresh 10 0 (.raw [])), fresh 10 0 (.raw []), base .config, by decide, (by unfold listening; decide), by decide,
    by decide⟩

/-! ### Ill-formed commands: one for each check of Instr.wf, which refuses it -/

set_option maxRecDepth 100000 in
theorem test_wf_refuses_start_and_host : ([
    .resetNRelease (2 ^ 13) 0 0, .resetNRelease 0 (2 ^ 13) 0, .resetNRelease 0 0 (2 ^ 13), .selftestEntry [],
    .pllLockTimeout 32, .bistComplete [] [], .bistComplete (List.replicate 16 (2 ^ 19)) [],
    .bistComplete (List.replicate 16 0) [32], .hbmTrainingComplete [32], .stateReady (2 ^ 32), .nop 4 (List.replicate 64 0),
    .nop 0 [], .load 4 (List.replicate 64 0) { header := [] } false, .unload 4 (List.replicate 64 0),
    .stepGo 4 (List.replicate 64 0), .bulkWrite 4 (List.replicate 64 0) [] false, .bulkRead 4 (List.replicate 64 0),
    .migrate 4 (List.replicate 64 0), .firmware 4 (List.replicate 64 0) [] [] false, .cmdDoorbell 4 0 0, .cmdDoorbell 0 2 0,
    .cmdDoorbell 0 0 (2 ^ 64), .cplDoorbell 4 0 0, .cplDoorbell 0 2 0, .cplDoorbell 0 0 (2 ^ 64), .ringControlWrite 4 0 0 0,
    .ringControlWrite 0 2 0 0, .ringControlWrite 0 0 4096 0, .ringReset 4, .functionLevelReset 2, .commandComplete 4,
    .cxlHostTimeout 4, .hostSnoop 2 0, .hdmAccess 2 0 64 none, .hdmAccess 0 0 64 (some []), .mailboxIdentify 2,
    .mailboxGetSupportedLogs 2, .perstNAssert 2, .perstNRelease 2, .cxlLinkL0 2 8 5 true, .cxlLinkL0 0 0 5 true,
    .cxlLinkL0 0 9 5 true, .cxlLinkDown 2 false] : List Instr).all (fun c => !c.wf) = true := by decide +kernel

set_option maxRecDepth 100000 in
theorem test_wf_refuses_core_to_recovery : ([
    .bundleIssue 4608, .loopEnd 4608, .mvRunRetire 4608, .drainComplete 4608, .xferComplete 4608, .layerDrainComplete 4608,
    .weightLoadReady 4608 0 0, .weightLoadReady 0 4 0, .weightLoadReady 0 0 2, .matrixOpRetire 4608 0, .matrixOpRetire 0 4,
    .streamStart 4608 0, .streamStart 0 8, .streamSlotCommit 4608 0, .streamSlotCommit 0 8, .completionPost 4608 0,
    .completionPost 0 8, .samplerRequestStart 128, .tephraBlockComplete 128, .gsOperationStart 128, .forwardTimeout 128 0,
    .forwardTimeout 0 (2 ^ 16), .remoteTimeout 128 0, .remoteTimeout 0 (2 ^ 16), .gatherComplete 128 0, .scatterComplete 128 0,
    .lowerTierResponse 0 (List.replicate 4097 0) false, .scatterTargetResult 16 0, .tablePublish 65536 [],
    .hotCopyComplete 65536 0, .ashScanComplete 65536, .migrationCopyComplete (2 ^ 35), .sinterCommand 288,
    .sinterCommandComplete 288, .refreshWaitLimit 16, .xComplete 16, .oComplete 16, .commitWaitLimit 16, .quench 16,
    .stepDeadline 16, .barrierWaitTimeout 16, .replayDiscardComplete 16, .hold 16, .release 16, .contextHalt 16, .clearGrant 16,
    .repairTimeout 16, .record 16, .restore 16, .digest 16, .verify 16, .checkpointCommandComplete 16, .fastCkptCopyComplete 16,
    .repairComplete 16 true, .hbmRereadResult 0 5 0 0 true, .hbmRereadResult 0 0 0 32 true, .tierRegionUnreachable 8] : List Instr).all (fun c => !c.wf) = true := by decide +kernel

set_option maxRecDepth 100000 in
theorem test_wf_refuses_transactions : ([
    .gather {}, .gatherData {}, .scatter {}, .scatterEnd {}, .sampleFwd {}, .sampleResult {}, .pipeSlot {}, .shard {},
    .notify {}, .read {}, .readData {}, .write {}, .writeAck {}, .contrib { typ := 8 }, .result { typ := 8 },
    .maxima { typ := 8 }, .norm { typ := 8 }, .ready { typ := 10 }, .begin { typ := 10 }, .abort { typ := 10 },
    .halt { typ := 10 }, .notify { typ := 11, dest := 2 ^ 20 }, .notify { typ := 11, src := 2 ^ 20 },
    .notify { typ := 11, tag := 2 ^ 16 }, .notify { typ := 11, jobTag := 2 ^ 16 }, .notify { typ := 11, replay := 2 ^ 16 },
    .notify { typ := 11, step := 2 ^ 64 }, .notify { typ := 11, detail := 2 ^ 64 },
    .notify { typ := 11, body := .raw (List.replicate 16385 0) }] : List Instr).all (fun c => !c.wf) = true := by decide +kernel

set_option maxRecDepth 100000 in
theorem test_wf_refuses_links_to_management : ([
    .portLightDetect 8 44, .portLightDetect 0 45, .equaliseComplete 8 ⟨0, 0⟩, .equaliseComplete 0 ⟨2 ^ 44, 0⟩, .equaliseComplete 0 ⟨0, 2 ^ 44⟩, .fecLockComplete 8,
    .flitInitComplete 8, .trainingStateTimeout 8, .downTimerExpiry 8, .identTimer 8, .keepaliveTimer 8, .linkLostTimer 8,
    .nakTimer 8, .laneSwapTimer 8, .laneTestRetryExpiry 8, .ident 8 {}, .keepalive 8 0 0 0 0, .down 8 0, .epochMarker 8 0,
    .flitReceive 8 ⟨0, List.replicate 248 0⟩ default, .flitReceive 0 ⟨2 ^ 64, List.replicate 248 0⟩ default,
    .flitReceive 0 ⟨0, []⟩ default, .laneFailure 8 { lane := 0 }, .laneFailure 0 { lane := 44 }, .spareLaneFailure 8 0, .spareLaneFailure 0 44,
    .laneSwap 8 0 40 0, .laneSwap 0 44 40 0, .laneSwap 0 0 44 0, .powerSample [] 0 0, .operatingPointSwitchDone 16,
    .sensorRead [], .thermalTrip 120, .railOutOfRange 8 true, .referenceLost 3, .referenceReturn 3, .pllUnlock 32,
    .dictWrite 65536 0 [], .dictWrite 0 256 [], .boundaryScan true 2 [], .configurationRequest 2 0 none,
    .configurationRequest 0 (2 ^ 20) none, .mgmtRead { via := .mbox 0, payload := List.replicate 16 0 },
    .mgmtWrite { via := .mbox 0, payload := List.replicate 16 0 },
    .readBlock { via := .mbox 0, payload := List.replicate 16 0 },
    .writeBlock { via := .mbox 0, payload := List.replicate 16 0 },
    .mgmtAbort { via := .mbox 0, payload := List.replicate 16 0 },
    .dictImageRead { via := .mbox 0, payload := List.replicate 16 0 },
    .mgmtFrameDiscard { via := .mbox 2, payload := List.replicate 16 0 }, .mgmtFrameDiscard { via := .mbox 0 },
    .mgmtFrameDiscard { via := .mbox 0, payload := List.replicate 4097 0 },
    .mgmtFrameDiscard { dst := [], src := List.replicate 6 0, payload := List.replicate 16 0 },
    .mgmtFrameDiscard { dst := List.replicate 6 0, payload := List.replicate 16 0 },
    .mgmtFrameDiscard { dst := List.replicate 6 0, src := List.replicate 6 0, etherType := 65536, payload := List.replicate 16 0 },
    .mgmtFrameDiscard { dst := List.replicate 6 0, src := List.replicate 6 0, payload := List.replicate 1501 0 }] : List Instr).all (fun c => !c.wf) = true := by decide +kernel

/-- Commands at the ends of their ranges are well formed. -/
theorem test_wf_accepts : ([
    .resetNRelease (2 ^ 13 - 1) 0 0, .pllLockTimeout 31, .bundleIssue 4607, .streamStart 4607 7, .laneSwap 7 43 40 0,
    .sinterCommand 287, .quench 15, .notify { typ := 11, dest := 2 ^ 20 - 1 }, .contrib { typ := 8, detail := 2 ^ 60 },
    .ringReset 3, .mgmtRead { via := .mbox 1, payload := 0 :: 1 :: List.replicate 14 0 },
    .flitReceive 7 ⟨2 ^ 64 - 1, List.replicate 248 0⟩ default] : List Instr).all (fun c => c.wf) = true := by decide +kernel

/-! ### A command of a sinter unit's ring -/

/-- PACK_ROWS of one row of 16 elements in FP8 (R362, R369). -/
def packOne : List Byte :=
  leBytes 1 3 ++ leBytes 1 4 ++ leBytes 1 1 ++ leBytes 1 1 ++ leBytes 4 1 ++ leBytes 8 64 ++ leBytes 8 4096 ++ leBytes 8 0

/-- Core 0's ring 0, kind SINTER in staging memory, with that command in its first slot. -/
def sinterReady : State :=
  base .run (fun m0 =>
    let m := withCtx 0 { running with claims := { running.claims with raw := leBytes 76 0 ++ leBytes 20 65536 } } m0
    withCore 0 0 (setRing 0 { desc := mkPair 256 (3 * 2 ^ 24 + 4 * 2 ^ 32 + 2 ^ 48 + 64 * 2 ^ 96), head := 1, headC := 0xFFFFFFFE })
      { m with mem := { m.mem with staging := cellsPut m.mem.staging (stagAddr 0 0) packOne } })

theorem test_SinterCommandsRun_1 : ∃ (s : State) (cl q : Nat) (m2 : Mach), (s.m.sinters.get cl {}).run = none ∧ nextSinter s.m cl = some q ∧
    rdWhere (ringAt (coreAt s.m 0) q) = 1 ∧ cellsGet s.m.mem.staging (stagAddr cl 0) 32 = packOne ∧ issues s.m (coreAt s.m 0) = true ∧
    ringOk (ringAt (coreAt s.m 0) q) = true ∧ posting s.m (.sinter cl) = false ∧
    slotOffset (ringAt (coreAt s.m 0) q) (ringAt (coreAt s.m 0) q).racq = 0 ∧ slotParity s.m 0 0 true = false ∧
    runSinter 0 packOne s.m = .ok m2 :=
  ⟨sinterReady, 0, 0, gotten {} (runSinter 0 packOne sinterReady.m), by decide +kernel, by decide +kernel, by decide +kernel,
    by decide +kernel, by decide +kernel, by decide +kernel, by decide +kernel, by decide +kernel, by decide +kernel,
    ok_gotten {} (by decide +kernel)⟩

/-! ### A table without rows, to be scanned (R202, R203) -/

/-- Octets of all ones. -/
def ones (a n : Nat) : List Host.Cell := (List.range' a n).map (fun k => (k, 0xFF#8))

theorem ones_between (a n b k : Nat) :
    (ones a n).filter (fun p => decide (b ≤ p.1) && decide (p.1 < b + k)) = ones (max a b) (min (a + n) (b + k) - max a b) := by
  induction n generalizing a with
  | zero =>
    have h : min (a + 0) (b + k) - max a b = 0 := by omega
    rw [h]; rfl
  | succ n ih =>
    have e : ones a (n + 1) = (a, 0xFF#8) :: ones (a + 1) n := rfl
    rw [e, List.filter_cons, ih (a + 1)]
    by_cases h : b ≤ a ∧ a < b + k
    · rw [if_pos (by simpa using h)]
      have h1 : max a b = a := by omega
      have h2 : min (a + (n + 1)) (b + k) - a = (min (a + 1 + n) (b + k) - max (a + 1) b) + 1 := by omega
      have h3 : max (a + 1) b = a + 1 := by omega
      rw [h1, h2, h3]; rfl
    · rw [if_neg (by simpa using h)]
      by_cases h4 : a < b
      · have h1 : max (a + 1) b = max a b := by omega
        have h2 : a + 1 + n = a + (n + 1) := by omega
        rw [h1, h2]
      · have h1 : min (a + 1 + n) (b + k) - max (a + 1) b = 0 := by omega
        have h2 : min (a + (n + 1)) (b + k) - max a b = 0 := by omega
        rw [h1, h2]; rfl

theorem run_ones (n a : Nat) : cellsRun n a (ones a n) = List.replicate n 0xFF#8 := by
  induction n generalizing a with
  | zero => rfl
  | succ n ih =>
    have e : ones a (n + 1) = (a, 0xFF#8) :: ones (a + 1) n := rfl
    rw [e, cellsRun, if_pos (by simp), ih (a + 1)]; rfl

/-- The table's descriptor: ash rows by averaging. -/
def emptyDesc : Pair := mkPair 512 (tabD 1 0 + 2 * 2 ^ 377)

/-- Table 7 with a scan under way; its 4,096 directory entries are zero and their complements ones. -/
def emptyTable : State :=
  base .run (fun m0 =>
    let m := withTab (tabD 1 0 + 2 * 2 ^ 377) (fun t => { t with scanning := true, scanRead := true }) m0
    { m with mem := { m.mem with phys := ones (6 * 2 ^ 21 + 65536) 65536 } })

theorem empty_vread (va : Nat) (h : 3 * 2 ^ 21 ≤ va) (h2 : va + 16 ≤ 4 * 2 ^ 21) :
    vread emptyTable.m va 16 = .ok (cellsGet (ones (6 * 2 ^ 21 + 65536) 65536) (6 * 2 ^ 21 + (va - 3 * 2 ^ 21)) 16) := by
  have v : vpnOf va = 3 := by unfold vpnOf; omega
  have v2 : vpnOf (va + 16 - 1) = 3 := by unfold vpnOf; omega
  have s : spanVpns va 16 = [3] := by unfold spanVpns; rw [v, v2]; rfl
  have w : walkVpn emptyTable.m.mem 3 = .entry (pageVal 0 false false 8 6) := by decide +kernel
  have r : readCheck emptyTable.m.mem va 16 = 0 := by unfold readCheck; rw [s]; simp [w]
  have md : va % 2 ^ 56 = va := by omega
  have p : spanParts va 16 = [(3, 0, 16)] := by
    unfold spanParts
    simp only [md, s, List.map_cons, List.map_nil]
    have a : max va (3 * 2 ^ 21) = va := by omega
    have b : min (va + 16) ((3 + 1) * 2 ^ 21) = va + 16 := by omega
    rw [a, b]
    have c : va - va = 0 := by omega
    have d : va + 16 - va = 16 := by omega
    rw [c, d]
  have q : place? emptyTable.m.mem va = some (6 * 2 ^ 21 + (va - 3 * 2 ^ 21)) := by
    unfold place?
    rw [v, w]
    have a : pTier (pageVal 0 false false 8 6) = 0 := by decide
    have b : pFrame (pageVal 0 false false 8 6) = 6 := by decide
    have c : va % 2 ^ 21 = va - 3 * 2 ^ 21 := by omega
    simp only [placeOf, a, b, c]
    simp
  unfold vread
  rw [r]
  simp only [vget, p, List.flatMap_cons, List.flatMap_nil, Nat.add_zero, q, List.append_nil]
  rfl

theorem empty_entry (p : Nat) (h : p < 4096) : partEntry emptyTable.m emptyDesc.v p = .ok (0, 0) := by
  have d : tdPart emptyDesc.v = 3 * 2 ^ 21 := by decide +kernel
  have a : cellsGet (ones (6 * 2 ^ 21 + 65536) 65536) (6 * 2 ^ 21 + (3 * 2 ^ 21 + 16 * p - 3 * 2 ^ 21)) 16 = List.replicate 16 0 := by
    unfold cellsGet
    rw [ones_between]
    have z : min (6 * 2 ^ 21 + 65536 + 65536) (6 * 2 ^ 21 + (3 * 2 ^ 21 + 16 * p - 3 * 2 ^ 21) + 16) -
        max (6 * 2 ^ 21 + 65536) (6 * 2 ^ 21 + (3 * 2 ^ 21 + 16 * p - 3 * 2 ^ 21)) = 0 := by omega
    rw [z]; rfl
  have b : cellsGet (ones (6 * 2 ^ 21 + 65536) 65536) (6 * 2 ^ 21 + (3 * 2 ^ 21 + 65536 + 16 * p - 3 * 2 ^ 21)) 16 =
      List.replicate 16 0xFF#8 := by
    unfold cellsGet
    rw [ones_between]
    have y : max (6 * 2 ^ 21 + 65536) (6 * 2 ^ 21 + (3 * 2 ^ 21 + 65536 + 16 * p - 3 * 2 ^ 21)) =
        6 * 2 ^ 21 + (3 * 2 ^ 21 + 65536 + 16 * p - 3 * 2 ^ 21) := by omega
    have z : min (6 * 2 ^ 21 + 65536 + 65536) (6 * 2 ^ 21 + (3 * 2 ^ 21 + 65536 + 16 * p - 3 * 2 ^ 21) + 16) -
        (6 * 2 ^ 21 + (3 * 2 ^ 21 + 65536 + 16 * p - 3 * 2 ^ 21)) = 16 := by omega
    rw [y, z, run_ones]
  unfold partEntry
  rw [d, empty_vread _ (by omega) (by omega), empty_vread _ (by omega) (by omega), a, b]
  rfl

theorem mapM_const {α β : Type} (f : α → Sr β) (y : β) (l : List α) (h : ∀ x ∈ l, f x = .ok y) :
    l.mapM f = .ok (l.map (fun _ => y)) := by
  induction l with
  | nil => rfl
  | cons x r ih =>
    rw [List.mapM_cons, h x (by simp), ih (fun z hz => h z (by simp [hz]))]
    rfl

theorem flatten_const {α β : Type} (l : List α) : (l.map (fun _ => ([] : List β))).flatten = [] := by
  induction l with
  | nil => rfl
  | cons x r ih => rw [List.map_cons, List.flatten_cons, ih]; rfl

theorem empty_sums : ashSums emptyTable.m emptyDesc.v = .ok [] := by
  have o : ownedKeys emptyTable.m emptyDesc.v = .ok [] := by
    unfold ownedKeys
    rw [mapM_const _ [] (List.range 4096) (fun p hp => by rw [empty_entry p (List.mem_range.mp hp)]; rfl)]
    exact congrArg Except.ok (flatten_const (List.range 4096))
  unfold ashSums
  rw [o]; rfl

theorem test_PublishesAndRefreshGoOn_10 : ∃ (s : State) (id : Nat) (p : Pair) (sums : SMap (List Nat × Nat)),
    (tabAt s.m id).cur = some p ∧ (tabAt s.m id).scanning = true ∧ pairOk 512 p.v p.c = true ∧
    ((tabAt s.m id).scanRead = true ∨ lowSpans s.m.mem (scanReads s.m p.v) = []) ∧ tdAsh p.v = 2 ∧ ashSums s.m p.v = .ok sums :=
  ⟨emptyTable, 7, emptyDesc, [], by decide +kernel, by decide +kernel, by decide +kernel, .inl (by decide +kernel), by decide +kernel,
    empty_sums⟩

/-! ### Results worked out in the manual -/

/-- The worked bundle of 08: its four words, each a legal encoding. -/
theorem test_bundle_words :
    let b := 0x0408420000D1A001 * 2 ^ 64 + 0x0000000002130000
    ([0, 1, 2, 3].map (slotWord b) = [0x04084200, 0x00D1A001, 0, 0x02130000]) ∧
    [0, 1, 2, 3].all (fun k => slotLegal k (slotWord b k)) = true := by decide +kernel

/-- The same bundle without its M slot, on a core whose ring 2 has a committed slot: s4 rises by 512, the slot is acquired into a6. -/
theorem test_bundle_issues :
    let s := inStep (withCore 2310 (0x0408420000000000 * 2 ^ 64 + 0x02130000) (fun c =>
      setRing 2 { desc := mkPair 256 (2 * 2 ^ 16 + 4 * 2 ^ 32 + 4096 * 2 ^ 64 + 512 * 2 ^ 96), head := 1, headC := 0xFFFFFFFE } { c with s := c.s.set 4 7 }))
    (match exec (.bundleIssue 2310) s with
      | .next t => (coreAt t.m 2310).s.getD 4 0 == 519 && (coreAt t.m 2310).a.getD 6 0 == 4096 && (ringAt (coreAt t.m 2310) 2).racq == 1
      | _ => false) = true := by decide +kernel

/-- The worked times of R435: the parent is 4.0 ns ahead, the delay 168.0 ns; the counter steps once (R436). -/
theorem test_time_offset :
    let s := base .config (fun m => withPort 1 { st := 6 } (withEntry 0x5000 2 4 1 (withEntry 0x5000 3 4 0x01010104 m)))
    (match exec (.keepalive 1 5000 1000 2720 6640) s with
      | .next t => (portAt t.m 1).theta == 40 && (portAt t.m 1).delta == 1680 && t.m.dev.time10 == s.m.dev.time10 + 40
      | _ => false) = true := by decide +kernel

/-- The check value of CRC-32C: the nine digits. -/
theorem test_crc32c : crc32c [0x31#8, 0x32#8, 0x33#8, 0x34#8, 0x35#8, 0x36#8, 0x37#8, 0x38#8, 0x39#8] = 0xE3069283 := by decide +kernel

/-- The first octets of SHAKE256 of the empty message (FIPS 202). -/
theorem test_shake256 : shake256 [] 8 = [0x46#8, 0xB9#8, 0xDD#8, 0x2B#8, 0x0B#8, 0xA8#8, 0x8D#8, 0x13#8] := by decide +kernel

end Sys2Proof.Tests
end

namespace Sys2Proof.Proofs

open Sys2Proof.Machine Sys2Proof.Laws

/-! ### Power, reset and straps (19 R618, R619) -/

theorem tbit_eq_testBit (x k : Nat) : tbit x k = x.testBit k := by
  simp only [tbit, Nat.testBit_eq_decide_div_mod_eq, Nat.shiftRight_eq_div_pow]
  rfl

/-- The mask of StrapStatus has just the strap bits. -/
theorem testBit_strapMask (k : Nat) : strapMask.testBit k = true ↔ k ∈ strapBits := by
  by_cases h : k < 13
  · exact (by decide : ∀ k, k < 13 → (strapMask.testBit k = true ↔ k ∈ strapBits)) k h
  · have hk : strapMask.testBit k = false :=
      Nat.testBit_lt_two_pow (Nat.lt_of_lt_of_le (by decide) (Nat.pow_le_pow_right (by decide) (Nat.le_of_not_lt h)))
    have hb : ∀ x ∈ strapBits, x < 13 := by decide
    exact ⟨fun e => absurd (hk.symm.trans e) Bool.false_ne_true, fun e => absurd (hb k e) h⟩

/-- Each bit of majority3 is the majority of the three samples' bits. -/
theorem testBit_majority3 (a b c k : Nat) :
    (majority3 a b c).testBit k = ((tbit a k && tbit b k) || (tbit a k && tbit c k) || (tbit b k && tbit c k)) := by
  simp only [majority3, tbit_eq_testBit, Nat.testBit_or, Nat.testBit_and]

/-- A bit of disagree3 is set just where the three samples do not all agree. -/
theorem testBit_disagree3 (a b c k : Nat) :
    (disagree3 a b c).testBit k = true ↔ ¬(tbit a k = tbit b k ∧ tbit a k = tbit c k) := by
  simp only [disagree3, tbit_eq_testBit, Nat.testBit_or, Nat.testBit_xor]
  generalize a.testBit k = x, b.testBit k = y, c.testBit k = z
  revert x y z
  decide

/-- The samples of no strap disagree just when the masked disagreement is zero. -/
theorem disagree3_masked_ne_zero (a b c : Nat) :
    disagree3 a b c &&& strapMask ≠ 0 ↔ ∃ k ∈ strapBits, ¬(tbit a k = tbit b k ∧ tbit a k = tbit c k) := by
  constructor
  · intro h
    obtain ⟨k, hk⟩ := Nat.exists_testBit_of_ne_zero h
    rw [Nat.testBit_and, Bool.and_eq_true] at hk
    exact ⟨k, (testBit_strapMask k).mp hk.2, (testBit_disagree3 a b c k).mp hk.1⟩
  · rintro ⟨k, hk, hd⟩ h0
    have : (disagree3 a b c &&& strapMask).testBit k = true := by
      rw [Nat.testBit_and, (testBit_disagree3 a b c k).mpr hd, (testBit_strapMask k).mpr hk]; rfl
    simp [h0] at this

/-- StrapStatus as a release of RESET_N sets it: the majorities, and the Unstable bit. -/
def strapWord (a b c : Nat) : Nat :=
  (majority3 a b c &&& strapMask) + (if disagree3 a b c &&& strapMask == 0 then 0 else 0x8000)

theorem masked_lt (x : Nat) : x &&& strapMask < 2 ^ 15 :=
  Nat.lt_of_le_of_lt Nat.and_le_right (by decide)

theorem tbit_strapWord {k : Nat} (a b c : Nat) (hk : k ∈ strapBits) :
    tbit (strapWord a b c) k = ((tbit a k && tbit b k) || (tbit a k && tbit c k) || (tbit b k && tbit c k)) := by
  have hlt : k < 15 := (by decide : ∀ x ∈ strapBits, x < 15) k hk
  have hm : (majority3 a b c &&& strapMask).testBit k = (majority3 a b c).testBit k := by
    rw [Nat.testBit_and, (testBit_strapMask k).mpr hk, Bool.and_true]
  rw [← testBit_majority3, ← hm, tbit_eq_testBit, strapWord]
  split
  · rfl
  · rw [Nat.add_comm]; exact Nat.testBit_two_pow_add_gt hlt _

theorem tbit_strapWord_unstable (a b c : Nat) :
    tbit (strapWord a b c) 15 = true ↔ ∃ k ∈ strapBits, ¬(tbit a k = tbit b k ∧ tbit a k = tbit c k) := by
  have hm : (majority3 a b c &&& strapMask).testBit 15 = false := Nat.testBit_lt_two_pow (masked_lt _)
  rw [← disagree3_masked_ne_zero, tbit_eq_testBit, strapWord]
  by_cases h : disagree3 a b c &&& strapMask = 0
  · simp [h, hm]
  · have h15 : (0x8000 + (majority3 a b c &&& strapMask)).testBit 15 = !(majority3 a b c &&& strapMask).testBit 15 :=
      Nat.testBit_two_pow_add_eq _ 15
    simp [h, Nat.add_comm _ 0x8000, h15, hm]

/-- A release of RESET_N in RESET sets the straps and the time base; the notification that it may raise touches neither. -/
theorem resetNRelease_next (s : State) (a b c : Nat) (hr : s.m.dev.st = .reset) (hn : s.m.dev.released = false) :
    ∃ t, exec (.resetNRelease a b c) s = .next t ∧ t.boot = s.boot ∧
      t.m.dev = { s.m.dev with strap := strapWord a b c, released := true, time10 := 30000 } := by
  refine ⟨_, rfl, ?_, ?_⟩
  · simp [hr, hn]
  · simp only [hr, hn, strapWord]
    by_cases h : disagree3 a b c &&& strapMask = 0 <;> simp [h, countN]

/-- Settles O22: the four ways into RESET and OFF are `discarded` as it stands, and the straps are read off bit by bit. -/
theorem resetDiscardsAndStrapsRead : Obligations.ResetDiscardsAndStrapsRead := by
  unfold Obligations.ResetDiscardsAndStrapsRead
  refine ⟨⟨?_, ?_, ?_, ?_⟩, ?_⟩
  · intro s hoff
    simp only [exec, execPowerUp, hoff]
    rfl
  · intro s
    rfl
  · intro s hoff
    simp only [exec, execResetNAssert, beq_iff_eq, if_neg hoff]
    rfl
  · intro s hoff hres hdelay
    have ha : alive s.m = true := by simp [alive, hoff, hres]
    simp only [exec, execStateResetDelayExpiry, hdelay, ha]
    rfl
  · intro s a b c hr hn
    obtain ⟨t, ht, hboot, hdev⟩ := resetNRelease_next s a b c hr hn
    refine ⟨t, ht, ?_⟩
    rw [hdev]
    exact ⟨rfl, rfl, hboot, fun k hk => tbit_strapWord a b c hk, tbit_strapWord_unstable a b c⟩

end Sys2Proof.Proofs

namespace Sys2Proof.Proofs

open Sys2Proof.Machine Sys2Proof.Laws

/-! ### What the fault path can do (01 R22, R23, 12 R424, 14 R499, R500, 15 R521, 18 R602)

Sending transactions, raising codes, aborting passes and putting contexts into HALT are done by one set of operations, which
call each other. One relation says what all of them can change. -/

/-- `d` is the context `c` but for what an error changes of it: its state, its pass, its failure record and its mending. -/
def ErrorOnly (c d : Ctx) : Prop :=
  d = { c with st := d.st, pass := d.pass, failure := d.failure, mendDue := d.mendDue }

theorem errorOnly_refl (c : Ctx) : ErrorOnly c c := rfl

theorem errorOnly_trans {c d e : Ctx} (h : ErrorOnly c d) (k : ErrorOnly d e) : ErrorOnly c e := by
  unfold ErrorOnly at *
  rw [k, h]

/-- A read of any context after an update of one: the update where it is that one, and there is such a context. -/
theorem ctxAt_modCtx (i j : Nat) (f : Ctx → Ctx) (m : Mach) :
    ctxAt (modCtx i f m) j = if i = j ∧ i < 16 then f (ctxAt m j) else ctxAt m j := by
  by_cases e : i = j
  · subst e
    by_cases h : i < 16
    · simp [h]
    · have h16 : 16 ≤ i := Nat.le_of_not_lt h
      simp only [h, and_false, if_false]
      exact (tab_getD_past (modCtx i f m).ctxs i {} h16).trans (tab_getD_past m.ctxs i {} h16).symm
  · simp only [e, false_and, if_false]
    exact ctxAt_modCtx_ne m i j f e

/-- What holds of each context and its update, holds of every context of the machine before and after. -/
theorem ctxAt_modCtx_rel {R : Ctx → Ctx → Prop} (hr : ∀ c, R c c) (i : Nat) (f : Ctx → Ctx) (m : Mach)
    (hf : R (ctxAt m i) (f (ctxAt m i))) (j : Nat) : R (ctxAt m j) (ctxAt (modCtx i f m) j) := by
  rw [ctxAt_modCtx]
  split
  · rename_i h
    rw [← h.1]
    exact hf
  · exact hr _

theorem ctxAt_congr {a b : Mach} (h : b.ctxs = a.ctxs) (j : Nat) : ctxAt b j = ctxAt a j := by
  simp only [ctxAt, h]

/-- The counters that the fault path counts in: flits and blocked transactions, waits and ABORTs, frames and notifications, and the
checks that name a fault (18 R613 to R616). -/
def faultCounters : List Nat :=
  [dkey 0x6900 0x01, dkey 0x6900 0x0A, dkey 0x6B00 0x04, dkey 0x6B00 0x07, dkey 0x6E00 0x02, dkey 0x6E00 0x09, dkey 0x6E00 0x0A,
   dkey 0x6400 0x0C, dkey 0x6500 0x0C, dkey 0x6600 0x0E, dkey 0x6700 0x0C, dkey 0x6A00 0x09]

/-- `b` follows from `a` by the fault path: the device state, the management port (the dictionary and the subscriptions stay, codes
raised stay raised), the ports of the torus, the contexts (`ErrorOnly`), the counters of `faultCounters` and the recovery statistics
may differ, and what has left the device has left it. -/
structure FaultPath (a b : Mach) : Prop where
  rest : b = { a with
    dev := { a.dev with st := b.dev.st }, mgmt := b.mgmt, tor := { a.tor with ports := b.tor.ports }, ctxs := b.ctxs,
    cnt := b.cnt, recStats := b.recStats, out := b.out }
  dict : b.mgmt.dict = a.mgmt.dict
  subs : b.mgmt.subs = a.mgmt.subs
  out : a.out <+: b.out
  raised : ∀ code, 256 ≤ code → raisedCode code a → raisedCode code b
  ctxs : ∀ j, ErrorOnly (ctxAt a j) (ctxAt b j)
  counters : ∀ k, k ∉ faultCounters → b.cnt.get k 0 = a.cnt.get k 0

namespace FaultPath

theorem refl (m : Mach) : FaultPath m m :=
  ⟨rfl, rfl, rfl, List.prefix_refl _, fun _ _ h => h, fun _ => rfl, fun _ _ => rfl⟩

theorem trans {a b c : Mach} (h : FaultPath a b) (k : FaultPath b c) : FaultPath a c where
  rest := by rw [k.rest, h.rest]
  dict := k.dict.trans h.dict
  subs := k.subs.trans h.subs
  out := h.out.trans k.out
  raised := fun code hc hr => k.raised code hc (h.raised code hc hr)
  ctxs := fun j => errorOnly_trans (h.ctxs j) (k.ctxs j)
  counters := fun x hx => (k.counters x hx).trans (h.counters x hx)

theorem foldl {α : Type} (f : Mach → α → Mach) (l : List α) (m : Mach) (hf : ∀ x a, FaultPath x (f x a)) :
    FaultPath m (l.foldl f m) :=
  foldl_keeps (fun x => FaultPath m x) f l m (refl m) (fun x a h => h.trans (hf x a))

/-- A context's update of this kind. -/
theorem modCtx (i : Nat) (f : Ctx → Ctx) (m : Mach) (hf : ∀ c, ErrorOnly c (f c) := by exact fun _ => rfl) :
    FaultPath m (Machine.modCtx i f m) where
  rest := rfl
  dict := rfl
  subs := rfl
  out := List.prefix_refl _
  raised := fun _ _ h => h
  ctxs := fun j => ctxAt_modCtx_rel errorOnly_refl i f m (hf _) j
  counters := fun _ _ => rfl

theorem modPass (i : Nat) (f : Pass → Pass) (m : Mach) : FaultPath m (Machine.modPass i f m) := modCtx i _ m

theorem countN (index sub n : Nat) (m : Mach) (hc : dkey index sub ∈ faultCounters := by decide) : FaultPath m (countN index sub n m) :=
  ⟨rfl, rfl, rfl, List.prefix_refl _, fun _ _ h => h, fun _ => rfl,
    fun k hk => smap_get_put_ne m.cnt (dkey index sub) k _ 0 (fun e => hk (e ▸ hc))⟩

theorem count (index sub : Nat) (m : Mach) (hc : dkey index sub ∈ faultCounters := by decide) : FaultPath m (count index sub m) :=
  countN index sub 1 m hc

theorem emit (o : Out) (m : Mach) : FaultPath m (emit o m) :=
  ⟨rfl, rfl, rfl, List.prefix_append _ _, fun _ _ h => h, fun _ => rfl, fun _ _ => rfl⟩

theorem setPort (p : Nat) (x : Port) (m : Mach) : FaultPath m (setPort p x m) :=
  ⟨rfl, rfl, rfl, List.prefix_refl _, fun _ _ h => h, fun _ => rfl, fun _ _ => rfl⟩

theorem recStat (k : Nat) (m : Mach) : FaultPath m (recStat k m) :=
  ⟨rfl, rfl, rfl, List.prefix_refl _, fun _ _ h => h, fun _ => rfl, fun _ _ => rfl⟩

/-- The record of a notification: codes that stood raised still do. -/
theorem recorded (seq : Nat) (history : List (List Byte)) (raised : SMap (Nat × Nat)) (m : Mach)
    (hr : ∀ code, 256 ≤ code → raisedCode code m → (raised.find code).isSome) :
    FaultPath m { m with mgmt := { m.mgmt with seq := seq, history := history, lastRaise := raised } } :=
  ⟨rfl, rfl, rfl, List.prefix_refl _, hr, fun _ => rfl, fun _ _ => rfl⟩

theorem queued (q : List (Nat × List Byte)) (m : Mach) : FaultPath m { m with mgmt := { m.mgmt with txQueue := q } } :=
  ⟨rfl, rfl, rfl, List.prefix_refl _, fun _ _ h => h, fun _ => rfl, fun _ _ => rfl⟩

theorem devSt (st : DevState) (m : Mach) : FaultPath m { m with dev := { m.dev with st := st } } :=
  ⟨rfl, rfl, rfl, List.prefix_refl _, fun _ _ h => h, fun _ => rfl, fun _ _ => rfl⟩

end FaultPath

/-! ### Notifications -/

/-- A record of another code leaves a code raised. -/
theorem isSome_find_put {α : Type} (l : SMap α) (k j : Nat) (v : α) (h : (l.find j).isSome) : ((l.put k v).find j).isSome := by
  by_cases e : j = k
  · rw [e, smap_find_put_self]; rfl
  · rw [smap_find_put_ne l k j v e]; exact h

theorem smap_find_del_ne {α : Type} (l : SMap α) (k j : Nat) (h : j ≠ k) : (l.del k).find j = l.find j := by
  induction l with
  | nil => rfl
  | cons p r ih =>
    obtain ⟨a, v⟩ := p
    unfold SMap.del at ih ⊢
    by_cases e : a = k
    · have hj : ¬ (j == a) = true := by simpa [e] using h
      simp only [List.filter_cons, e, bne_self_eq_false, Bool.false_eq_true, if_false, SMap.find]
      rw [ih, if_neg (by simpa using h)]
    · simp only [List.filter_cons, bne_iff_ne, ne_eq, e, not_false_eq_true, if_true, SMap.find, ih]

namespace FaultPath

theorem sendFrame (d : Nat) (p : List Byte) (m : Mach) : FaultPath m (sendFrame d p m) := by
  unfold Machine.sendFrame
  split
  · exact ((queued _ m).trans (emit _ _)).trans (count _ _ _)
  · exact refl m

theorem sendRecord (rb : List Byte) (seq cls : Nat) (m : Mach) : FaultPath m (sendRecord rb seq cls m) := by
  refine foldl _ _ m (fun x a => ?_)
  split
  · split
    · refine foldl _ _ x (fun y p => ?_)
      split
      · exact emit _ y
      · exact refl y
    · exact sendFrame _ _ x
  · exact refl x

theorem formRecord (code ctx flags : Nat) (m : Mach) : FaultPath m (formRecord code ctx flags m) := by
  unfold Machine.formRecord
  exact ((recorded _ _ _ m (fun _ _ h => isSome_find_put m.mgmt.lastRaise _ _ _ h)).trans (count _ _ _)).trans (sendRecord _ _ _ _)

theorem notifyCode (code ctx flags : Nat) (m : Mach) : FaultPath m (notifyCode code ctx flags m) := by
  unfold Machine.notifyCode
  split
  · exact refl m
  · split
    · split
      · exact (recorded _ _ _ m (fun _ _ h => isSome_find_put m.mgmt.lastRaise _ _ _ h)).trans (count _ _ _)
      · exact formRecord _ _ _ m
    · exact formRecord _ _ _ m

theorem raiseDev (code : Nat) (m : Mach) : FaultPath m (raiseDev code m) := notifyCode code 0xFF 0 m

/-- A change of device state raises its own code anew, and leaves every code of another class raised. -/
theorem setDevState (st : DevState) (m : Mach) : FaultPath m (setDevState st m) := by
  have hcode : st.code < 256 := by cases st <;> decide
  unfold Machine.setDevState
  split
  · exact refl m
  · split
    · have keeps (code : Nat) (hc : 256 ≤ code) (h : raisedCode code m) : ((m.mgmt.lastRaise.del st.code).find code).isSome := by
        rw [smap_find_del_ne _ _ _ (by omega)]
        exact h
      exact ((devSt st m).trans (recorded _ _ (m.mgmt.lastRaise.del st.code) _ keeps)).trans (formRecord _ _ _ _)
    · exact devSt st m

end FaultPath

/-! ### Transactions -/

namespace FaultPath

theorem sendSeq (p typ vc : Nat) (rest : List Byte) (nak : Nat) (m : Mach) : FaultPath m (sendSeq p typ vc rest nak m) := by
  unfold Machine.sendSeq
  dsimp only
  split
  · exact setPort _ _ m
  · exact ((setPort _ _ m).trans (emit _ _)).trans (count _ _ _)

theorem freeBuffer (p vc n : Nat) (m : Mach) : FaultPath m (freeBuffer p vc n m) := by
  unfold Machine.freeBuffer
  split
  · exact refl m
  · dsimp only
    split
    · exact (setPort _ _ m).trans (sendSeq _ _ _ _ _ _)
    · exact setPort _ _ m

theorem pumpPort (n p : Nat) (m : Mach) : FaultPath m (pumpPort n p m) := by
  induction n generalizing m with
  | zero => exact refl m
  | succ n ih =>
    unfold Machine.pumpPort
    dsimp only
    split
    · split
      · exact sendSeq _ _ _ _ _ m
      · exact refl m
    · split
      · exact (((setPort _ _ m).trans (sendSeq _ _ _ _ _ _)).trans (freeBuffer _ _ _ _)).trans (ih _)
      · exact refl m

theorem enqueue (p : Nat) (q : QItem) (m : Mach) : FaultPath m (enqueue p q m) := by
  unfold Machine.enqueue Machine.pump
  dsimp only
  split
  · exact ((countN _ _ _ m).trans (setPort _ _ _)).trans (pumpPort _ _ _)
  · exact (setPort _ _ m).trans (pumpPort _ _ _)

theorem putTxn (t : Txn) (m : Mach) : FaultPath m (putTxn t m) := by
  unfold Machine.putTxn
  dsimp only
  split
  · exact emit _ m
  · split
    · exact (emit _ m).trans (enqueue _ _ _)
    · exact emit _ m

theorem sendCtrl (kind causes : Nat) (data : List Byte) (i : Nat) (m : Mach) : FaultPath m (sendCtrl kind causes data i m) :=
  foldl _ _ m (fun x _ => putTxn _ x)

end FaultPath

/-! ### Contexts and the device in HALT; aborts -/

namespace FaultPath

theorem deviceAuto (m : Mach) : FaultPath m (deviceAuto m) := by
  unfold Machine.deviceAuto
  dsimp only
  split
  · split
    · exact setDevState _ m
    · split
      · exact setDevState _ m
      · exact refl m
  · exact refl m

theorem waitEnds (i : Nat) (m : Mach) : FaultPath m (waitEnds i m) := by
  unfold Machine.waitEnds
  dsimp only
  split
  · exact countN _ _ _ m
  · exact refl m

theorem haltCtx (i : Nat) (m : Mach) : FaultPath m (haltCtx i m) := by
  unfold Machine.haltCtx
  split
  · exact refl m
  · exact ((waitEnds i m).trans (modCtx i _ _)).trans (sendCtrl _ _ _ _ _)

theorem failCtx (i code cause port va flags : Nat) (m : Mach) : FaultPath m (failCtx i code cause port va flags m) := by
  unfold Machine.failCtx
  split
  · exact refl m
  · exact ((((haltCtx i m).trans (modCtx i _ _)).trans (recStat _ _)).trans (notifyCode _ _ _ _)).trans (deviceAuto _)

theorem progFault (code i : Nat) (m : Mach) : FaultPath m (progFault code i m) := failCtx _ _ _ _ _ _ m

theorem stepFault (i : Nat) (m : Mach) : FaultPath m (stepFault i m) := failCtx _ _ _ _ _ _ m

/-- A use of a step number can do what the use itself can, and what a fault can. -/
theorem stepUsed (i : Nat) (f : Mach → Mach) (m : Mach) (hf : FaultPath m (f m)) : FaultPath m (stepUsed i f m) := by
  unfold Machine.stepUsed
  split
  · exact hf
  · exact stepFault i m

theorem sendTxn (t : Txn) (m : Mach) : FaultPath m (sendTxn t m) := by
  unfold Machine.sendTxn
  split
  · split
    · split
      · exact putTxn t m
      · exact stepUsed _ _ m (putTxn t m)
    · exact putTxn t m
  · split
    · split
      · exact notifyCode _ _ _ m
      · exact progFault _ _ m
    · exact raiseDev _ m

theorem sendAbort (i cause : Nat) (m : Mach) : FaultPath m (sendAbort i cause m) := by
  unfold Machine.sendAbort
  dsimp only
  split
  · exact refl m
  · exact ((modPass i _ m).trans (sendCtrl _ _ _ _ _)).trans (countN _ _ _ _)

theorem abortPass (i cause : Nat) (own : Bool) (m : Mach) : FaultPath m (abortPass i cause own m) := by
  unfold Machine.abortPass
  dsimp only
  split
  · exact refl m
  · split
    · exact ((waitEnds i m).trans (modPass i _ _)).trans (sendAbort _ _ _)
    · exact (waitEnds i m).trans (modPass i _ _)

theorem ctxClassed (code i : Nat) (m : Mach) : FaultPath m (ctxClassed code i m) := by
  unfold Machine.ctxClassed
  dsimp only
  split
  · exact (modPass i _ m).trans (abortPass _ _ _ _)
  · exact modCtx i _ m

theorem ctxError (code i : Nat) (m : Mach) : FaultPath m (ctxError code i m) :=
  (notifyCode _ _ _ m).trans (ctxClassed _ _ _)

theorem dataParity (i : Nat) (m : Mach) : FaultPath m (dataParity i m) := by
  unfold Machine.dataParity
  split
  · exact (modPass i _ m).trans (abortPass _ _ _ _)
  · exact refl m

theorem scaleCheck (i : Nat) (m : Mach) : FaultPath m (scaleCheck i m) := (count _ _ m).trans (ctxError _ _ _)

theorem memFault (code i : Nat) (m : Mach) : FaultPath m (memFault code i m) := by
  unfold Machine.memFault
  split
  · exact (count _ _ m).trans (failCtx _ _ _ _ _ _ _)
  · split
    · exact (count _ _ m).trans (ctxError _ _ _)
    · exact progFault _ _ m

theorem smpFault (code i : Nat) (m : Mach) : FaultPath m (smpFault code i m) := by
  unfold Machine.smpFault
  split
  · exact progFault _ _ m
  · split
    · exact (count _ _ m).trans (ctxError _ _ _)
    · split
      · exact ctxError _ _ m
      · split
        · exact ctxError _ _ m
        · exact memFault _ _ m

theorem gsFault (code i : Nat) (m : Mach) : FaultPath m (gsFault code i m) := by
  unfold Machine.gsFault
  split
  · exact progFault _ _ m
  · split
    · exact (count _ _ m).trans (progFault _ _ _)
    · split
      · exact (count _ _ m).trans (ctxError _ _ _)
      · split
        · exact dataParity i m
        · split
          · exact ctxError _ _ m
          · split
            · exact (count _ _ m).trans (ctxError _ _ _)
            · split
              · exact ctxError _ _ m
              · split
                · exact ctxError _ _ m
                · exact smpFault _ _ m

theorem geyFault (code i : Nat) (m : Mach) : FaultPath m (geyFault code i m) := by
  unfold Machine.geyFault
  split
  · exact scaleCheck i m
  · exact memFault code i m

end FaultPath

end Sys2Proof.Proofs

namespace Sys2Proof.Proofs

open Sys2Proof.Machine Sys2Proof.Laws

/-! ### Octets of records -/

@[simp] theorem leBytes_length (n x : Nat) : (leBytes n x).length = n := by
  induction n generalizing x with
  | zero => rfl
  | succ n ih => rw [leBytes, List.length_cons, ih]

theorem leVal_leBytes (n x : Nat) : leVal (leBytes n x) = x % 256 ^ n := by
  induction n generalizing x with
  | zero => simp [leBytes, leVal, Nat.mod_one]
  | succ n ih =>
    have h : x % 256 ^ (n + 1) = x % 256 + 256 * (x / 256 % 256 ^ n) := by rw [Nat.pow_succ', Nat.mod_mul]
    rw [leBytes, leVal, ih, BitVec.toNat_ofNat]
    exact h.symm

/-- The number that stands first in a record. -/
theorem octs_leBytes_append (n x : Nat) (r : List Byte) : octs (leBytes n x ++ r) 0 n = x % 256 ^ n := by
  simp [octs, slice, leVal_leBytes]

/-- What stands before an octet does not count. -/
theorem octs_append_right (a r : List Byte) (off n : Nat) : octs (a ++ r) (a.length + off) n = octs r off n := by
  have hd : (a ++ r).drop (a.length + off) = r.drop off := by simp [List.drop_append]
  simp only [octs, slice, hd]

/-! ### What the dictionary's values decide -/

section Dictionary

variable {a b : Mach} (h : b.mgmt.dict = a.mgmt.dict)

include h

theorem dnum_congr (index sub : Nat) : dnum b index sub = dnum a index sub := by
  unfold dnum dval
  rw [h]

theorem ringSize_congr : ringSize b = ringSize a :=
  funext (fun x => by simp only [ringSize, dnum_congr h])

theorem ownCoord_congr : ownCoord b = ownCoord a := by
  simp only [ownCoord, ownCoord?, dnum_congr h]

theorem routable_congr (c : Nat) : routable b c = routable a c := by
  unfold routable
  rw [ringSize_congr h]

end Dictionary

/-! ### Fields after the fault path -/

namespace FaultPath

variable {a b : Mach}

theorem mem (h : FaultPath a b) : b.mem = a.mem := by rw [h.rest]
theorem cores (h : FaultPath a b) : b.cores = a.cores := by rw [h.rest]
theorem time10 (h : FaultPath a b) : b.dev.time10 = a.dev.time10 := by rw [h.rest]

/-- The group of a context is a matter of its axes and the dictionary. -/
theorem othersOf (h : FaultPath a b) {c d : Ctx} (hc : ErrorOnly c d) : othersOf b d = othersOf a c := by
  have haxes : d.axes = c.axes := by rw [hc]
  simp only [Machine.othersOf, groupOf, ringSize_congr h.dict, ownCoord_congr h.dict, haxes]

theorem countedOnce (h : FaultPath a b) {index sub : Nat} {m : Mach} (hk : dkey index sub ∉ faultCounters)
    (hc : countedOnce index sub m a) : countedOnce index sub m b := by
  simp only [Machine.countedOnce, counterOf] at hc ⊢
  rw [h.counters _ hk, hc]

/-- Each of a fold's operations is preceded and followed by the others. -/
theorem foldl_at {α : Type} (f : Mach → α → Mach) (l : List α) (m : Mach) (hf : ∀ x a, FaultPath x (f x a)) {d : α}
    (hd : d ∈ l) : ∃ x, FaultPath m x ∧ FaultPath (f x d) (l.foldl f m) := by
  induction l generalizing m with
  | nil => cases hd
  | cons e l ih =>
    rcases List.mem_cons.mp hd with rfl | hd
    · exact ⟨m, refl m, foldl f l _ hf⟩
    · obtain ⟨x, h1, h2⟩ := ih (f m e) hd
      exact ⟨x, (hf m e).trans h1, h2⟩

/-- A transaction that is put has left the device. -/
theorem txn_mem_putTxn (t : Txn) (m : Mach) : Out.txn t ∈ (Machine.putTxn t m).out := by
  have h : FaultPath (Machine.emit (.txn t) m) (Machine.putTxn t m) := by
    unfold Machine.putTxn
    dsimp only
    split
    · exact refl _
    · split
      · exact enqueue _ _ _
      · exact refl _
  exact h.out.subset (by simp [Machine.emit])

end FaultPath

/-- A step-control message goes to every other device of the group. -/
theorem txn_mem_sendCtrl (kind causes : Nat) (data : List Byte) (i : Nat) (m : Mach) {d : Nat} (hd : d ∈ othersOf m (ctxAt m i)) :
    Out.txn (mkTxn m (ctxAt m i) 0x0A d (kind * 2 ^ 60 + causes * 2 ^ 52) (.raw data)) ∈ (sendCtrl kind causes data i m).out := by
  obtain ⟨x, h1, h2⟩ := FaultPath.foldl_at
    (fun m' d => putTxn (mkTxn m' (ctxAt m i) 0x0A d (kind * 2 ^ 60 + causes * 2 ^ 52) (.raw data)) m')
    (othersOf m (ctxAt m i)) m (fun x _ => FaultPath.putTxn _ x) hd
  have ht := FaultPath.txn_mem_putTxn (mkTxn x (ctxAt m i) 0x0A d (kind * 2 ^ 60 + causes * 2 ^ 52) (.raw data)) x
  have he : mkTxn x (ctxAt m i) 0x0A d (kind * 2 ^ 60 + causes * 2 ^ 52) (.raw data) =
      mkTxn m (ctxAt m i) 0x0A d (kind * 2 ^ 60 + causes * 2 ^ 52) (.raw data) := by
    simp only [mkTxn, ownCoord_congr h1.dict]
  rw [he] at ht h2
  exact h2.out.subset ht

/-! ### What leaves the contexts alone -/

theorem ctxs_foldl {α : Type} (f : Mach → α → Mach) (l : List α) (m : Mach) (hf : ∀ x a, (f x a).ctxs = x.ctxs) :
    (l.foldl f m).ctxs = m.ctxs :=
  foldl_keeps (fun x => x.ctxs = m.ctxs) f l m rfl (fun x a h => (hf x a).trans h)

@[simp] theorem sendSeq_ctxs (p typ vc : Nat) (rest : List Byte) (nak : Nat) (m : Mach) : (sendSeq p typ vc rest nak m).ctxs = m.ctxs := by
  unfold sendSeq
  dsimp only
  split <;> rfl

@[simp] theorem freeBuffer_ctxs (p vc n : Nat) (m : Mach) : (freeBuffer p vc n m).ctxs = m.ctxs := by
  unfold freeBuffer
  split
  · rfl
  · dsimp only
    split
    · exact sendSeq_ctxs _ _ _ _ _ _
    · rfl

@[simp] theorem pumpPort_ctxs (n p : Nat) (m : Mach) : (pumpPort n p m).ctxs = m.ctxs := by
  induction n generalizing m with
  | zero => rfl
  | succ n ih =>
    unfold pumpPort
    dsimp only
    split
    · split <;> simp
    · split
      · simp [ih]
      · rfl

@[simp] theorem enqueue_ctxs (p : Nat) (q : QItem) (m : Mach) : (enqueue p q m).ctxs = m.ctxs := by
  simp only [enqueue, pump, pumpPort_ctxs, setPort_ctxs]
  split <;> rfl

@[simp] theorem putTxn_ctxs (t : Txn) (m : Mach) : (putTxn t m).ctxs = m.ctxs := by
  unfold putTxn
  dsimp only
  split
  · rfl
  · split <;> simp

@[simp] theorem sendCtrl_ctxs (kind causes : Nat) (data : List Byte) (i : Nat) (m : Mach) :
    (sendCtrl kind causes data i m).ctxs = m.ctxs :=
  ctxs_foldl _ _ m (fun x _ => putTxn_ctxs _ x)

@[simp] theorem deviceAuto_ctxs (m : Mach) : (deviceAuto m).ctxs = m.ctxs := by
  unfold deviceAuto
  dsimp only
  split
  · split
    · simp
    · split <;> simp
  · rfl

@[simp] theorem waitEnds_ctxs (i : Nat) (m : Mach) : (waitEnds i m).ctxs = m.ctxs := by
  unfold waitEnds
  dsimp only
  split <;> rfl

/-! ### A context's failure -/

/-- A context that HALT takes. -/
theorem ctxAt_haltCtx {i : Nat} {m : Mach} (hi : i < 16) (hh : (ctxAt m i).st ≠ .halt) (hf : (ctxAt m i).st ≠ .free) :
    ctxAt (haltCtx i m) i =
      { ctxAt m i with st := .halt, pass := { (ctxAt m i).pass with running := false, sentBegin := false } } := by
  have hw : ctxAt (waitEnds i m) i = ctxAt m i := ctxAt_congr (waitEnds_ctxs i m) i
  simp only [haltCtx, beq_iff_eq, hh, hf, Bool.or_eq_true, or_self, if_false]
  rw [ctxAt_congr (sendCtrl_ctxs _ _ _ _ _) i, ctxAt_modCtx_self _ _ _ hi, hw]

/-- R521: the context that fails stands in HALT with its failure record. -/
theorem ctxAt_failCtx {i : Nat} {m : Mach} (code cause port va flags : Nat) (hi : i < 16) (hh : (ctxAt m i).st ≠ .halt)
    (hf : (ctxAt m i).st ≠ .free) :
    ctxAt (failCtx i code cause port va flags m) i =
      { ctxAt m i with
        st := .halt, pass := { (ctxAt m i).pass with running := false, sentBegin := false },
        failure := failureBytes m i code cause port va } := by
  simp only [failCtx, beq_iff_eq, hh, hf, Bool.or_eq_true, or_self, if_false]
  rw [ctxAt_congr (deviceAuto_ctxs _) i, ctxAt_congr (notifyCode_ctxs _ _ _ _) i, ctxAt_congr (recStat_ctxs _ _) i,
    ctxAt_modCtx_self _ _ _ hi, ctxAt_haltCtx hi hh hf]

/-- R522: the failure record names code, cause and context. -/
theorem octs_failureBytes (m : Mach) {i code cause : Nat} (port va : Nat) (hi : i < 16) (hcode : code < 65536) (hcause : cause < 256) :
    octs (failureBytes m i code cause port va) 0 2 = code ∧ octs (failureBytes m i code cause port va) 2 1 = cause ∧
      octs (failureBytes m i code cause port va) 3 1 = i := by
  simp only [failureBytes, List.append_assoc]
  refine ⟨?_, ?_, ?_⟩
  · rw [octs_leBytes_append]
    omega
  · have h := octs_append_right (leBytes 2 code)
    simp only [leBytes_length] at h
    rw [h _ 0 1, octs_leBytes_append]
    omega
  · have h := octs_append_right (leBytes 2 code)
    have k := octs_append_right (leBytes 1 cause)
    simp only [leBytes_length] at h k
    rw [h _ 1 1, k _ 0 1, octs_leBytes_append]
    omega

/-- R521, R522. -/
theorem failedWith_failCtx {i : Nat} {m : Mach} {code cause : Nat} (port va flags : Nat) (hi : i < 16) (hh : (ctxAt m i).st ≠ .halt)
    (hf : (ctxAt m i).st ≠ .free) (hcode : code < 65536) (hcause : cause < 256) :
    failedWith i code cause (failCtx i code cause port va flags m) := by
  unfold failedWith
  rw [ctxAt_failCtx code cause port va flags hi hh hf]
  exact ⟨rfl, octs_failureBytes m port va hi hcode hcause⟩

end Sys2Proof.Proofs

namespace Sys2Proof.Proofs

open Sys2Proof.Machine Sys2Proof.Laws

/-! ### A pass that is aborted (14 R499) -/

/-- R499: the pass that a cause aborts: of a pass that is aborted already the causes grow alone. -/
def markAborted (cause : Nat) (lets : Bool) (p : Pass) : Pass :=
  if p.aborted then { p with causes := p.causes ||| cause }
  else { p with aborted := true, causes := p.causes ||| cause, waitX := lets, discarding := !lets }

/-- R499: X of the pass goes on, for a cause that lets it. -/
def letsX (cause : Nat) (p : Pass) : Bool := cause &&& 0b00111 == 0 && p.running && !p.xDone

/-- A cause of the device's own has been sent. -/
def markSent (cause : Nat) (p : Pass) : Pass := { p with sentCauses := p.sentCauses ||| cause }

/-- The pass after an abort: a cause of the device's own is sent, too. -/
def abortedPass (cause : Nat) (own : Bool) (p : Pass) : Pass :=
  if own then markSent cause (markAborted cause (letsX cause p) p) else markAborted cause (letsX cause p) p

/-- An abort keeps every other field of the pass. -/
theorem markAborted_keeps (cause : Nat) (lets : Bool) (p : Pass) :
    (markAborted cause lets p) = { p with
      aborted := true, causes := p.causes ||| cause, waitX := (markAborted cause lets p).waitX,
      discarding := (markAborted cause lets p).discarding } := by
  unfold markAborted
  split
  · rename_i h
    rw [← h]
  · rfl

theorem abortedPass_keeps (cause : Nat) (own : Bool) (p : Pass) :
    (abortedPass cause own p) = { p with
      aborted := true, causes := p.causes ||| cause, waitX := (abortedPass cause own p).waitX,
      discarding := (abortedPass cause own p).discarding, sentCauses := (abortedPass cause own p).sentCauses } := by
  unfold abortedPass
  cases own with
  | false =>
    simp only [Bool.false_eq_true, if_false]
    rw [markAborted_keeps]
  | true =>
    simp only [if_true, markSent]
    rw [markAborted_keeps]

@[simp] theorem abortedPass_aborted (cause : Nat) (own : Bool) (p : Pass) : (abortedPass cause own p).aborted = true := by
  rw [abortedPass_keeps]
@[simp] theorem abortedPass_causes (cause : Nat) (own : Bool) (p : Pass) : (abortedPass cause own p).causes = p.causes ||| cause := by
  rw [abortedPass_keeps]
@[simp] theorem abortedPass_errCode (cause : Nat) (own : Bool) (p : Pass) : (abortedPass cause own p).errCode = p.errCode := by
  rw [abortedPass_keeps]
@[simp] theorem abortedPass_committed (cause : Nat) (own : Bool) (p : Pass) : (abortedPass cause own p).committed = p.committed := by
  rw [abortedPass_keeps]
@[simp] theorem abortedPass_sentReady (cause : Nat) (own : Bool) (p : Pass) : (abortedPass cause own p).sentReady = p.sentReady := by
  rw [abortedPass_keeps]

/-- A pass that an abort meets: of a context in RUN, not committed, nor past READY where the cause is the device's own. -/
def Abortable (own : Bool) (c : Ctx) : Prop := c.st = .run ∧ c.pass.committed = false ∧ (own && c.pass.sentReady) = false

/-- Causes that are all sent already add nothing. -/
theorem or_eq_self_of_and_eq {x c : Nat} (h : x &&& c = c) : x ||| c = x := by
  refine Nat.eq_of_testBit_eq (fun k => ?_)
  have hk : (x.testBit k && c.testBit k) = c.testBit k := by rw [← Nat.testBit_and, h]
  rw [Nat.testBit_or, ← hk]
  cases x.testBit k <;> rfl

theorem ctxAt_modPass_self (m : Mach) (i : Nat) (f : Pass → Pass) (hi : i < 16) :
    ctxAt (modPass i f m) i = { ctxAt m i with pass := f (ctxAt m i).pass } := ctxAt_modCtx_self m i _ hi

theorem ctxAt_waitEnds (i j : Nat) (m : Mach) : ctxAt (waitEnds i m) j = ctxAt m j := ctxAt_congr (waitEnds_ctxs i m) j

theorem ctxAt_sendAbort {i : Nat} (cause : Nat) (m : Mach) (hi : i < 16) :
    ctxAt (sendAbort i cause m) i = { ctxAt m i with pass := markSent cause (ctxAt m i).pass } := by
  unfold sendAbort
  dsimp only
  split
  · rename_i h
    rw [markSent, or_eq_self_of_and_eq (by simpa using h)]
  · rw [ctxAt_congr (countN_ctxs _ _ _ _) i, ctxAt_congr (sendCtrl_ctxs _ _ _ _ _) i]
    exact ctxAt_modPass_self m i _ hi

/-- R499: where an abort meets the pass, the pass is marked, and a cause of the device's own is sent. -/
theorem abortPass_eq {i : Nat} {m : Mach} {own : Bool} (cause : Nat) (h : Abortable own (ctxAt m i)) :
    abortPass i cause own m =
      let m1 := modPass i (markAborted cause (letsX cause (ctxAt m i).pass)) (waitEnds i m)
      if own then sendAbort i cause m1 else m1 := by
  obtain ⟨hst, hc, hr⟩ := h
  unfold abortPass
  dsimp only
  rw [if_neg (by simp [hst, hc, hr])]
  rfl

/-- R499: the context whose pass is aborted. -/
theorem ctxAt_abortPass {i : Nat} {m : Mach} {own : Bool} (cause : Nat) (hi : i < 16) (h : Abortable own (ctxAt m i)) :
    ctxAt (abortPass i cause own m) i = { ctxAt m i with pass := abortedPass cause own (ctxAt m i).pass } := by
  rw [abortPass_eq cause h]
  cases own with
  | false => exact (ctxAt_modPass_self _ i _ hi).trans (by rw [ctxAt_waitEnds]; rfl)
  | true =>
    simp only [if_true]
    rw [ctxAt_sendAbort cause _ hi, ctxAt_modPass_self _ i _ hi, ctxAt_waitEnds]
    rfl

/-- A message to the group is a matter of its context and the dictionary. -/
theorem FaultPath.mkTxn {a b : Mach} (h : FaultPath a b) {c d : Ctx} (hc : ErrorOnly c d) (typ dest detail : Nat) (body : Body) :
    mkTxn b d typ dest detail body = mkTxn a c typ dest detail body := by
  rw [hc]
  simp only [Machine.mkTxn, ownCoord_congr h.dict]

/-- R499: a cause of the device's own that is not yet sent goes to every other device of the group. -/
theorem txn_mem_abortPass {i : Nat} {m : Mach} (cause : Nat) (hi : i < 16) (h : Abortable true (ctxAt m i))
    (hs : (ctxAt m i).pass.sentCauses &&& cause ≠ cause) {d : Nat} (hd : d ∈ othersOf m (ctxAt m i)) :
    Out.txn (mkTxn m (ctxAt m i) 0x0A d (3 * 2 ^ 60 + cause * 2 ^ 52) (.raw [])) ∈ (abortPass i cause true m).out := by
  let m1 := modPass i (markAborted cause (letsX cause (ctxAt m i).pass)) (waitEnds i m)
  let m2 := modPass i (markSent cause) m1
  have hp : FaultPath m m2 := ((FaultPath.waitEnds i m).trans (FaultPath.modPass i _ _)).trans (FaultPath.modPass i _ _)
  have h1 : (ctxAt m1 i).pass.sentCauses = (ctxAt m i).pass.sentCauses := by
    rw [ctxAt_modPass_self _ i _ hi, ctxAt_waitEnds]
    dsimp only
    rw [markAborted_keeps]
  have he : abortPass i cause true m = countN 0x6B00 0x04 (othersOf m1 (ctxAt m1 i)).length (sendCtrl 0x3 cause [] i m2) := by
    rw [abortPass_eq cause h]
    show sendAbort i cause m1 = _
    unfold sendAbort
    dsimp only
    rw [if_neg (by rw [h1]; simpa using hs)]
    rfl
  have ht := txn_mem_sendCtrl 0x3 cause [] i m2 (d := d) (by rw [hp.othersOf (hp.ctxs i)]; exact hd)
  rw [hp.mkTxn (hp.ctxs i)] at ht
  rw [he]
  exact ht

/-- An error's code is kept, and holds READY back (R23, R498). -/
def keepError (code : Nat) (p : Pass) : Pass := { p with errCode := code, pendingErr := true }

@[simp] theorem keepError_causes (code : Nat) (p : Pass) : (keepError code p).causes = p.causes := rfl
@[simp] theorem keepError_errCode (code : Nat) (p : Pass) : (keepError code p).errCode = code := rfl

/-- An error before commit aborts the pass with cause ERROR (R23, R499). -/
theorem ctxError_eq {i : Nat} {m : Mach} (code : Nat) (hst : (ctxAt m i).st = .run) (hr : (ctxAt m i).pass.sentReady = false) :
    ctxError code i m = abortPass i 1 true (modPass i (keepError code) (notifyCode code i 0 m)) := by
  have hn : ctxAt (notifyCode code i 0 m) i = ctxAt m i := ctxAt_congr (notifyCode_ctxs _ _ _ _) i
  unfold ctxError
  rw [afterCommit, hr, if_neg Bool.false_ne_true]
  unfold ctxClassed
  dsimp only
  rw [hn, if_pos (by simp [hst, hr, afterCommit])]
  rfl

theorem ctxAt_ctxError {i : Nat} {m : Mach} (code : Nat) (hi : i < 16) (hst : (ctxAt m i).st = .run)
    (hr : (ctxAt m i).pass.sentReady = false) (hc : (ctxAt m i).pass.committed = false) :
    ctxAt (ctxError code i m) i = { ctxAt m i with pass := abortedPass 1 true (keepError code (ctxAt m i).pass) } := by
  have hp : ctxAt (modPass i (keepError code) (notifyCode code i 0 m)) i = { ctxAt m i with pass := keepError code (ctxAt m i).pass } := by
    rw [ctxAt_modPass_self _ i _ hi, ctxAt_congr (notifyCode_ctxs _ _ _ _) i]
  have ha : Abortable true (ctxAt (modPass i (keepError code) (notifyCode code i 0 m)) i) := by
    rw [hp]
    exact ⟨hst, hc, hr⟩
  rw [ctxError_eq code hst hr, ctxAt_abortPass 1 hi ha, hp]

/-! ### Codes that stand raised (18 R602) -/

theorem raisedCode_formRecord (code ctx flags : Nat) (m : Mach) (hc : 256 ≤ code) : raisedCode code (formRecord code ctx flags m) := by
  unfold formRecord
  refine (FaultPath.sendRecord _ _ _ _).raised code hc ?_
  unfold raisedCode
  simp [count, countN]

/-- A code that the device may raise stands raised. -/
theorem raisedCode_notifyCode {code : Nat} (ctx flags : Nat) {m : Mach} (hc : 256 ≤ code) (hn : notifies m.dev.st = true) :
    raisedCode code (notifyCode code ctx flags m) := by
  unfold notifyCode
  rw [if_neg (by simp [hn])]
  split
  · split
    · unfold raisedCode
      simp [count, countN]
    · exact raisedCode_formRecord code ctx flags m hc
  · exact raisedCode_formRecord code ctx flags m hc

end Sys2Proof.Proofs

namespace Sys2Proof.Proofs

open Sys2Proof.Machine Sys2Proof.Laws

/-! ### The limits of a step's waits (01 R24, 14 R497, 15 R520) -/

theorem countedOnce_count (index sub : Nat) (m : Mach) : countedOnce index sub m (count index sub m) :=
  smap_get_put_self m.cnt (dkey index sub) _ 0

/-- A wait that ends in HALT at its limit: the context has failed at the limit's time, and memory is as it was. -/
theorem failCtx_at_limit {i : Nat} {m : Mach} (code cause flags limit : Nat) (hi : i < 16) (hst : (ctxAt m i).st = .run)
    (hcode : code < 65536) (hcause : cause < 256) :
    failedWith i code cause (failCtx i code cause 255 0 flags (timeTo limit m)) ∧
      (failCtx i code cause 255 0 flags (timeTo limit m)).dev.time10 = max m.dev.time10 limit ∧
      (failCtx i code cause 255 0 flags (timeTo limit m)).mem = m.mem := by
  have hp := FaultPath.failCtx i code cause 255 0 flags (timeTo limit m)
  have hs : (ctxAt (timeTo limit m) i).st = .run := hst
  exact ⟨failedWith_failCtx 255 0 flags hi (by simp [hs]) (by simp [hs]) hcode hcause, hp.time10, hp.mem⟩

theorem commitLate_eq {i : Nat} {m : Mach} (hst : (ctxAt m i).st = .run) (hr : (ctxAt m i).pass.sentReady = true)
    (hc : (ctxAt m i).pass.committed = false) (ha : (ctxAt m i).pass.aborted = false) :
    commitLate i m =
      failCtx i 0x0B05 0x05 255 0 2 (timeTo ((ctxAt m i).pass.readyAt + (ctxAt m i).pass.commitUs * 10000) m) := by
  unfold commitLate
  exact if_neg (by simp [hst, hr, hc, ha])

theorem barrierLate_eq {i : Nat} {m : Mach} (hst : (ctxAt m i).st = .run) (hb : (ctxAt m i).pass.sentBegin = true)
    (hr : (ctxAt m i).pass.running = false) (ha : (ctxAt m i).pass.aborted = false) :
    barrierLate i m =
      failCtx i 0 0x07 255 0 0 (timeTo ((ctxAt m i).pass.waitSince + (ctxAt m i).pass.deadlineUs * 10000) m) := by
  unfold barrierLate
  exact if_neg (by simp [hst, hb, hr, ha])

/-- The pass keeps the code of its deadline. -/
def keepCode (code : Nat) (p : Pass) : Pass := { p with errCode := code }

@[simp] theorem keepCode_causes (code : Nat) (p : Pass) : (keepCode code p).causes = p.causes := rfl
@[simp] theorem keepCode_errCode (code : Nat) (p : Pass) : (keepCode code p).errCode = code := rfl
@[simp] theorem keepCode_sentReady (code : Nat) (p : Pass) : (keepCode code p).sentReady = p.sentReady := rfl
@[simp] theorem keepCode_committed (code : Nat) (p : Pass) : (keepCode code p).committed = p.committed := rfl

/-- R497: a step deadline is counted at its time. -/
def deadlineCounted (i : Nat) (m : Mach) : Mach :=
  count 0x6B00 0x09 (timeTo ((ctxAt m i).pass.startAt + (ctxAt m i).pass.deadlineUs * 10000) m)

/-- R497, R499: the abort of the pass at its deadline. -/
def deadlineAborted (i : Nat) (m : Mach) : Mach :=
  abortPass i 2 true (modPass i (keepCode 0x0B04) (notifyCode 0x0B04 i 0 (deadlineCounted i m)))

theorem inPass_iff (c : Ctx) : inPass c = true ↔ c.st = .run ∧ c.pass.running = true ∧ c.pass.aborted = false := by
  simp [inPass, and_assoc]

/-- R467, R497: after its abort, the deadline names buckets that fail their check, or that are not complete. -/
theorem stepLate_eq {i : Nat} {m : Mach} (h : beforeReady m i) :
    stepLate i m =
      if !bucketsOk (deadlineAborted i m) i then scaleCheck i (deadlineAborted i m)
      else if (ctxAt m i).gey.buckets.all bucketDone then deadlineAborted i m else ctxError 0x0A02 i (deadlineAborted i m) := by
  obtain ⟨hi, hp, hr, hc⟩ := h
  obtain ⟨hst, hrun, ha⟩ := (inPass_iff _).mp hp
  unfold stepLate
  dsimp only
  rw [if_neg (by simp [hst, hrun, ha, hr])]
  rfl

theorem faultPath_deadlineAborted (i : Nat) (m : Mach) : FaultPath (deadlineCounted i m) (deadlineAborted i m) :=
  ((FaultPath.notifyCode _ _ _ _).trans (FaultPath.modPass i _ _)).trans (FaultPath.abortPass i 2 true _)

section Deadline

variable {i : Nat} {m : Mach} (h : beforeReady m i)

include h

theorem ctxAt_deadlineNoticed :
    ctxAt (modPass i (keepCode 0x0B04) (notifyCode 0x0B04 i 0 (deadlineCounted i m))) i =
      { ctxAt m i with pass := keepCode 0x0B04 (ctxAt m i).pass } := by
  rw [ctxAt_modPass_self _ i _ h.1, ctxAt_congr (notifyCode_ctxs _ _ _ _) i]
  rfl

theorem abortable_deadlineNoticed :
    Abortable true (ctxAt (modPass i (keepCode 0x0B04) (notifyCode 0x0B04 i 0 (deadlineCounted i m))) i) := by
  rw [ctxAt_deadlineNoticed h]
  obtain ⟨-, hp, hr, hc⟩ := h
  exact ⟨((inPass_iff _).mp hp).1, hc, hr⟩

theorem ctxAt_deadlineAborted :
    ctxAt (deadlineAborted i m) i = { ctxAt m i with pass := abortedPass 2 true (keepCode 0x0B04 (ctxAt m i).pass) } := by
  rw [deadlineAborted, ctxAt_abortPass 2 h.1 (abortable_deadlineNoticed h), ctxAt_deadlineNoticed h]

/-- The cause DEADLINE, not yet sent, is sent to the group. -/
theorem txn_mem_deadlineAborted (hs : tbit (ctxAt m i).pass.sentCauses 1 = false) {d : Nat} (hd : d ∈ othersOf m (ctxAt m i)) :
    ∃ x, Out.txn x ∈ (deadlineAborted i m).out ∧ x.typ = 0x0A ∧ x.dest = d ∧ x.detail = 3 * 2 ^ 60 + 2 * 2 ^ 52 := by
  have hp : FaultPath (deadlineCounted i m) (modPass i (keepCode 0x0B04) (notifyCode 0x0B04 i 0 (deadlineCounted i m))) :=
    (FaultPath.notifyCode _ _ _ _).trans (FaultPath.modPass i _ _)
  have hand : (ctxAt m i).pass.sentCauses &&& 2 ≠ 2 := by
    intro e
    have hb : ((ctxAt m i).pass.sentCauses &&& 2).testBit 1 = true := by rw [e]; decide
    rw [Nat.testBit_and, ← tbit_eq_testBit, hs] at hb
    cases hb
  refine ⟨_, txn_mem_abortPass 2 h.1 (abortable_deadlineNoticed h) ?_ (d := d) ?_, rfl, rfl, rfl⟩
  · rw [ctxAt_deadlineNoticed h]
    exact hand
  · rw [hp.othersOf (hp.ctxs i)]
    exact hd

/-- R467, R497: the code that the pass keeps at its deadline. -/
def deadlineCode (m : Mach) (i : Nat) : Nat :=
  if bucketsOk m i = false then 0x0A01 else if (ctxAt m i).gey.buckets.all bucketDone = true then 0x0B04 else 0x0A02

/-- An error that the deadline finds, too, acts on the pass that it has aborted. -/
theorem pass_ctxError_after_deadline (code : Nat) {n : Mach} (hn : ctxAt n i = ctxAt (deadlineAborted i m) i) :
    (ctxAt (ctxError code i n) i).pass =
      abortedPass 1 true (keepError code (abortedPass 2 true (keepCode 0x0B04 (ctxAt m i).pass))) := by
  have hd := hn.trans (ctxAt_deadlineAborted h)
  obtain ⟨hi, hp, hr, hc⟩ := h
  obtain ⟨hst, -, -⟩ := (inPass_iff _).mp hp
  rw [ctxAt_ctxError code hi (by rw [hd]; exact hst) (by rw [hd]; simp [hr]) (by rw [hd]; simp [hc]), hd]

/-- R467, R497: a step deadline leaves the pass aborted for the cause DEADLINE, with the deadline's code. -/
theorem pass_stepLate :
    (ctxAt (stepLate i m) i).pass.aborted = true ∧ tbit (ctxAt (stepLate i m) i).pass.causes 1 = true ∧
      (ctxAt (stepLate i m) i).pass.errCode = deadlineCode m i := by
  have hb : bucketsOk (deadlineAborted i m) i = bucketsOk m i := by
    unfold bucketsOk
    rw [ctxAt_deadlineAborted h]
  have hdeadline (x : Nat) : tbit (x ||| 2) 1 = true := by
    rw [tbit_eq_testBit, Nat.testBit_or, show Nat.testBit 2 1 = true by decide, Bool.or_true]
  have herror (x : Nat) : tbit (x ||| 2 ||| 1) 1 = true := by
    rw [tbit_eq_testBit, Nat.testBit_or, ← tbit_eq_testBit, hdeadline, Bool.true_or]
  rw [stepLate_eq h, hb, deadlineCode]
  cases hbk : bucketsOk m i with
  | false =>
    have hpass := pass_ctxError_after_deadline h 0x0A01 (n := count 0x6A00 0x09 (deadlineAborted i m)) rfl
    simp only [Bool.not_false, if_true, scaleCheck, hpass]
    simp [herror]
  | true =>
    cases hdone : (ctxAt m i).gey.buckets.all bucketDone with
    | true =>
      simp only [Bool.not_true, Bool.false_eq_true, if_false, if_true, ctxAt_deadlineAborted h]
      simp [hdeadline]
    | false =>
      simp only [Bool.not_true, Bool.false_eq_true, if_false, pass_ctxError_after_deadline h 0x0A02 rfl]
      simp [herror]

theorem faultPath_stepLate : FaultPath (deadlineAborted i m) (stepLate i m) := by
  rw [stepLate_eq h]
  split
  · exact FaultPath.scaleCheck i _
  · split
    · exact FaultPath.refl _
    · exact FaultPath.ctxError _ i _

/-- R602: the deadline's code is raised where the device may raise it. -/
theorem raisedCode_stepLate (hn : notifies m.dev.st = true) : raisedCode 0x0B04 (stepLate i m) :=
  (((FaultPath.modPass i _ _).trans (FaultPath.abortPass i 2 true _)).trans (faultPath_stepLate h)).raised 0x0B04 (by decide)
    (raisedCode_notifyCode i 0 (m := deadlineCounted i m) (by decide) hn)

end Deadline

/-- Settles O47: two waits end on the failure path, and the deadline's abort stands whatever its check of the buckets adds. -/
theorem waitLimitsAct : Obligations.WaitLimitsAct := by
  unfold Obligations.WaitLimitsAct
  refine ⟨?_, ?_, ?_⟩
  · intro s i hi hst hr hc ha
    refine ⟨_, rfl, ?_⟩
    show failedWith i 0x0B05 0x05 (commitLate i s.m) ∧ (commitLate i s.m).dev.time10 = _ ∧ (commitLate i s.m).mem = _
    rw [commitLate_eq hst hr hc ha]
    exact failCtx_at_limit _ _ _ _ hi hst (by decide) (by decide)
  · intro s i hi hst hb hr ha
    refine ⟨_, rfl, ?_⟩
    show failedWith i 0 0x07 (barrierLate i s.m) ∧ (barrierLate i s.m).dev.time10 = _ ∧ (barrierLate i s.m).mem = _
    rw [barrierLate_eq hst hb hr ha]
    exact failCtx_at_limit _ _ _ _ hi hst (by decide) (by decide)
  · intro s i h
    have hp : FaultPath (deadlineCounted i s.m) (stepLate i s.m) := (faultPath_deadlineAborted i s.m).trans (faultPath_stepLate h)
    obtain ⟨habort, hcause, hcode⟩ := pass_stepLate h
    refine ⟨_, rfl, habort, hcause, raisedCode_stepLate h, ?_, hp.time10, ?_, ?_, ?_, ?_⟩
    · exact hp.countedOnce (by decide) (countedOnce_count 0x6B00 0x09 (timeTo _ s.m))
    · intro hb
      exact hcode.trans (by simp [deadlineCode, hb])
    · intro hb hdone
      exact hcode.trans (by simp only [deadlineCode, hb, hdone]; rfl)
    · intro hb hdone
      exact hcode.trans (by simp only [deadlineCode, hb, hdone]; rfl)
    · intro hs d hd
      obtain ⟨x, hx, hrest⟩ := txn_mem_deadlineAborted h hs hd
      exact ⟨x, (faultPath_stepLate h).out.subset hx, hrest⟩

end Sys2Proof.Proofs

namespace Sys2Proof.Proofs

open Sys2Proof.Machine Sys2Proof.Laws

/-! ### Sparse maps as lists -/

theorem mem_smap_put {α : Type} {l : SMap α} {k : Nat} {v : α} {p : Nat × α} (h : p ∈ l.put k v) : p = (k, v) ∨ p ∈ l := by
  induction l with
  | nil => exact Or.inl (List.mem_singleton.mp h)
  | cons q r ih =>
    obtain ⟨a, w⟩ := q
    simp only [SMap.put] at h
    split at h
    · exact List.mem_cons.mp h
    · split at h
      · exact (List.mem_cons.mp h).imp id (List.mem_cons_of_mem _)
      · rcases List.mem_cons.mp h with rfl | h
        · exact Or.inr (List.mem_cons_self ..)
        · exact (ih h).imp id (List.mem_cons_of_mem _)

theorem mem_of_smap_has {α : Type} {l : SMap α} {k : Nat} (d : α) (h : l.has k = true) : (k, l.get k d) ∈ l := by
  induction l with
  | nil => cases h
  | cons q r ih =>
    obtain ⟨a, w⟩ := q
    simp only [SMap.get]
    split
    · rename_i e
      rw [beq_iff_eq.mp e]
      exact List.mem_cons_self ..
    · rename_i e
      have hr : SMap.has r k = true := by
        simpa [SMap.has, show ¬ a = k from fun x => e (by simp [x])] using h
      exact List.mem_cons_of_mem _ (ih hr)

theorem tab_getD_fill {α : Type} {n i : Nat} (x d : α) (h : i < n) : (Tab.fill n x).getD i d = x := by
  simp only [Tab.getD, Tab.fill, List.getD, List.getElem?_replicate, if_pos h, Option.getD_some]

/-! ### The layer drain (07 R265, 11 R396) -/

/-- What the fetches into a core's freed slots can do: on the core, its ring counts and its fault record; on the rings no span of a
stream is new; nothing on another core or in memory. -/
structure Refilled (k : Nat) (a b : Mach) : Prop where
  core : coreAt b k = { coreAt a k with rings := (coreAt b k).rings, fault := (coreAt b k).fault }
  spans : ∀ p ∈ (coreAt b k).rings, ∃ q ∈ (coreAt a k).rings, p.2.spans = q.2.spans
  others : ∀ j, j ≠ k → coreAt b j = coreAt a j
  mem : b.mem = a.mem

namespace Refilled

variable {k : Nat}

theorem of_cores {a b : Mach} (hc : b.cores = a.cores) (hm : b.mem = a.mem) : Refilled k a b := by
  have h (j : Nat) : coreAt b j = coreAt a j := by simp only [coreAt, hc]
  exact ⟨by rw [h], fun p hp => ⟨p, by rwa [← h], rfl⟩, fun j _ => h j, hm⟩

theorem refl (a : Mach) : Refilled k a a := of_cores rfl rfl

theorem of_faultPath {a b : Mach} (h : FaultPath a b) : Refilled k a b := of_cores h.cores h.mem

theorem countN (index sub n : Nat) (m : Mach) : Refilled k m (countN index sub n m) := of_cores rfl rfl

theorem trans {a b c : Mach} (h : Refilled k a b) (g : Refilled k b c) : Refilled k a c where
  core := by rw [g.core, h.core]
  spans := fun p hp => by
    obtain ⟨q, hq, e⟩ := g.spans p hp
    obtain ⟨r, hr, f⟩ := h.spans q hq
    exact ⟨r, hr, e.trans f⟩
  others := fun j hj => (g.others j hj).trans (h.others j hj)
  mem := g.mem.trans h.mem

theorem setFault (rb : List Byte) (m : Mach) : Refilled k m (setCore k { coreAt m k with fault := rb } m) where
  core := by rw [coreAt_setCore_self]
  spans := fun p hp => ⟨p, by rwa [coreAt_setCore_self] at hp, rfl⟩
  others := fun j hj => coreAt_setCore_ne m k j _ hj
  mem := rfl

theorem recordFault (code slot : Nat) (prog bundle : Bool) (pc detail : Nat) (m : Mach) :
    Refilled k m (recordFault k code slot prog bundle pc detail m) := by
  unfold Machine.recordFault
  exact ((setFault _ m).trans (countN 0x6100 0x0A 1 _)).trans (of_faultPath (FaultPath.stepUsed _ id _ (FaultPath.refl _)))

theorem coreError (code slot : Nat) (bundle : Bool) (pc detail : Nat) (m : Mach) :
    Refilled k m (coreError k code slot bundle pc detail m) :=
  (recordFault _ _ _ _ _ _ m).trans (of_faultPath (FaultPath.ctxError _ _ _))

/-- A ring whose counts alone change. -/
theorem setRing {ring : Nat} (r : Ring) (m : Mach) (hr : (coreAt m k).rings.has ring = true)
    (hs : r.spans = (ringAt (coreAt m k) ring).spans) : Refilled k m (setCore k (setRing ring r (coreAt m k)) m) where
  core := by rw [coreAt_setCore_self]; rfl
  spans := fun p hp => by
    rw [coreAt_setCore_self] at hp
    rcases mem_smap_put hp with rfl | hp
    · exact ⟨(ring, ringAt (coreAt m k) ring), mem_of_smap_has ({} : Ring) hr, hs⟩
    · exact ⟨p, hp, rfl⟩
  others := fun j hj => coreAt_setCore_ne m k j _ hj
  mem := rfl

theorem issueFetches (ring : Nat) (m : Mach) : Refilled k m (issueFetches k ring m) := by
  unfold Machine.issueFetches
  dsimp only
  split
  · exact refl m
  · rename_i hr
    split
    · exact refl m
    · split
      · exact (countN 0x6800 0x09 1 m).trans (coreError _ _ _ _ _ _)
      · split
        · exact refl m
        · exact (setRing (fetchAhead _ _).2 m (by simpa using hr) rfl).trans (countN _ _ _ _)

theorem refill (m : Mach) : Refilled k m (refill k m) :=
  foldl_keeps (fun x => Refilled k m x) _ _ m (refl m) (fun x p h => h.trans (issueFetches p.1 x))

end Refilled

/-- The predictor's evaluation changes nothing of a core but the layers that it disables. -/
theorem predictorEval_frame (k : Nat) (m : Mach) :
    coreAt (predictorEval k m) k = { coreAt m k with layersOff := (coreAt (predictorEval k m) k).layersOff } ∧
      (∀ j, j ≠ k → coreAt (predictorEval k m) j = coreAt m j) ∧ (predictorEval k m).mem = m.mem := by
  unfold predictorEval
  dsimp only
  split
  · exact ⟨rfl, fun _ _ => rfl, rfl⟩
  · have hc (j : Nat) (a b n : Nat) (f : Ctx → Ctx) (x : Core → Core) (i : Nat) :
        coreAt (countN a b n (modCore k x (modCtx i f m))) j = coreAt (modCore k x m) j := rfl
    refine ⟨?_, fun j hj => ?_, rfl⟩
    · rw [hc, coreAt_modCore_self]
    · rw [hc, coreAt_modCore_ne _ _ _ _ hj]

/-- A drained ring holds no span of the layer. -/
theorem drainRing_spans (m : Mach) (i lay : Nat) (r : Ring) :
    (drainRing m i lay r).2.spans = r.spans.filter (fun s => !ofLayer m i s.1 lay) := rfl

/-- The core once the slots of its layer are released and its arrays reset. -/
def drainedCore (m : Mach) (k : Nat) : Core :=
  let c := coreAt m k
  let rs := c.rings.map (fun p => (p.1, drainRing m c.ctx (c.layer - 1) p.2))
  resetArrays { c with rings := rs.map (fun p => (p.1, p.2.2)), st := .running }

theorem drainedCore_spans (m : Mach) (k : Nat) :
    ∀ p ∈ (drainedCore m k).rings, ∀ x ∈ p.2.spans, ofLayer m (coreAt m k).ctx x.1 ((coreAt m k).layer - 1) = false := by
  intro p hp x hx
  have hp' : p ∈ ((coreAt m k).rings.map (fun p => (p.1, drainRing m (coreAt m k).ctx ((coreAt m k).layer - 1) p.2))).map
      (fun p => (p.1, p.2.2)) := hp
  rw [List.map_map] at hp'
  obtain ⟨q, -, rfl⟩ := List.mem_map.mp hp'
  have hx' : x ∈ q.2.spans.filter (fun s => !ofLayer m (coreAt m k).ctx s.1 ((coreAt m k).layer - 1)) := hx
  simpa using (List.mem_filter.mp hx').2

/-- R34, R265, R396: the layer drain leaves the core as drained, but for what the predictor and the new fetches do. -/
theorem layerDrain_frame (k : Nat) (m : Mach) :
    (coreAt (layerDrain k m) k = { drainedCore m k with
      layersOff := (coreAt (layerDrain k m) k).layersOff, rings := (coreAt (layerDrain k m) k).rings,
      fault := (coreAt (layerDrain k m) k).fault }) ∧
    (∀ p ∈ (coreAt (layerDrain k m) k).rings, ∃ q ∈ (drainedCore m k).rings, p.2.spans = q.2.spans) ∧
    (∀ j, j ≠ k → coreAt (layerDrain k m) j = coreAt m j) ∧ (layerDrain k m).mem = m.mem := by
  let c := coreAt m k
  let rs := c.rings.map (fun p => (p.1, drainRing m c.ctx (c.layer - 1) p.2))
  let m1 := countN 0x6800 0x05 (rs.foldl (fun a p => a + p.2.1) 0) (setCore k (drainedCore m k) m)
  have hset : coreAt m1 k = drainedCore m k := coreAt_setCore_self m k _
  obtain ⟨hcore, hothers, hmem⟩ := predictorEval_frame k m1
  have hr : Refilled k (predictorEval k m1) (layerDrain k m) := Refilled.refill _
  rw [hset] at hcore
  refine ⟨?_, ?_, ?_, hr.mem.trans hmem⟩
  · rw [hr.core, hcore]
  · intro p hp
    obtain ⟨q, hq, hs⟩ := hr.spans p hp
    rw [hcore] at hq
    exact ⟨q, hq, hs⟩
  · intro j hj
    exact ((hr.others j hj).trans (hothers j hj)).trans (coreAt_setCore_ne m k j _ hj)

/-- Settles O34: the drained core, the predictor's evaluation and the new fetches, each by what it leaves. -/
theorem layerDrainEndsTheLayer : Obligations.LayerDrainEndsTheLayer := by
  unfold Obligations.LayerDrainEndsTheLayer
  intro s k hst hissues hquiet hlanded hbroken
  have hrun : layerDrained k s.m = fireEntries (coreAt s.m k).ctx (some k) ((coreAt s.m k).layer - 1) (layerDrain k s.m) := by
    unfold layerDrained
    dsimp only
    rw [if_neg (by simp [hst, hissues, hquiet, hlanded]), hbroken]
  obtain ⟨hcore, hspans, hothers, hmem⟩ := layerDrain_frame k s.m
  refine ⟨layerDrain k s.m, ?_, ?_⟩
  · show Host.Outcome.next (onM (layerDrained k) s) = _
    simp only [onM, hrun]
  · refine ⟨?_, ?_, ?_, ?_, ?_, ?_, ?_, hmem, ?_, hothers⟩
    · rw [hcore]; rfl
    · rw [hcore]; rfl
    · rw [hcore]; rfl
    · intro i hi
      rw [hcore]
      exact tab_getD_fill _ _ hi
    · rw [hcore]; exact ⟨rfl, rfl, rfl, rfl⟩
    · rw [hcore]; rfl
    · rw [hcore]; rfl
    · intro p hp x hx
      obtain ⟨q, hq, hs⟩ := hspans p hp
      exact drainedCore_spans s.m k q hq x (hs ▸ hx)

end Sys2Proof.Proofs

namespace Sys2Proof.Proofs

open Sys2Proof.Machine Sys2Proof.Laws

/-! ### What beginning a pass leaves of every context's job (01 R31, 14 R496, R502)

A pass that begins starts the work of many units. None of them touches the job of a context: its step number and complement, its
replay count and grant, its last record, its axes, claims and update set. -/

/-- `d` is the context `c` but for what a pass's beginning and its errors change of it. -/
def JobOnly (c d : Ctx) : Prop :=
  d = { c with
    st := d.st, pass := d.pass, failure := d.failure, mendDue := d.mendDue, gey := d.gey, repairs := d.repairs, ckpt := d.ckpt,
    everRan := d.everRan, predMiss := d.predMiss, predAudits := d.predAudits, latB := d.latB }

/-- No context's job differs. -/
def JobKept (a b : Mach) : Prop := ∀ j, JobOnly (ctxAt a j) (ctxAt b j)

namespace JobKept

theorem of_ctxs {a b : Mach} (h : b.ctxs = a.ctxs) : JobKept a b := fun j => by rw [ctxAt_congr h j]; rfl

theorem refl (m : Mach) : JobKept m m := fun _ => rfl

theorem trans {a b c : Mach} (h : JobKept a b) (k : JobKept b c) : JobKept a c := fun j => by
  have hj := h j
  have kj := k j
  unfold JobOnly at *
  rw [kj, hj]

theorem ite {p : Prop} [Decidable p] {a b c : Mach} (h : JobKept a b) (k : JobKept a c) : JobKept a (if p then b else c) := by
  split
  · exact h
  · exact k

theorem foldl {α : Type} (f : Mach → α → Mach) (l : List α) (m : Mach) (hf : ∀ x a, JobKept x (f x a)) : JobKept m (l.foldl f m) :=
  foldl_keeps (fun x => JobKept m x) f l m (refl m) (fun x a h => h.trans (hf x a))

theorem of_faultPath {a b : Mach} (h : FaultPath a b) : JobKept a b := fun j => by
  have hj := h.ctxs j
  unfold ErrorOnly at hj
  unfold JobOnly
  rw [hj]

theorem of_accessed {a b : Mach} (h : Accessed a b) : JobKept a b := of_ctxs (by rw [h])

theorem modCtx (i : Nat) (f : Ctx → Ctx) (m : Mach) (hf : ∀ c, JobOnly c (f c) := by exact fun _ => rfl) :
    JobKept m (Machine.modCtx i f m) :=
  fun j => ctxAt_modCtx_rel (R := JobOnly) (fun _ => rfl) i f m (hf _) j

theorem modPass (i : Nat) (f : Pass → Pass) (m : Mach) : JobKept m (modPass i f m) := modCtx i _ m
theorem modGey (i : Nat) (f : Geyser → Geyser) (m : Mach) : JobKept m (modGey i f m) := modCtx i _ m
theorem modEntry (i k : Nat) (f : Xfer → Xfer) (m : Mach) : JobKept m (modEntry i k f m) := modGey i _ m
theorem modRepair (i j : Nat) (f : Repair → Repair) (m : Mach) : JobKept m (modRepair i j f m) := modCtx i _ m

theorem count (index sub : Nat) (m : Mach) : JobKept m (count index sub m) := of_ctxs rfl
theorem countN (index sub n : Nat) (m : Mach) : JobKept m (countN index sub n m) := of_ctxs rfl
theorem emit (o : Out) (m : Mach) : JobKept m (emit o m) := of_ctxs rfl
theorem onMem (f : Mem → Mem) (m : Mach) : JobKept m (onMem f m) := of_ctxs rfl
theorem setCore (k : Nat) (c : Core) (m : Mach) : JobKept m (setCore k c m) := of_ctxs rfl

/-! Transactions and lower-tier accesses. -/

theorem sendFrom (x : Nat) (t : Txn) (m : Mach) : JobKept m (sendFrom x t m) := by
  unfold Machine.sendFrom
  split
  · rename_i p _
    exact (onMem (grantCross x (linkDie p)) m).trans (of_faultPath (FaultPath.sendTxn t _))
  · exact of_faultPath (FaultPath.sendTxn t m)

theorem stepUsed (i : Nat) (m : Mach) : JobKept m (stepUsed i id m) :=
  of_faultPath (FaultPath.stepUsed i id m (FaultPath.refl m))

theorem sendTierRead (i : Nat) (who : Waiter) (va len tier frame : Nat) (d : Option Nat) (m : Mach) :
    JobKept m (sendTierRead i who va len tier frame d m) := by
  unfold Machine.sendTierRead
  extract_lets m1 c n rg r
  have h1 : JobKept m m1 := stepUsed i m
  split
  · exact (h1.trans (onMem _ m1)).trans (count _ _ _)
  · exact ((h1.trans (onMem _ m1)).trans (emit _ _)).trans (count _ _ _)

theorem sendTierWrite (i vpn frame off : Nat) (mig : Bool) (out : Nat → Nat → Nat → Out) (m : Mach) :
    JobKept m (sendTierWrite i vpn frame off mig out m) := by
  unfold Machine.sendTierWrite
  extract_lets m1 c id rg
  exact (((stepUsed i m).trans (onMem _ m1)).trans (emit _ _)).trans (count _ _ _)

theorem issueTierRead (i : Nat) (who : Waiter) (va len tier frame : Nat) (d : Option Nat) (m : Mach) :
    JobKept m (issueTierRead i who va len tier frame d m) := (onMem _ m).trans (sendTierRead _ _ _ _ _ _ _ _)

theorem readLow (i : Nat) (who : Waiter) (parts : List (Nat × Nat)) (m : Mach) : JobKept m (readLow i who parts m) :=
  foldl _ _ m (fun x _ => issueTierRead _ _ _ _ _ _ _ x)

theorem fetchSpans (i : Nat) (who : Waiter) (spans : List (Nat × Nat)) (m : Mach) : JobKept m (fetchSpans i who spans m) :=
  foldl _ _ m (fun x _ => sendTierRead _ _ _ _ _ _ _ x)

theorem ownPut (i va : Nat) (bs : List Byte) (m : Mach) : JobKept m (ownPut i va bs m) := by
  unfold Machine.ownPut
  dsimp only
  split
  · exact of_faultPath (FaultPath.memFault _ i m)
  · exact (of_accessed (accessed_homeXlate va bs.length m)).trans (onMem _ _)

theorem areaPut (i va : Nat) (bs : List Byte) (m : Mach) : JobKept m (areaPut i va bs m) := ownPut i va bs m

/-! Cores and their rings. -/

theorem recordFault (k code slot : Nat) (prog bundle : Bool) (pc detail : Nat) (m : Mach) :
    JobKept m (recordFault k code slot prog bundle pc detail m) := by
  unfold Machine.recordFault
  exact ((setCore k _ m).trans (count 0x6100 0x0A _)).trans (stepUsed _ _)

theorem coreError (k code slot : Nat) (bundle : Bool) (pc detail : Nat) (m : Mach) :
    JobKept m (coreError k code slot bundle pc detail m) :=
  (recordFault _ _ _ _ _ _ _ m).trans (of_faultPath (FaultPath.ctxError _ _ _))

theorem ringBroken (p : Poster) (k ring pc : Nat) (m : Mach) : JobKept m (ringBroken p k ring pc m) := by
  unfold Machine.ringBroken
  dsimp only
  split
  · exact (count _ _ m).trans (coreError _ _ _ _ _ _ _)
  · exact (count _ _ m).trans (coreError _ _ _ _ _ _ _)
  · exact (count _ _ m).trans (coreError _ _ _ _ _ _ _)
  · exact (count _ _ m).trans (of_faultPath (FaultPath.ctxError _ _ _))

theorem postEntry (p : Poster) (pc k ring e : Nat) (m : Mach) : JobKept m (postEntry p pc k ring e m) := by
  unfold Machine.postEntry
  dsimp only
  split
  · exact ringBroken _ _ _ _ m
  · split
    · exact refl m
    · split
      · exact setCore _ _ m
      · exact (setCore _ _ m).trans (count _ _ _)

theorem issueFetches (k ring : Nat) (m : Mach) : JobKept m (issueFetches k ring m) := by
  unfold Machine.issueFetches
  dsimp only
  split
  · exact refl m
  · split
    · exact refl m
    · split
      · exact ringBroken _ _ _ _ m
      · split
        · exact refl m
        · exact (setCore _ _ m).trans (countN _ _ _ _)

theorem startStreams (i : Nat) (m : Mach) : JobKept m (startStreams i m) :=
  foldl _ _ m (fun x _ => issueFetches _ _ x)

/-! Transfer entries. -/

theorem landPart (i k q off : Nat) (m : Mach) : JobKept m (landPart i k q off m) := by
  unfold Machine.landPart
  extract_lets e l m1
  split
  · exact ((modEntry i k _ m).trans (modEntry i k _ _)).trans (postEntry _ _ _ _ _ _)
  · exact modEntry i k _ m

theorem pipeLands (i k off : Nat) (data : List Byte) (m : Mach) : JobKept m (pipeLands i k off data m) :=
  (areaPut _ _ _ m).trans (landPart _ _ _ _ _)

theorem sendShard (i v off : Nat) (receipt data : List Byte) (m : Mach) : JobKept m (sendShard i v off receipt data m) :=
  (sendFrom _ _ m).trans (countN _ _ _ _)

theorem addPart (i k pos : Nat) (data : List Byte) (m : Mach) : JobKept m (addPart i k pos data m) := by
  unfold Machine.addPart
  dsimp only
  split
  · exact of_faultPath (FaultPath.memFault _ i m)
  · split
    · exact ((onMem _ m).trans (areaPut _ _ _ _)).trans (landPart _ _ _ _ _)
    · exact (onMem _ m).trans (sendShard _ _ _ _ _ _)

theorem firePipe (i k : Nat) (m : Mach) : JobKept m (firePipe i k m) := by
  refine foldl _ _ m (fun x ch => ?_)
  dsimp only
  split
  · exact (countN _ _ _ x).trans (pipeLands _ _ _ _ _)
  · exact (countN _ _ _ x).trans (sendFrom _ _ _)

theorem fireScatter (i k : Nat) (m : Mach) : JobKept m (fireScatter i k m) := by
  refine ((modEntry i k _ m).trans (foldl _ _ _ (fun x ch => ?_))).trans (foldl _ _ _ (fun x p => addPart i k _ _ x))
  split
  · exact (areaPut _ _ _ x).trans (landPart _ _ _ _ _)
  · exact sendShard _ _ _ _ _ x

theorem fireGather (i k : Nat) (m : Mach) : JobKept m (fireGather i k m) := by
  unfold Machine.fireGather
  dsimp only
  split
  · exact of_faultPath (FaultPath.ctxError _ i m)
  · refine (areaPut _ _ _ m).trans (foldl _ _ _ (fun x ch => ?_))
    split
    · exact (areaPut _ _ _ x).trans (landPart _ _ _ _ _)
    · exact ((areaPut _ _ _ x).trans (sendShard _ _ _ _ _ _)).trans (landPart _ _ _ _ _)

theorem fireEntry (i k : Nat) (m : Mach) : JobKept m (fireEntry i k m) := by
  unfold Machine.fireEntry
  dsimp only
  split
  · exact refl m
  · split
    · exact of_faultPath (FaultPath.memFault _ i m)
    · have h := (onMem (vtouch (teSource (entryAt m i k).desc.v) (sourceBytes m i (entryAt m i k).desc.v)) m).trans
        (modEntry i k (fun e => { e with fired := true }) _)
      split
      · exact h.trans (firePipe _ _ _)
      · exact h.trans (fireScatter _ _ _)
      · exact h.trans (fireGather _ _ _)

theorem fireEntries (i : Nat) (core : Option Nat) (layer : Nat) (m : Mach) : JobKept m (fireEntries i core layer m) := by
  unfold Machine.fireEntries
  dsimp only
  split
  · exact of_faultPath (FaultPath.ctxError _ i m)
  · exact foldl _ _ m (fun x k => ite (fireEntry _ _ x) (refl x))

end JobKept

end Sys2Proof.Proofs

namespace Sys2Proof.Proofs

open Sys2Proof.Machine Sys2Proof.Laws

namespace JobKept

/-! Gather/scatter engines. -/

theorem setTab (id : Nat) (t : Table) (m : Mach) : JobKept m (setTab id t m) := of_ctxs rfl

theorem calderaFill (d key : Nat) (data : List Byte) (m : Mach) : JobKept m (calderaFill d key data m) := by
  unfold Machine.calderaFill
  dsimp only
  split
  · exact refl m
  · exact ite (setTab _ _ m) (count _ _ m)

theorem countRow (c : Ctx) (id key : Nat) (m : Mach) : JobKept m (countRow c id key m) := by
  unfold Machine.countRow
  dsimp only
  split
  · exact ite ((setTab _ _ m).trans (count _ _ _)) (setTab _ _ m)
  · exact setTab _ _ m

theorem readParts (i e : Nat) (who : Waiter) (deadline : Bool) (row : GsRow) (m : Mach) :
    JobKept m (readParts i e who deadline row m).2 := by
  refine foldl_keeps (fun acc : GsRow × Mach => JobKept m acc.2) _ _ _ (of_accessed (accessed_access _ _ _ m)) (fun acc p h => ?_)
  dsimp only
  split
  · exact h
  · exact h.trans (issueTierRead _ _ _ _ _ _ _ _)

theorem finishRow (i : Nat) (s : GsSrc) (row : GsRow) (m : Mach) : JobKept m (finishRow i s row m).2 := by
  unfold Machine.finishRow
  split
  · dsimp only
    split
    · split
      · exact (calderaFill _ _ _ m).trans (count _ _ _)
      · exact count _ _ m
    · exact count _ _ m
  · exact refl m

/-- A row's start that answers with a machine keeps every job. -/
def RowKept (m : Mach) : Sr (Option (GsRow × Mach)) → Prop
  | .ok (some (_, m1)) => JobKept m m1
  | _ => True

theorem rowKept_bind {α : Type} (m : Mach) (x : Sr α) (f : α → Sr (Option (GsRow × Mach))) (h : ∀ a, RowKept m (f a)) :
    RowKept m (x >>= f) := by
  cases x with
  | error c => trivial
  | ok a => exact h a

theorem freshTag (m : Mach) : JobKept m (freshTag m).2 := of_ctxs rfl

theorem startFound (i e : Nat) (who : Waiter) (s : GsSrc) (reread mayAsk : Bool) (row : GsRow) (m : Mach) :
    RowKept m (startFound i e who s reread mayAsk row m) := by
  have hacc : JobKept m (accessAll (unitXl e) (findSpans m i s row.key ++ row.aux) m) := of_accessed (accessed_accessAll _ _ m)
  unfold Machine.startFound
  extract_lets c m0 asked
  refine rowKept_bind m _ _ (fun w => ?_)
  cases w with
  | away o ver =>
    dsimp only
    split
    · trivial
    · split
      · trivial
      · exact (((hacc.trans (freshTag m0)).trans (ite (count _ _ _) (refl _))).trans (sendFrom _ _ _)).trans (count _ _ _)
  | here cls kind va len ver tab hot =>
    dsimp -zeta only
    split
    · trivial
    · extract_lets f hit parts hotAsked m2 r spans
      have hask : JobKept m hotAsked := (hacc.trans (count _ _ _)).trans (ite (count _ _ _) (refl _))
      have h2 : JobKept m m2 := by
        cases tab with
        | none => exact hacc
        | some d => exact hask.trans (ite (refl _) (countRow _ _ _ _))
      clear_value hit
      split
      · trivial
      · split
        · trivial
        · split
          · trivial
          · split
            · exact (h2.trans (of_accessed (accessed_accessAll _ _ m2))).trans (count _ _ _)
            · split
              · exact ((h2.trans (count _ _ _)).trans (setTab _ _ _)).trans (count _ _ _)
              · exact ((h2.trans (count _ _ _)).trans (readParts _ _ _ _ _ _)).trans (finishRow _ _ _ _)
              · exact (h2.trans (readParts _ _ _ _ _ _)).trans (finishRow _ _ _ _)

theorem startRow (i e : Nat) (who : Waiter) (s : GsSrc) (reread mayAsk : Bool) (row : GsRow) (m : Mach) :
    RowKept m (startRow i e who s reread mayAsk row m) := by
  unfold Machine.startRow
  extract_lets low
  split
  · exact startFound _ _ _ _ _ _ _ m
  · split
    · trivial
    · exact readLow _ _ _ m

theorem of_startRow {i e : Nat} {who : Waiter} {s : GsSrc} {reread mayAsk : Bool} {row r : GsRow} {m m1 : Mach}
    (h : Machine.startRow i e who s reread mayAsk row m = .ok (some (r, m1))) : JobKept m m1 := by
  have hr := startRow i e who s reread mayAsk row m
  rw [h] at hr
  exact hr

/-- The rows of an operation start in order. -/
theorem startRows {i e op : Nat} {s : GsSrc} {reread : Bool} {n : Nat} {rows rs : List GsRow} {m m1 : Mach}
    (h : Machine.startRows i e op s reread n rows m = .ok (rs, m1)) : JobKept m m1 := by
  induction rows generalizing n m rs m1 with
  | nil =>
    cases h
    exact refl m
  | cons row rest ih =>
    unfold Machine.startRows at h
    split at h
    · cases hrest : Machine.startRows i e op s reread (n + 1) rest m with
      | error c => rw [hrest] at h; cases h
      | ok p =>
        rw [hrest] at h
        cases h
        exact ih hrest
    · cases hrow : Machine.startRow i e (.item e op n) s reread true row m with
      | error c => rw [hrow] at h; cases h
      | ok o =>
        rw [hrow] at h
        cases o with
        | none =>
          cases hrest : Machine.startRows i e op s reread (n + 1) rest (if row.st == 0 then Machine.count 0x6500 0x06 m else m) with
          | error c => simp only [bind, Except.bind, hrest] at h; cases h
          | ok p =>
            simp only [bind, Except.bind, hrest] at h
            cases h
            exact (ite (count _ _ m) (refl m)).trans (ih hrest)
        | some q =>
          cases hrest : Machine.startRows i e op s reread (n + 1) rest q.2 with
          | error c => simp only [bind, Except.bind, hrest] at h; cases h
          | ok p =>
            simp only [bind, Except.bind, hrest] at h
            cases h
            exact (of_startRow hrow).trans (ih hrest)

theorem answerGather (i e : Nat) (t : Txn) (row : GsRow) (m : Mach) : JobKept m (answerGather i e t row m) := sendFrom _ _ m

theorem setEng (e : Nat) (x : Engine) (m : Mach) : JobKept m (setEng e x m) := of_ctxs rfl

theorem hbmWaits (e : Nat) (mem : Mem) (before after : List GsRow) (m : Mach) : JobKept m (hbmWaits e mem before after m) := by
  unfold Machine.hbmWaits
  exact ite (refl m) (of_ctxs rfl)

theorem advanceOp (e id : Nat) (m : Mach) : JobKept m (advanceOp e id m) := by
  unfold Machine.advanceOp
  split
  · exact refl m
  · rename_i o _
    dsimp only
    cases hs : opSource m o with
    | error x => exact (setEng _ _ m).trans (of_faultPath (FaultPath.gsFault _ _ _))
    | ok src =>
      cases hr : Machine.startRows (o.key / 65536) e id src.1 src.2 0 o.rows m with
      | error x =>
        simp only [bind, Except.bind, hr]
        exact (setEng _ _ m).trans (of_faultPath (FaultPath.gsFault _ _ _))
      | ok p =>
        simp only [bind, Except.bind, hr]
        exact ((startRows hr).trans (setEng _ _ _)).trans (hbmWaits _ _ _ _ _)

theorem setServed (l : List Served) (m : Mach) : JobKept m { m with served := l } := of_ctxs rfl

theorem advanceServed (v : Served) (m : Mach) : JobKept m (advanceServed v m) := by
  unfold Machine.advanceServed
  split
  · extract_lets rest
    split
    · exact refl m
    · split
      · exact (setServed _ m).trans (of_faultPath (FaultPath.gsFault _ _ rest))
      · exact ite (refl m) ((setServed _ m).trans (count _ _ _))
      · rename_i hrow
        have h1 := of_startRow hrow
        exact ite (h1.trans ((setServed _ _).trans (answerGather _ _ _ _ _))) (h1.trans (setServed _ _))
  · exact refl m

theorem advanceEngine (e : Nat) (m : Mach) : JobKept m (advanceEngine e m) :=
  (foldl _ _ m (fun x id => advanceOp e id x)).trans (foldl _ _ _ (fun x v => advanceServed v x))

/-! Migration copies, tables and the collective unit. -/

theorem goCopy (i : Nat) (g : Mig) (m : Mach) : JobKept m (goCopy i g m) := by
  unfold Machine.goCopy Machine.writeCopy
  extract_lets m1
  have h1 : JobKept m m1 := of_ctxs rfl
  split
  · exact h1.trans (sendTierRead _ _ _ _ _ _ _ _)
  · split
    · exact h1
    · split
      · exact h1
      · exact h1.trans (sendTierWrite _ _ _ _ _ _ _)

theorem startCopies (i : Nat) (m : Mach) : JobKept m (startCopies i m) := foldl _ _ m (fun x g => goCopy i g x)

theorem startHot (id : Nat) (m : Mach) : JobKept m (startHot id m) := by
  unfold Machine.startHot
  split
  · exact foldl _ _ m (fun x _ => fetchSpans _ _ _ x)
  · exact refl m

theorem startScan (id : Nat) (m : Mach) : JobKept m (startScan id m) := by
  unfold Machine.startScan
  split
  · exact ite (fetchSpans _ _ _ m) (refl m)
  · exact refl m

theorem startTableReads (i : Nat) (m : Mach) : JobKept m (startTableReads i m) :=
  foldl _ _ m (fun x id => (startHot id x).trans (startScan id _))

theorem layoutChanged (i id : Nat) (m : Mach) : JobKept m (layoutChanged i id m) := by
  unfold Machine.layoutChanged
  extract_lets m1
  have h1 : JobKept m m1 := ite (refl m) (of_faultPath (FaultPath.ctxError _ i m))
  split
  · exact h1.trans (of_ctxs rfl)
  · exact h1

theorem switchTable (i id next : Nat) (m : Mach) : JobKept m (switchTable i id next m) := by
  unfold Machine.switchTable
  dsimp only
  split
  · exact refl m
  · split
    · exact of_faultPath (FaultPath.gsFault _ i m)
    · exact ((count _ _ m).trans (layoutChanged i id _)).trans (setTab _ _ _)

theorem repeatQ4 (i : Nat) (m : Mach) : JobKept m (repeatQ4 i m) := foldl _ _ m (fun x id => switchTable i id _ x)

theorem expPut (i v table blk : Nat) (e : Int) (m : Mach) : JobKept m (expPut i v table blk e m) :=
  (ownPut _ _ _ m).trans (ownPut _ _ _ _)

theorem putWorking (i : Nat) (l : List (Nat × Nat × Int)) (m : Mach) : JobKept m (putWorking i l m) := by
  unfold Machine.putWorking
  split
  · exact of_faultPath (FaultPath.scaleCheck i m)
  · exact foldl _ _ m (fun x _ => expPut _ _ _ _ _ x)

theorem copyWorking (i : Nat) (m : Mach) : JobKept m (copyWorking i m) := by
  refine foldl _ _ m (fun x b => ?_)
  split
  · exact of_faultPath (FaultPath.scaleCheck i x)
  · refine foldl _ _ x (fun y blk => ?_)
    split
    · exact expPut _ _ _ _ _ y
    · exact of_faultPath (FaultPath.geyFault _ i y)

theorem dput (index sub : Nat) (v : List Byte) (m : Mach) : JobKept m (dput m index sub v) := of_ctxs rfl

theorem geyserStart (i : Nat) (keep : Bool) (m : Mach) : JobKept m (geyserStart i keep m) := by
  unfold Machine.geyserStart
  extract_lets m1 found calib m2
  have h1 : JobKept m m1 := ite (putWorking _ _ m) (refl m)
  have h2 : JobKept m1 m2 := by
    refine ite ((dput _ _ _ m1).trans (modPass i _ _)) ?_
    clear_value found
    split
    · exact of_faultPath (FaultPath.geyFault _ i m1)
    · exact refl m1
  exact (h1.trans h2).trans (modGey i _ m2)

/-! The pass itself. -/

theorem rewriteDescs (i : Nat) (m : Mach) : JobKept m (rewriteDescs i m) := by
  unfold Machine.rewriteDescs
  refine trans ?_ (modGey i _ _)
  exact of_ctxs rfl

theorem waitEnds (i : Nat) (m : Mach) : JobKept m (waitEnds i m) := of_faultPath (FaultPath.waitEnds i m)

theorem tablesStart (i : Nat) (m : Mach) : JobKept m (tablesStart i m) := of_ctxs rfl
theorem eachCore (i : Nat) (f : Core → Core) (m : Mach) : JobKept m (eachCore i f m) := of_ctxs rfl

theorem enterPass (i u : Nat) (m : Mach) : JobKept m (enterPass i u m) := by
  unfold Machine.enterPass
  extract_lets c strict first m1 m2 m3 m4 m5
  have h2 : JobKept m m2 := ((waitEnds i m).trans (modCtx i _ _)).trans (count _ _ _)
  have h3 : JobKept m2 m3 := ite ((tablesStart i m2).trans (copyWorking i _)) (refl m2)
  have h4 : JobKept m3 m4 := foldl _ _ m3 (fun x e => advanceEngine e x)
  have h5 : JobKept m4 m5 := geyserStart i _ m4
  have h6 : JobKept m m5 := ((h2.trans h3).trans h4).trans h5
  exact ((((h6.trans (startCopies i m5)).trans (startTableReads i _)).trans (eachCore i _ _)).trans (startStreams i _)).trans
    (fireEntries _ _ _ _)

theorem countRepeat (i u : Nat) (m : Mach) : JobKept m (countRepeat i u m) := by
  unfold Machine.countRepeat
  extract_lets m1
  have h1 : JobKept m m1 := ite ((modPass i _ m).trans (count _ _ _)) (refl m)
  exact ite (h1.trans (count _ _ _)) h1

theorem tryBarrier (i : Nat) (m : Mach) : JobKept m (tryBarrier i m) := by
  unfold Machine.tryBarrier
  extract_lets c bs u trips m1
  have h1 : JobKept m m1 := (modPass i _ m).trans (count _ _ _)
  split
  · exact refl m
  · split
    · exact (countRepeat i _ m).trans (enterPass i _ _)
    · split
      · exact h1.trans (of_faultPath (FaultPath.failCtx _ _ _ _ _ _ m1))
      · split
        · exact h1.trans (of_faultPath (FaultPath.failCtx _ _ _ _ _ _ m1))
        · exact h1.trans (enterPass i _ m1)

theorem sendBegin (i : Nat) (m : Mach) : JobKept m (sendBegin i m) := by
  unfold Machine.sendBegin
  extract_lets c own early m1 m2
  have h2 : JobKept m m2 := (modCtx i _ m).trans (of_faultPath (FaultPath.sendCtrl _ _ _ i m1))
  exact ite (h2.trans (tryBarrier i m2)) (h2.trans (of_faultPath (FaultPath.abortPass i _ _ m2)))

theorem geyserPass (i : Nat) (m : Mach) : JobKept m (geyserPass i m) := modGey i _ m
theorem entriesPass (i : Nat) (m : Mach) : JobKept m (entriesPass i m) := modGey i _ m

/-- A context that begins a step has replay count 0 (R502): its first pass keeps it. -/
theorem startPass {i : Nat} {m : Mach} (hr : (ctxAt m i).replay = 0) : JobKept m (startPass i m) := by
  unfold Machine.startPass
  extract_lets c m0 m1
  have h0 : JobKept m m0 := ite ((rewriteDescs i m).trans (modCtx i _ _)) (refl m)
  have hr0 : (ctxAt m0 i).replay = 0 := by rw [h0 i]; exact hr
  have hbegin : JobKept m0 (Machine.modCtx i (fun c => { c with
      st := .run, replay := 0, pass := { begins := c.pass.begins, early := c.pass.early } }) m0) :=
    fun j => ctxAt_modCtx_rel (R := JobOnly) (fun _ => rfl) i _ m0 (by unfold JobOnly; rw [← hr0]) j
  have h1 : JobKept m0 m1 := ite (hbegin.trans (repeatQ4 i _)) (refl m0)
  split
  · exact refl m
  · split
    · exact of_faultPath (FaultPath.stepFault i m)
    · exact (((h0.trans h1).trans (geyserPass i _)).trans (entriesPass i _)).trans (sendBegin i _)

/-! Repairs and fast checkpoints. -/

theorem iter (n : Nat) (f : Mach → Mach) (m : Mach) (hf : ∀ x, JobKept x (f x)) : JobKept m (iter n f m) := by
  induction n generalizing m with
  | zero => exact refl m
  | succ n ih => exact (hf m).trans (ih (f m))

theorem askChunk (i j chunk : Nat) (m : Mach) : JobKept m (askChunk i j chunk m) := by
  unfold Machine.askChunk
  split
  · exact refl m
  · exact ((freshTag m).trans (modRepair i j _ _)).trans (of_faultPath (FaultPath.sendTxn _ _))

theorem askNext (i j : Nat) (m : Mach) : JobKept m (askNext i j m) := by
  unfold Machine.askNext
  split
  · exact ite ((modRepair i j _ m).trans (askChunk _ _ _ _)) (refl m)
  · exact refl m

theorem askMore (i j : Nat) (m : Mach) : JobKept m (askMore i j m) := by
  unfold Machine.askMore
  exact iter 32 _ m (fun x => askNext i j x)

theorem beginRepair (i j : Nat) (m : Mach) : JobKept m (beginRepair i j m) :=
  (modRepair i j _ m).trans (askMore i j _)

theorem startRepairs (i : Nat) (m : Mach) : JobKept m (startRepairs i m) := by
  refine foldl _ _ m (fun x j => ?_)
  split
  · exact ite (beginRepair i j x) (refl x)
  · exact refl x

theorem sendWrite (i off : Nat) (bs : List Byte) (m : Mach) : JobKept m (sendWrite i off bs m) :=
  ((freshTag m).trans (modCtx i _ _)).trans (of_faultPath (FaultPath.sendTxn _ _))

theorem fastSend (i : Nat) (m : Mach) : JobKept m (fastSend i m) := by
  unfold Machine.fastSend
  exact ite (refl m) ((modCtx i _ m).trans (foldl _ _ _ (fun x p => sendWrite i _ _ x)))

theorem fastBegin (i : Nat) (m : Mach) : JobKept m (fastBegin i m) := by
  unfold Machine.fastBegin
  exact ite (refl m) ((modCtx i _ m).trans (fastSend i _))

end JobKept

end Sys2Proof.Proofs

namespace Sys2Proof.Proofs

open Sys2Proof.Machine Sys2Proof.Laws

/-! ### The stages of QUENCH (01 R30, 14 R503) -/

theorem quenchRun_idle {i : Nat} {m : Mach} (h : (ctxAt m i).st ≠ .run ∨ (ctxAt m i).pass.committed = false) : quenchRun i m = m := by
  have hs : stillQuench i m = false := by
    rcases h with h | h <;> simp [stillQuench, h]
  simp [quenchRun, hs]

/-- In stage 0 a context that stays there has done what Q1's stage did. -/
theorem quenchRun_stage0 {i : Nat} {m : Mach} (hst : (ctxAt m i).st = .run) (hc : (ctxAt m i).pass.committed = true)
    (hq : (ctxAt m i).pass.quench = 0) (hq1 : (ctxAt (stageQ1 i m) i).pass.quench = 0) : quenchRun i m = stageQ1 i m := by
  have hs : stillQuench i m = true := by simp [stillQuench, hst, hc]
  simp [quenchRun, hs, hq, hq1]

theorem quenchRun_stage3 {i : Nat} {m : Mach} (hst : (ctxAt m i).st = .run) (hc : (ctxAt m i).pass.committed = true)
    (hq : (ctxAt m i).pass.quench = 3) : quenchRun i m = stageQ7 i m := by
  have hs : stillQuench i m = true := by simp [stillQuench, hst, hc]
  simp [quenchRun, hs, hq]

/-- R197: the quench waits for a plan from a time on. -/
def awaitPlan (since : Nat) (p : Pass) : Pass := { p with waitPlan := true, planSince := since }

theorem stageQ1_missing {i : Nat} {m : Mach} (h : planMissing m i = true) :
    stageQ1 i m = if (ctxAt m i).pass.waitPlan then m else count 0x6600 0x0B (modPass i (awaitPlan m.dev.time10) m) := by
  unfold stageQ1
  dsimp only
  rw [if_pos h]
  rfl

/-! ### Q7's write of the record -/

/-- A write in Q1's manner to octets that can be written touches no context and no entry of the dictionary. -/
theorem putQ1_frame {i va : Nat} {bs : List Byte} {m : Mach} (hst : (ctxAt m i).st ≠ .halt) (hok : stepPairOk (ctxAt m i) = true)
    (hr : readCheck m.mem va bs.length = 0) :
    (putQ1 i va bs m).ctxs = m.ctxs ∧ (putQ1 i va bs m).mgmt.dict = m.mgmt.dict := by
  have hx := accessed_homeXlate va bs.length m
  have hlow : (writeLower i va bs.length (onMem (vput va bs) (homeXlate va bs.length m))).ctxs = m.ctxs ∧
      (writeLower i va bs.length (onMem (vput va bs) (homeXlate va bs.length m))).mgmt.dict = m.mgmt.dict := by
    refine foldl_keeps (fun x : Mach => x.ctxs = m.ctxs ∧ x.mgmt.dict = m.mgmt.dict) _ _ _ ?_ (fun x p h => ?_)
    · rw [hx]
      exact ⟨rfl, rfl⟩
    · have hxi : stepPairOk (ctxAt x i) = true := by rw [ctxAt_congr h.1]; exact hok
      split
      · exact h
      · split
        · exact h
        · simp only [sendTierWrite, stepUsed_ok i id x hxi]
          exact h
  unfold putQ1
  dsimp only
  rw [if_neg (by simpa using hst), hr, if_neg (by decide)]
  split
  · unfold shardWritten
    split
    · split
      · exact hlow
      · exact hlow
    · exact hlow
  · exact hlow

/-! ### A fast checkpoint that a quench begins (15 R527, R528) -/

/-- Another context's failure leaves a context as it is. -/
theorem ctxAt_failCtx_ne {i j : Nat} (code cause port va flags : Nat) (m : Mach) (h : j ≠ i) :
    ctxAt (failCtx j code cause port va flags m) i = ctxAt m i := by
  have hhalt : ctxAt (haltCtx j m) i = ctxAt m i := by
    unfold haltCtx
    split
    · rfl
    · rw [ctxAt_congr (sendCtrl_ctxs _ _ _ _ _), ctxAt_modCtx_ne _ _ _ _ h, ctxAt_waitEnds]
  unfold failCtx
  split
  · rfl
  · rw [ctxAt_congr (deviceAuto_ctxs _), ctxAt_congr (notifyCode_ctxs _ _ _ _), ctxAt_congr (recStat_ctxs _ _),
      ctxAt_modCtx_ne _ _ _ _ h, hhalt]

/-- A transaction that can be routed fails no context whose step number agrees with its complement. -/
theorem ctxAt_sendTxn {i : Nat} {t : Txn} {m : Mach} (hr : routable m t.dest = true) (hok : stepPairOk (ctxAt m i) = true) :
    ctxAt (sendTxn t m) i = ctxAt m i := by
  have hput : ctxAt (putTxn t m) i = ctxAt m i := ctxAt_congr (putTxn_ctxs t m) i
  unfold sendTxn
  rw [if_pos hr]
  split
  · rename_i j _
    split
    · exact hput
    · by_cases h : j = i
      · rw [h, stepUsed_ok i _ m hok]
        exact hput
      · unfold stepUsed
        split
        · exact hput
        · exact ctxAt_failCtx_ne _ _ _ _ _ m h
  · exact hput

/-- `b` follows from `a` by sends of a context's fast checkpoint: of that context its checkpoint alone differs, and nothing of the
dictionary. -/
def CopySent (i : Nat) (a b : Mach) : Prop :=
  b.mgmt.dict = a.mgmt.dict ∧ ctxAt b i = { ctxAt a i with ckpt := (ctxAt b i).ckpt }

theorem copySent_refl (i : Nat) (m : Mach) : CopySent i m m := ⟨rfl, rfl⟩

theorem copySent_trans {i : Nat} {a b c : Mach} (h : CopySent i a b) (k : CopySent i b c) : CopySent i a c :=
  ⟨k.1.trans h.1, by rw [k.2, h.2]⟩

theorem copySent_modCkpt {i : Nat} (f : Ctx → Ckpt) (m : Mach) (hi : i < 16) :
    CopySent i m (modCtx i (fun c => { c with ckpt := f c }) m) :=
  ⟨rfl, by rw [ctxAt_modCtx_self _ _ _ hi]⟩

/-- The neighbour to which a fast checkpoint goes. -/
def fastPeer (m : Mach) : Nat := portPeer m (dnum m 0x8100 0x0F)

theorem fastPeer_congr {a b : Mach} (h : b.mgmt.dict = a.mgmt.dict) : fastPeer b = fastPeer a := by
  simp only [fastPeer, portPeer, ringSize_congr h, ownCoord_congr h, dnum_congr h]

theorem routable_fastPeer_congr {a b : Mach} (h : b.mgmt.dict = a.mgmt.dict) : routable b (fastPeer b) = routable a (fastPeer a) := by
  rw [routable_congr h, fastPeer_congr h]

section FastCheckpoint

variable {i : Nat} {m : Mach} (hi : i < 16) (hr : routable m (fastPeer m) = true) (hok : stepPairOk (ctxAt m i) = true)

include hi hr hok

theorem copySent_sendWrite (off : Nat) (bs : List Byte) : CopySent i m (sendWrite i off bs m) := by
  let m1 := (freshTag m).2
  let m2 := modCtx i (fun c => { c with ckpt := { c.ckpt with fastTags := c.ckpt.fastTags ++ [(freshTag m).1] } }) m1
  have h2 : CopySent i m m2 := copySent_modCkpt (fun c => { c.ckpt with fastTags := c.ckpt.fastTags ++ [(freshTag m).1] }) m1 hi
  have hr2 : routable m2 (fastPeer m) = true := hr
  have hok2 : stepPairOk (ctxAt m2 i) = true := by rw [h2.2]; exact hok
  have hs : ∀ t : Txn, t.dest = fastPeer m → CopySent i m2 (sendTxn t m2) := fun t ht =>
    ⟨(FaultPath.sendTxn t m2).dict, by rw [ctxAt_sendTxn (by rw [ht]; exact hr2) hok2]⟩
  exact copySent_trans h2 (hs _ rfl)

theorem copySent_fastSend : CopySent i m (fastSend i m) := by
  unfold fastSend
  split
  · exact copySent_refl i m
  · refine foldl_keeps (fun x => CopySent i m x) _ _ _
      (copySent_modCkpt (fun c => { c.ckpt with fastTags := [], fastHead := false, fastBytes := _ }) m hi)
      (fun x p h => copySent_trans h (copySent_sendWrite hi ?_ ?_ _ _))
    · exact (routable_fastPeer_congr h.1).trans hr
    · rw [h.2]; exact hok

end FastCheckpoint

/-! ### Q7 (14 R502, R503) -/

/-- R502, R503: a context at the end of its quench, with the step's record. -/
def stepDone (r : List Byte) (c : Ctx) : Ctx :=
  { c with
    step := (c.step + 1) % 2 ^ 64, stepC := cpl 64 (c.step + 1), replay := 0, grant := c.grant - 1,
    lastRec := r, st := if c.holdReq then .held else .idle,
    pass := { begins := c.pass.begins, early := c.pass.early } }

/-- Where a step's record goes in the log. -/
def recordVa (c : Ctx) : Nat := c.logVa + 32 * (if c.logEntries = 0 then 0 else c.step % c.logEntries)

/-- The machine once the record is written, the context's step is done and its versions are released. -/
def stepRecorded (i mb : Nat) (m : Mach) : Mach :=
  let r := stepRecord (ctxAt m i) mb
  tablesEnd i (modCtx i (stepDone r) (putQ1 i (recordVa (ctxAt m i)) r m))

theorem stepRecord_length (c : Ctx) (mb : Nat) : (stepRecord c mb).length = 32 := by
  simp [stepRecord]

/-- R503: the next step's number agrees with its complement. -/
theorem stepPairOk_stepDone (r : List Byte) (c : Ctx) : stepPairOk (stepDone r c) = true := by
  simp [stepPairOk, pairOk, stepDone, cpl]

theorem dlat_congr {a b : Mach} (h : b.mgmt.dict = a.mgmt.dict) (d c : Ctx) (hl : d.lat = c.lat) (index sub : Nat) :
    dlat b d index sub = dlat a c index sub := by
  unfold dlat
  rw [hl, dnum_congr h]

/-- Without repairs none starts (R518). -/
theorem startRepairs_nil {i : Nat} {m : Mach} (h : (ctxAt m i).repairs = []) : startRepairs i m = m := by
  unfold startRepairs
  rw [h]
  rfl

/-- A context that is HELD begins no pass (R484). -/
theorem startPass_held {i : Nat} {m : Mach} (h : (ctxAt m i).st = .held) : startPass i m = m := by
  unfold startPass
  dsimp only
  exact if_pos (by simp [mayBegin, h])

section EndOfQuench

variable {i : Nat} {m : Mach} (mb : Nat) (hi : i < 16) (hst : (ctxAt m i).st = .run) (hok : stepPairOk (ctxAt m i) = true)
  (hread : readCheck m.mem (recordVa (ctxAt m i)) 32 = 0)

include hst hok hread

theorem record_frame :
    (putQ1 i (recordVa (ctxAt m i)) (stepRecord (ctxAt m i) mb) m).ctxs = m.ctxs ∧
      (putQ1 i (recordVa (ctxAt m i)) (stepRecord (ctxAt m i) mb) m).mgmt.dict = m.mgmt.dict :=
  putQ1_frame (by simp [hst]) hok (by rw [stepRecord_length]; exact hread)

theorem stepRecorded_dict : (stepRecorded i mb m).mgmt.dict = m.mgmt.dict := (record_frame mb hst hok hread).2

/-- Where the record can be written, the quench ends: then repairs, the next pass and the device's own change of state. -/
theorem quenchQ7_eq :
    quenchQ7 i mb m = deviceAuto (startPass i (startRepairs i (fastBegin i (stepRecorded i mb m)))) := by
  have hva : (ctxAt m i).logVa + 32 * (if (ctxAt m i).logEntries == 0 then 0 else (ctxAt m i).step % (ctxAt m i).logEntries) =
      recordVa (ctxAt m i) := by simp only [recordVa, beq_iff_eq]
  have h1 : ctxAt (putQ1 i (recordVa (ctxAt m i)) (stepRecord (ctxAt m i) mb) m) i = ctxAt m i :=
    ctxAt_congr (record_frame mb hst hok hread).1 i
  unfold quenchQ7
  dsimp only
  rw [if_neg (by simp [hst]), if_neg (by simp [hok]), hva, if_neg (by rw [h1]; simp [hst])]
  rfl

include hi

theorem ctxAt_stepRecorded : ctxAt (stepRecorded i mb m) i = stepDone (stepRecord (ctxAt m i) mb) (ctxAt m i) := by
  show ctxAt (modCtx i (stepDone (stepRecord (ctxAt m i) mb)) (putQ1 i (recordVa (ctxAt m i)) (stepRecord (ctxAt m i) mb) m)) i = _
  rw [ctxAt_modCtx_self _ _ _ hi, ctxAt_congr (record_frame mb hst hok hread).1]

/-- Whatever the quench's end begins, the context's job is that of the step done. -/
theorem jobOnly_quenchQ7 : JobOnly (stepDone (stepRecord (ctxAt m i) mb) (ctxAt m i)) (ctxAt (quenchQ7 i mb m) i) := by
  have hrec := ctxAt_stepRecorded mb hi hst hok hread
  have hrep := (JobKept.fastBegin i (stepRecorded i mb m)).trans (JobKept.startRepairs i _)
  have hr : (ctxAt (startRepairs i (fastBegin i (stepRecorded i mb m))) i).replay = 0 := by rw [hrep i, hrec]; rfl
  have h := (hrep.trans (JobKept.startPass hr)).trans (JobKept.of_faultPath (FaultPath.deviceAuto _))
  rw [quenchQ7_eq mb hst hok hread, ← hrec]
  exact h i

/-- R502, R503: the step number goes up by one with its complement, the record is kept, a step of the grant is used and the replay
count is 0. -/
theorem step_quenchQ7 :
    (ctxAt (quenchQ7 i mb m) i).step = ((ctxAt m i).step + 1) % 2 ^ 64 ∧
      (ctxAt (quenchQ7 i mb m) i).stepC = cpl 64 ((ctxAt m i).step + 1) ∧
      (ctxAt (quenchQ7 i mb m) i).lastRec = stepRecord (ctxAt m i) mb ∧ (ctxAt (quenchQ7 i mb m) i).replay = 0 ∧
      (ctxAt (quenchQ7 i mb m) i).grant = (ctxAt m i).grant - 1 := by
  rw [jobOnly_quenchQ7 mb hi hst hok hread]
  exact ⟨rfl, rfl, rfl, rfl, rfl⟩

/-- A context asked to hold begins no pass: it is HELD, where its fast checkpoint, if one is due, can be sent. -/
theorem held_quenchQ7 (hhold : (ctxAt m i).holdReq = true) (hrepairs : (ctxAt m i).repairs = [])
    (hfast : dlat m (ctxAt m i) 0x8100 0x0E = 0 ∨ routable m (fastPeer m) = true) : (ctxAt (quenchQ7 i mb m) i).st = .held := by
  have hrec := ctxAt_stepRecorded mb hi hst hok hread
  have hdict := stepRecorded_dict mb hst hok hread
  have hok' : stepPairOk (ctxAt (stepRecorded i mb m) i) = true := by rw [hrec]; exact stepPairOk_stepDone _ _
  have hcopy : CopySent i (stepRecorded i mb m) (fastBegin i (stepRecorded i mb m)) := by
    unfold fastBegin
    split
    · exact copySent_refl i _
    · rename_i hdue
      have hr : routable m (fastPeer m) = true := hfast.resolve_left (fun h0 => hdue (by
        simp [fastDue, hrec, dlat_congr hdict (stepDone _ (ctxAt m i)) (ctxAt m i) rfl, h0]))
      have hmark := copySent_modCkpt (fun c => { c.ckpt with fast := true, fastHalf := 1 - c.ckpt.fastHalf, fastStep := c.step })
        (stepRecorded i mb m) hi
      refine copySent_trans hmark (copySent_fastSend hi ?_ ?_)
      · exact (routable_fastPeer_congr (hmark.1.trans hdict)).trans hr
      · rw [hmark.2]
        exact hok'
  have hc : ctxAt (fastBegin i (stepRecorded i mb m)) i =
      { stepDone (stepRecord (ctxAt m i) mb) (ctxAt m i) with ckpt := (ctxAt (fastBegin i (stepRecorded i mb m)) i).ckpt } := by
    rw [hcopy.2, hrec]
  have hrepair : startRepairs i (fastBegin i (stepRecorded i mb m)) = fastBegin i (stepRecorded i mb m) :=
    startRepairs_nil (by rw [hc]; exact hrepairs)
  have hheld : (ctxAt (fastBegin i (stepRecorded i mb m)) i).st = .held := by
    rw [hc]
    exact if_pos hhold
  rw [quenchQ7_eq mb hst hok hread, ctxAt_congr (deviceAuto_ctxs _), hrepair, startPass_held hheld]
  exact hheld

end EndOfQuench

/-- Settles O51: a quench waits for its plan in stage 0; from stage 3 it ends, and what begins after it keeps the job of the step done. -/
theorem quenchEndsTheStep : Obligations.QuenchEndsTheStep := by
  unfold Obligations.QuenchEndsTheStep
  refine ⟨?_, ?_, ?_⟩
  · intro s i h
    show Host.Outcome.next (onM (quenchRun i) s) = .next s
    rw [onM, quenchRun_idle h]
  · intro s i hi hst hc hq hmissing
    have hstage := stageQ1_missing hmissing
    refine ⟨fun hw => ?_, fun hw => ?_⟩
    · rw [hw] at hstage
      have hrun : quenchRun i s.m = s.m :=
        (quenchRun_stage0 hst hc hq (by rw [hstage]; exact hq)).trans hstage
      show Host.Outcome.next (onM (quenchRun i) s) = .next s
      rw [onM, hrun]
    · rw [hw] at hstage
      have hq1 : (ctxAt (stageQ1 i s.m) i).pass.quench = 0 := by
        rw [hstage, if_neg Bool.false_ne_true, ctxAt_congr (count_ctxs _ _ _), ctxAt_modPass_self _ _ _ hi]
        exact hq
      show Host.Outcome.next (onM (quenchRun i) s) = _
      rw [onM, (quenchRun_stage0 hst hc hq hq1).trans hstage]
      rfl
  · intro s i hi hst hc hq hwrites m6 c6 hst6 hok hread
    have hrun : quenchRun i s.m = quenchQ7 i (ctxAt s.m i).mb m6 := by
      rw [quenchRun_stage3 hst hc hq, stageQ7, if_neg (by simp [hwrites])]
    obtain ⟨hstep, hcpl, hrec, hreplay, hgrant⟩ := step_quenchQ7 (ctxAt s.m i).mb hi hst6 hok hread
    refine ⟨onM (quenchRun i) s, rfl, ?_⟩
    simp only [onM, hrun]
    exact ⟨hstep, hcpl, hrec, hreplay, hgrant, held_quenchQ7 _ hi hst6 hok hread⟩

end Sys2Proof.Proofs

namespace Sys2Proof.Proofs

open Sys2Proof.Machine Sys2Proof.Laws

/-! ### Elements that an update was meant for -/

/-- An element that passes the test of an update has been updated. -/
theorem of_mem_map_ite {α : Type} {p : α → Bool} {f : α → α} {l : List α} {x : α} (hx : x ∈ l.map (fun y => if p y then f y else y))
    (hp : p x = true) : ∃ y ∈ l, x = f y := by
  obtain ⟨y, hy, rfl⟩ := List.mem_map.mp hx
  by_cases h : p y = true
  · exact ⟨y, hy, if_pos h⟩
  · rw [if_neg h] at hp
    exact absurd hp h

theorem mem_dedupKeep {α : Type} [BEq α] [LawfulBEq α] {l : List α} {x : α} (h : x ∈ l) : x ∈ dedupKeep l := by
  have key (acc : List α) (hx : x ∈ acc ∨ x ∈ l) :
      x ∈ l.foldl (fun acc y => if acc.contains y then acc else acc ++ [y]) acc := by
    clear h
    induction l generalizing acc with
    | nil => simpa using hx
    | cons y r ih =>
      refine ih _ ?_
      dsimp only
      split
      · rename_i hc
        rcases hx with hx | hx
        · exact Or.inl hx
        · exact (List.mem_cons.mp hx).imp (fun (e : x = y) => e ▸ List.contains_iff_mem.mp hc) id
      · rcases hx with hx | hx
        · exact Or.inl (List.mem_append_left _ hx)
        · exact (List.mem_cons.mp hx).imp (fun e => by simp [e]) id
  exact key [] (Or.inr h)

/-! ### A page's migration copy (02 R70, R71) -/

theorem migrationCopied_waits {vpn : Nat} {m : Mach} {g : Mig} (hg : m.mem.migs.find? (fun g => g.vpn == vpn && !g.copied) = some g)
    (hd : copyDone g = false) : migrationCopied vpn m = m := by
  unfold migrationCopied
  rw [hg]
  exact if_pos (by simp [hd])

/-- R70: the octets of a copy that is done stand at its destination, and the migration waits for the quench. -/
def copyLanded (g : Mig) (vpn : Nat) (x : Mem) : Mem :=
  { x with
    phys := cellsCopy x.phys (placeOf g.srcTier g.srcFrame 0) (placeOf g.dstTier g.dstFrame 0) (2 ^ 21)
    touched := dedupKeep ((if g.srcTier == 0 then [g.srcFrame] else []) ++ (if g.dstTier == 0 then [g.dstFrame] else []) ++ x.touched)
    migs := x.migs.map (fun y => if y.vpn == vpn then { y with copied := true } else y) }

theorem migrationCopied_done {vpn : Nat} {m : Mach} {g : Mig} (hg : m.mem.migs.find? (fun g => g.vpn == vpn && !g.copied) = some g)
    (hd : copyDone g = true) : migrationCopied vpn m = onMem (copyLanded g vpn) m := by
  unfold migrationCopied
  rw [hg]
  exact if_neg (by simp [hd])

theorem srcFrame_mem_copyLanded {g : Mig} (vpn : Nat) (x : Mem) (h : g.srcTier = 0) : g.srcFrame ∈ (copyLanded g vpn x).touched :=
  mem_dedupKeep (by simp [h])

theorem dstFrame_mem_copyLanded {g : Mig} (vpn : Nat) (x : Mem) (h : g.dstTier = 0) : g.dstFrame ∈ (copyLanded g vpn x).touched :=
  mem_dedupKeep (by simp [h])

theorem copied_of_mem_copyLanded {g y : Mig} {vpn : Nat} {x : Mem} (hy : y ∈ (copyLanded g vpn x).migs) (hv : y.vpn = vpn) :
    y.copied = true := by
  obtain ⟨z, -, rfl⟩ := of_mem_map_ite hy (by simp [hv])
  rfl

/-- Blocks that were written before stay dirty (R71). -/
theorem dirty_copyLanded (g : Mig) (vpn : Nat) (x : Mem) : (copyLanded g vpn x).migs.map Mig.dirty = x.migs.map Mig.dirty := by
  simp only [copyLanded, List.map_map]
  refine List.map_congr_left (fun y _ => ?_)
  simp only [Function.comp_apply]
  split <;> rfl

/-! ### Lower-tier writes (02 R60, R75, 15 R520) -/

/-- A lower-tier write leaves the list of those outstanding. -/
def dropWrite (id : Nat) (m : Mach) : Mach := onMem (fun x => { x with writes := x.writes.filter (fun y => y.id != id) }) m

/-- Where no READ waits, the end of a write is the write's own end (15 R516). -/
theorem tierWriteEnds_of_none_held {id : Nat} {err : Bool} {m : Mach} (h : (tierWritten id err m).mem.heldReads = []) :
    tierWriteEnds id err m = tierWritten id err m := by
  have hsame : onMem (fun x => { x with heldReads := [] }) (tierWritten id err m) = tierWritten id err m := by
    rw [onMem, ← h]
  unfold tierWriteEnds
  dsimp only
  rw [h, hsame]
  rfl

section TierWrite

variable {id : Nat} {m : Mach} {w : TierWrite} (hw : m.mem.writes.find? (fun x => x.id == id) = some w) (hc : writeCurrent m w = true)

include hw hc

/-- R59: the end of a copy's own write is noted in the copy. -/
theorem tierWritten_copy {v : Nat} (err : Bool) (hv : w.mig = some v) :
    tierWritten id err m =
      modMig v (fun g => if err then { g with begun := false } else { g with stored := true }) (dropWrite id m) := by
  unfold tierWritten
  rw [hw]
  simp only [hc, hv, Bool.not_true, Bool.false_eq_true, if_false]
  rfl

/-- R75, R520: the end of another write; one that failed ends the step of its context for good. -/
theorem tierWritten_own (err : Bool) (hv : w.mig = none) :
    tierWritten id err m = if err then failCtx w.ctx 0x0705 0x06 255 0 2 (dropWrite id m) else dropWrite id m := by
  unfold tierWritten
  rw [hw]
  simp only [hc, hv, Bool.not_true, Bool.false_eq_true, if_false]
  rfl

theorem mem_tierWritten_own (err : Bool) (hv : w.mig = none) : (tierWritten id err m).mem = (dropWrite id m).mem := by
  rw [tierWritten_own hw hc err hv]
  split
  · exact (FaultPath.failCtx _ _ _ _ _ _ _).mem
  · rfl

variable (hheld : m.mem.heldReads = [])

include hheld

theorem tierWriteEnds_copy {v : Nat} (err : Bool) (hv : w.mig = some v) :
    tierWriteEnds id err m =
      modMig v (fun g => if err then { g with begun := false } else { g with stored := true }) (dropWrite id m) := by
  have h := tierWritten_copy hw hc err hv
  rw [tierWriteEnds_of_none_held (by rw [h]; exact hheld), h]

theorem tierWriteEnds_own (err : Bool) (hv : w.mig = none) :
    tierWriteEnds id err m = if err then failCtx w.ctx 0x0705 0x06 255 0 2 (dropWrite id m) else dropWrite id m := by
  rw [tierWriteEnds_of_none_held (by rw [mem_tierWritten_own hw hc err hv]; exact hheld), tierWritten_own hw hc err hv]

end TierWrite

/-! ### A region that becomes unreachable (02 R75, 17 R572, R580) -/

/-- An abort of one context's pass leaves the others as they are. -/
theorem ctxAt_abortPass_ne {i j : Nat} (cause : Nat) (own : Bool) (m : Mach) (h : j ≠ i) :
    ctxAt (abortPass j cause own m) i = ctxAt m i := by
  have hmark (f : Pass → Pass) (x : Mach) : ctxAt (modPass j f x) i = ctxAt x i := ctxAt_modCtx_ne x j i _ h
  have hsend (x : Mach) : ctxAt (sendAbort j cause x) i = ctxAt x i := by
    unfold sendAbort
    dsimp only
    split
    · rfl
    · rw [ctxAt_congr (countN_ctxs _ _ _ _), ctxAt_congr (sendCtrl_ctxs _ _ _ _ _), hmark]
  unfold abortPass
  dsimp only
  split
  · rfl
  · split
    · rw [hsend, hmark, ctxAt_waitEnds]
    · rw [hmark, ctxAt_waitEnds]

theorem ctxAt_ctxClassed_ne {i j : Nat} (code : Nat) (m : Mach) (h : j ≠ i) : ctxAt (ctxClassed code j m) i = ctxAt m i := by
  unfold ctxClassed
  dsimp only
  split
  · rw [ctxAt_abortPass_ne _ _ _ h]
    exact ctxAt_modCtx_ne m j i _ h
  · exact ctxAt_modCtx_ne m j i _ h

theorem beforeReady_congr {a b : Mach} {i : Nat} (hc : ctxAt b i = ctxAt a i) (h : beforeReady a i) : beforeReady b i := by
  unfold beforeReady
  rw [hc]
  exact h

/-- R23, R499: an error of the device aborts the pass of a context before commit, which keeps the code. -/
theorem ctxAt_ctxClassed {i : Nat} {m : Mach} (code : Nat) (h : beforeReady m i) :
    ctxAt (ctxClassed code i m) i = { ctxAt m i with pass := abortedPass 1 true (keepError code (ctxAt m i).pass) } := by
  obtain ⟨hi, hp, hr, hc⟩ := h
  obtain ⟨hst, -, -⟩ := (inPass_iff _).mp hp
  have hkeep : ctxAt (modPass i (keepError code) m) i = { ctxAt m i with pass := keepError code (ctxAt m i).pass } :=
    ctxAt_modPass_self m i _ hi
  have ha : Abortable true (ctxAt (modPass i (keepError code) m) i) := by
    rw [hkeep]
    exact ⟨hst, hc, hr⟩
  have hcl : ctxClassed code i m = abortPass i 1 true (modPass i (keepError code) m) :=
    if_pos (by simp [hst, hr, afterCommit])
  rw [hcl, ctxAt_abortPass 1 hi ha, hkeep]

/-- Where each operation of a list is a matter of its own context, a context sees its own alone. -/
theorem ctxAt_foldl_own {f : Mach → Nat → Mach} (hf : ∀ x j i, j ≠ i → ctxAt (f x j) i = ctxAt x i) {l : List Nat} (hl : l.Nodup)
    {i : Nat} (hi : i ∈ l) (m : Mach) : ∃ x, ctxAt x i = ctxAt m i ∧ ctxAt (l.foldl f m) i = ctxAt (f x i) i := by
  have skip (l : List Nat) (hn : i ∉ l) (m : Mach) : ctxAt (l.foldl f m) i = ctxAt m i := by
    induction l generalizing m with
    | nil => rfl
    | cons j r ih =>
      obtain ⟨hj, hr⟩ := not_or.mp (mt List.mem_cons.mpr hn)
      exact (ih hr _).trans (hf m j i (Ne.symm hj))
  induction l generalizing m with
  | nil => cases hi
  | cons j r ih =>
    obtain ⟨hj, hr⟩ := List.nodup_cons.mp hl
    rcases List.mem_cons.mp hi with rfl | hir
    · exact ⟨m, rfl, skip r hj _⟩
    · obtain ⟨x, hx, he⟩ := ih hr hir (f m j)
      exact ⟨x, hx.trans (hf m j i (fun e => hj (e ▸ hir))), he⟩

/-- R580: an error of the device acts on each context before commit. -/
theorem ctxAt_allRunning_classed {i : Nat} {m : Mach} (code : Nat) (h : beforeReady m i) :
    ctxAt (allRunning (ctxClassed code) m) i = { ctxAt m i with pass := abortedPass 1 true (keepError code (ctxAt m i).pass) } := by
  have hown (x : Mach) (j k : Nat) (hjk : j ≠ k) : ctxAt (if (ctxAt x j).st == .run then ctxClassed code j x else x) k = ctxAt x k := by
    split
    · exact ctxAt_ctxClassed_ne code x hjk
    · rfl
  obtain ⟨x, hx, he⟩ := ctxAt_foldl_own hown List.nodup_range (List.mem_range.mpr h.1) m
  have hrun : (ctxAt x i).st = .run := by
    rw [hx]
    exact ((inPass_iff _).mp h.2.1).1
  exact he.trans (by rw [if_pos (by simp [hrun]), ctxAt_ctxClassed code (beforeReady_congr hx h), hx])

theorem FaultPath.allRunning_classed (code : Nat) (m : Mach) : FaultPath m (allRunning (Machine.ctxClassed code) m) :=
  FaultPath.foldl _ _ m (fun x i => by
    split
    · exact FaultPath.ctxClassed code i x
    · exact FaultPath.refl x)

theorem regionLost_again {k : Nat} {m : Mach} (h : m.mem.lostRegions.contains k = true) : regionLost k m = m := if_pos h

theorem regionLost_first {k : Nat} {m : Mach} (h : m.mem.lostRegions.contains k = false) (hk : (regionAt m k).kind ≠ 0) :
    regionLost k m = allRunning (ctxClassed 0x0706) (onMem (loseRegions [k]) (raiseDev 0x0706 m)) := by
  unfold regionLost regionDown
  rw [if_neg (by rw [h]; exact Bool.false_ne_true), if_neg (by simpa using hk)]

theorem lostRegions_loseRegions {k : Nat} {x : Mem} (h : x.lostRegions.contains k = false) :
    (loseRegions [k] x).lostRegions = x.lostRegions ++ [k] := by
  simpa [loseRegions] using h

theorem lost_of_mem_loseRegions {k : Nat} {x : Mem} {r : TierRead} (hr : r ∈ (loseRegions [k] x).reads) (hk : r.region = k) :
    r.lost = true := by
  obtain ⟨y, -, rfl⟩ := of_mem_map_ite hr (by simp [hk])
  rfl

/-- Settles O42: copies and writes by the equations of their two cases; a lost region by its effect on each context alone. -/
theorem tierEventsAct : Obligations.TierEventsAct := by
  unfold Obligations.TierEventsAct
  refine ⟨?_, ?_, ?_, ?_⟩
  · intro s vpn g hg
    refine ⟨fun hd => ?_, fun hd => ⟨onM (migrationCopied vpn) s, rfl, ?_⟩⟩
    · show Host.Outcome.next (onM (migrationCopied vpn) s) = .next s
      rw [onM, migrationCopied_waits hg hd]
    · simp only [onM, migrationCopied_done hg hd, onMem_mem, onMem_ctxs]
      exact ⟨rfl, srcFrame_mem_copyLanded vpn _, dstFrame_mem_copyLanded vpn _, fun _ => copied_of_mem_copyLanded,
        dirty_copyLanded g vpn _, rfl, trivial⟩
  · intro s id w hw hc hheld rest
    refine ⟨fun hv => ?_, fun v hv => ⟨?_, ?_⟩, fun hv hi hh hf => ⟨onM (tierWriteEnds id true) s, rfl, ?_⟩⟩
    · show Host.Outcome.next (onM (tierWriteEnds id false) s) = _
      rw [onM, tierWriteEnds_own hw hc hheld false hv]
      rfl
    · show Host.Outcome.next (onM (tierWriteEnds id false) s) = _
      rw [onM, tierWriteEnds_copy hw hc hheld false hv]
      rfl
    · show Host.Outcome.next (onM (tierWriteEnds id true) s) = _
      rw [onM, tierWriteEnds_copy hw hc hheld true hv]
      rfl
    · have hmem := (FaultPath.failCtx w.ctx 0x0705 0x06 255 0 2 (dropWrite id s.m)).mem
      simp only [onM, tierWriteEnds_own hw hc hheld true hv, if_true, hmem]
      exact ⟨failedWith_failCtx 255 0 2 hi hh hf (by decide) (by decide), rfl, rfl⟩
  · intro s k h
    show Host.Outcome.next (onM (regionLost k) s) = .next s
    rw [onM, regionLost_again h]
  · intro s k h hk hn
    have hp := FaultPath.allRunning_classed 0x0706 (onMem (loseRegions [k]) (raiseDev 0x0706 s.m))
    have hmem : (allRunning (ctxClassed 0x0706) (onMem (loseRegions [k]) (raiseDev 0x0706 s.m))).mem = loseRegions [k] s.m.mem := by
      rw [hp.mem, onMem_mem, raiseDev_mem]
    refine ⟨onM (regionLost k) s, rfl, ?_⟩
    simp only [onM, regionLost_first h hk, hmem]
    refine ⟨lostRegions_loseRegions h, hp.raised 0x0706 (by decide) ?_, rfl, fun _ => lost_of_mem_loseRegions, fun i hi => ?_⟩
    · exact raisedCode_notifyCode 0xFF 0 (by decide) hn
    · have hctx : ctxAt (onMem (loseRegions [k]) (raiseDev 0x0706 s.m)) i = ctxAt s.m i := ctxAt_congr (raiseDev_ctxs 0x0706 s.m) i
      rw [ctxAt_allRunning_classed 0x0706 (beforeReady_congr hctx hi)]
      exact ⟨abortedPass_aborted _ _ _, abortedPass_errCode _ _ _⟩

end Sys2Proof.Proofs

namespace Sys2Proof.Proofs

open Sys2Proof.Machine Sys2Proof.Laws

/-! ### Operations that run on a gather/scatter engine -/

theorem runningOp_congr {a b : Mach} (h : b.engines = a.engines) (e id : Nat) : runningOp b e id = runningOp a e id := by
  simp only [runningOp, engAt, h]

/-- An operation that replaces a running one of its number runs in its place. -/
theorem runningOp_putOp {e id : Nat} {o o' : GsOp} {m : Mach} (h : runningOp m e id = some o) (hid : o'.id = o.id) :
    runningOp (putOp e o' m) e id = some o' := by
  have ho : o.id = id := by simpa using List.find?_some h
  have heng : engAt (putOp e o' m) e =
      { engAt m e with running := (engAt m e).running.map (fun y => if y.id == o'.id then o' else y) } := smap_get_put_self _ _ _ _
  unfold runningOp at h ⊢
  rw [heng]
  generalize (engAt m e).running = l at h
  induction l with
  | nil => cases h
  | cons y r ih =>
    by_cases hy : y.id = id
    · simp [hy, hid, ho]
    · rw [List.find?_cons_of_neg (by simpa using hy)] at h
      rw [List.map_cons, if_neg (by simpa [hid, ho] using hy), List.find?_cons_of_neg (by simpa using hy)]
      exact ih h

@[simp] theorem putOp_ctxs (e : Nat) (o : GsOp) (m : Mach) : (putOp e o m).ctxs = m.ctxs := rfl
@[simp] theorem putOp_mem (e : Nat) (o : GsOp) (m : Mach) : (putOp e o m).mem = m.mem := rfl

/-! ### Counters -/

theorem countedOnce_of_counterOf_eq {index sub : Nat} {a b : Mach} (h : counterOf b index sub = counterOf a index sub) :
    countedOnce index sub a (count index sub b) := by
  unfold countedOnce
  rw [← h]
  exact countedOnce_count index sub b

theorem counterOf_congr {a b : Mach} (h : b.cnt = a.cnt) (index sub : Nat) : counterOf b index sub = counterOf a index sub := by
  simp only [counterOf, h]

theorem counterOf_count_ne {index sub i k : Nat} (m : Mach) (h : dkey index sub ≠ dkey i k) :
    counterOf (count i k m) index sub = counterOf m index sub := smap_get_put_ne m.cnt _ _ _ 0 h

theorem countedOnce_putOp {index sub e : Nat} {o : GsOp} {a b : Mach} (hc : countedOnce index sub a b) :
    countedOnce index sub a (putOp e o b) := hc

theorem countedOnce_count_ne {index sub i k : Nat} {a b : Mach} (hc : countedOnce index sub a b) (h : dkey index sub ≠ dkey i k) :
    countedOnce index sub a (count i k b) := (counterOf_count_ne b h).trans hc

/-- Accesses count the misses of a translation cache alone (02 R54). -/
theorem counterOf_accessAll {index sub : Nat} (x : Nat) (spans : List (Nat × Nat)) (m : Mach) (h : dkey index sub ≠ dkey 0x6700 0x0B) :
    counterOf (accessAll x spans m) index sub = counterOf m index sub := by
  have one (p : Nat) (y : Mach) : counterOf (xlateOne x p y) index sub = counterOf y index sub := by
    unfold xlateOne
    dsimp only
    split
    · rfl
    · split <;> exact counterOf_count_ne _ h
  exact foldl_keeps (fun y => counterOf y index sub = counterOf m index sub) _ spans m rfl (fun y s hy =>
    foldl_keeps (fun z => counterOf z index sub = counterOf m index sub) _ _ y hy (fun z p hz => (one p z).trans hz))

/-! ### Answers of lower tiers (02 R45, R59, R60) -/

/-- R60: an answer of the present pass goes to what waits for it, with the octets of its page (R45). -/
theorem tierResponse_current {id : Nat} {m : Mach} {r : TierRead} (hr : readById m id = some r) (hl : r.lost = false)
    (hc : readCurrent m r = true) (hs : r.substituted = false) :
    tierResponse id false m = readArrived r (vget m.mem r.va r.len) (dropRead id m) := by
  unfold tierResponse
  rw [hr]
  simp only [hl, hc, hs, Bool.not_true, Bool.or_false, Bool.false_eq_true, if_false]

/-- R60, R62: another answer is dropped and counted, whether it carries poison or not. -/
theorem tierResponse_stale {id : Nat} {m : Mach} {r : TierRead} (poison : Bool) (hr : readById m id = some r) (hl : r.lost = false)
    (hc : readCurrent m r = false ∨ r.substituted = true) :
    tierResponse id poison m = entryFreed r (count 0x6700 0x06 (dropRead id m)) := by
  unfold tierResponse
  rw [hr]
  dsimp only
  rw [if_neg (by simp [hl]), if_pos (by simpa using hc)]

theorem readArrived_xfer {k : Nat} {r : TierRead} (bs : List Byte) (m : Mach) (hw : r.who = .xfer k) :
    readArrived r bs m = modCore k (fun c => { c with queue := xferGot r.va bs c.queue }) m := by
  unfold readArrived
  rw [hw]

theorem readArrived_item {e op n : Nat} {r : TierRead} {o : GsOp} {src : GsSrc} {re : Bool} {row : GsRow} (bs : List Byte) {m : Mach}
    (hw : r.who = .item e op n) (ho : runningOp m e op = some o) (hsrc : opSource m o = .ok (src, re)) (hrow : o.rows[n]? = some row) :
    readArrived r bs m =
      advanceEngine e (putOp e { o with rows := o.rows.set n (finishRow r.ctx src (rowFound (rowGot r.va bs row)) m).1 }
        (finishRow r.ctx src (rowFound (rowGot r.va bs row)) m).2) := by
  unfold readArrived
  rw [hw]
  simp only [ho, hsrc, hrow]

/-- The completion of a row leaves every engine as it is. -/
theorem finishRow_engines (i : Nat) (s : GsSrc) (row : GsRow) (m : Mach) : (finishRow i s row m).2.engines = m.engines := by
  have hfill (d key : Nat) (bs : List Byte) : (calderaFill d key bs m).engines = m.engines := by
    unfold calderaFill
    dsimp only
    split
    · rfl
    · exact (apply_ite Mach.engines _ _ _).trans (ite_self _)
  unfold finishRow
  split
  · dsimp only
    split
    · split
      · exact hfill _ _ _
      · rfl
    · rfl
  · rfl

/-! ### Deadlines of lower-tier reads (02 R61, R667) -/

/-- A read that has reached its deadline is noted, and its row is not offered to the caldera (R61, R199). -/
def missNoted (id dl : Nat) (r : TierRead) (m : Mach) : Mach :=
  noOffer r (modRead id (fun x => { x with missed := true }) (timeTo dl m))

/-- R667: each read of a row counts its own miss, by its tier. -/
def missCounted (id dl : Nat) (r : TierRead) (m : Mach) : Mach :=
  count 0x6700 (if r.tier == 1 then 0x01 else 0x02) (missNoted id dl r m)

/-- R61: the row of a read stalls. -/
def rowStalled (r : TierRead) (m : Mach) : Mach := count 0x6700 0x03 (modRowReads r.who (fun x => { x with stalled := true }) m)

/-- R61: the miss is counted, and the key's ash row is accessed for what waits for the read. -/
def ashAccessed (id dl d key : Nat) (r : TierRead) (m : Mach) : Mach :=
  accessAll (waiterXl r.who) (ashSpans m d key) (missCounted id dl r m)

section DeadlineMiss

variable {id dl : Nat} {m : Mach} {r : TierRead} (hr : readById m id = some r) (hd : r.deadline = some dl) (hm : r.missed = false)
  (hc : readCurrent m r = true) (hp : inPass (ctxAt m r.ctx) = true) (hs : r.substituted = false)

include hr hd hm hc hp hs

theorem deadlineMiss_strict (hst : r.stalled = false) (hstrict : (ctxAt m r.ctx).pass.strict = true) :
    deadlineMiss id m = rowStalled r (missCounted id dl r m) := by
  unfold deadlineMiss
  rw [hr]
  simp only [hd, hm, hc, hp, hs, hst, hstrict, Bool.not_true, Bool.or_false, Bool.false_eq_true, if_false, if_true]
  rfl

theorem deadlineMiss_ash {d key : Nat} (hstrict : (ctxAt m r.ctx).pass.strict = false) (ht : readTable m r = some (d, key))
    (ha : tdAsh d ≠ 0) :
    deadlineMiss id m = substitute r (ashRow m d key) (ashAccessed id dl d key r m) := by
  have ha' : (tdAsh d == 0) = false := by simpa using ha
  unfold deadlineMiss
  rw [hr]
  simp only [hd, hm, hc, hp, hs, hstrict, ht, ha', Bool.not_true, Bool.or_false, Bool.false_eq_true, if_false]
  rfl

end DeadlineMiss

/-- Nothing but engines and rows that are served differ when a row is no longer offered. -/
theorem noOffer_frame (r : TierRead) (m : Mach) :
    noOffer r m = { m with engines := (noOffer r m).engines, served := (noOffer r m).served } := by
  unfold noOffer
  split
  · split <;> rfl
  · rfl
  · rfl

section MissCounted

variable (id dl : Nat) (r : TierRead) (m : Mach)

theorem missNoted_frame :
    missNoted id dl r m = { modRead id (fun x => { x with missed := true }) (timeTo dl m) with
      engines := (missNoted id dl r m).engines, served := (missNoted id dl r m).served } := noOffer_frame r _

@[simp] theorem missCounted_time10 : (missCounted id dl r m).dev.time10 = max m.dev.time10 dl := by
  show (missNoted id dl r m).dev.time10 = _
  rw [missNoted_frame]
  rfl

@[simp] theorem missCounted_phys : (missCounted id dl r m).mem.phys = m.mem.phys := by
  show (missNoted id dl r m).mem.phys = _
  rw [missNoted_frame]
  rfl

@[simp] theorem missCounted_ctxs : (missCounted id dl r m).ctxs = m.ctxs := by
  show (missNoted id dl r m).ctxs = _
  rw [missNoted_frame]
  rfl

theorem missNoted_cnt : (missNoted id dl r m).cnt = m.cnt := by
  rw [missNoted_frame]
  rfl

end MissCounted

theorem countedOnce_missCounted (id dl : Nat) (r : TierRead) (m : Mach) :
    countedOnce 0x6700 (if r.tier = 1 then 0x01 else 0x02) m (missCounted id dl r m) := by
  unfold missCounted
  simp only [beq_iff_eq]
  exact countedOnce_of_counterOf_eq (counterOf_congr (missNoted_cnt id dl r m) _ _)

/-- A miss is counted by its tier alone. -/
theorem counterOf_missCounted_ne {index sub : Nat} (id dl : Nat) (r : TierRead) (m : Mach) (h1 : dkey index sub ≠ dkey 0x6700 0x01)
    (h2 : dkey index sub ≠ dkey 0x6700 0x02) : counterOf (missCounted id dl r m) index sub = counterOf m index sub := by
  have hne : dkey index sub ≠ dkey 0x6700 (if r.tier == 1 then 0x01 else 0x02) := by
    split
    · exact h1
    · exact h2
  exact (counterOf_count_ne _ hne).trans (counterOf_congr (missNoted_cnt id dl r m) _ _)

/-- R667: all reads of the row are marked. -/
theorem of_mem_modRowReads {who : Waiter} {f : TierRead → TierRead} {m : Mach} {x : TierRead}
    (hx : x ∈ (modRowReads who f m).mem.reads) (hw : x.who = who) : ∃ y, x = f y := by
  obtain ⟨y, -, h⟩ := of_mem_map_ite hx (by simp [hw])
  exact ⟨y, h⟩

theorem stalled_of_mem_rowStalled {r x : TierRead} {m : Mach} (hx : x ∈ (rowStalled r m).mem.reads) (hw : x.who = r.who) :
    x.stalled = true := by
  obtain ⟨y, rfl⟩ := of_mem_modRowReads hx hw
  rfl

/-! ### Ash rows (02 R61, R62) -/

/-- What an update made of an element is gone once the element is replaced. -/
theorem set_modify_same {α : Type} (l : List α) (n : Nat) (f : α → α) (x : α) : (l.modify n f).set n x = l.set n x := by
  induction l generalizing n with
  | nil => cases n <;> rfl
  | cons y r ih =>
    cases n with
    | zero => rfl
    | succ n => exact congrArg (List.cons y) (ih n)

/-- R61: the row with an ash row in its place. -/
def withAsh (vals : List Nat) (x : GsRow) : GsRow := { x with vals := some vals, ash := true, need := 0, got := [], offer := false }

/-- R62, R667: a substitution marks the row's reads, is counted, and makes the pass non-strict. -/
def substituted (r : TierRead) (m : Mach) : Mach :=
  modPass r.ctx (fun p => { p with nonStrict := true, ashSubs := p.ashSubs + 1 })
    (count 0x6500 0x01 (count 0x6500 0x03 (modRowReads r.who (fun x => { x with substituted := true }) m)))

theorem runningOp_substituted (r : TierRead) (m : Mach) (e id : Nat) : runningOp (substituted r m) e id = runningOp m e id := rfl

theorem substitute_item {e op n : Nat} {r : TierRead} (vals : List Nat) {m : Mach} {o : GsOp} {x : GsRow} (hw : r.who = .item e op n)
    (ho : runningOp m e op = some o) (hx : o.rows[n]? = some x) :
    substitute r vals m = putOp e { o with rows := o.rows.set n (withAsh vals x) } (substituted r m) := by
  have ho' : runningOp (substituted r m) e op = some o := (runningOp_substituted r m e op).trans ho
  unfold substitute
  rw [hw]
  unfold substituted at ho' ⊢
  rw [hw] at ho' ⊢
  simp only [ho', hx]
  rfl

theorem substituted_phys (r : TierRead) (m : Mach) : (substituted r m).mem.phys = m.mem.phys := rfl

theorem substituted_of_mem {r x : TierRead} {m : Mach} (hx : x ∈ (substituted r m).mem.reads) (hw : x.who = r.who) :
    x.substituted = true := by
  obtain ⟨y, rfl⟩ := of_mem_modRowReads hx hw
  rfl

theorem ctxAt_substituted {r : TierRead} (m : Mach) (hi : r.ctx < 16) :
    ctxAt (substituted r m) r.ctx = { ctxAt m r.ctx with
      pass := { (ctxAt m r.ctx).pass with nonStrict := true, ashSubs := (ctxAt m r.ctx).pass.ashSubs + 1 } } :=
  ctxAt_modPass_self _ _ _ hi

theorem countedOnce_substituted {r : TierRead} {a m : Mach} (h : counterOf m 0x6500 0x03 = counterOf a 0x6500 0x03) :
    countedOnce 0x6500 0x03 a (substituted r m) :=
  countedOnce_count_ne (countedOnce_of_counterOf_eq h) (by decide)

/-- A row no longer offered in an operation that runs. -/
theorem runningOp_missCounted {id dl e op n : Nat} {r : TierRead} {m : Mach} {o : GsOp} (hw : r.who = .item e op n)
    (ho : runningOp m e op = some o) :
    runningOp (missCounted id dl r m) e op = some { o with rows := o.rows.modify n (fun x => { x with offer := false }) } := by
  have ho' : runningOp (modRead id (fun x => { x with missed := true }) (timeTo dl m)) e op = some o := ho
  have hnoted : missNoted id dl r m = putOp e { o with rows := o.rows.modify n (fun x => { x with offer := false }) }
      (modRead id (fun x => { x with missed := true }) (timeTo dl m)) := by
    unfold missNoted noOffer
    rw [hw]
    simp only [ho']
  rw [runningOp_congr (b := missCounted id dl r m) (a := missNoted id dl r m) rfl, hnoted]
  exact runningOp_putOp ho' rfl

section AshAccessed

variable (id dl d key : Nat) (r : TierRead) (m : Mach)

theorem accessed_ashAccessed : Accessed (missCounted id dl r m) (ashAccessed id dl d key r m) := accessed_accessAll _ _ _

theorem ashAccessed_phys : (ashAccessed id dl d key r m).mem.phys = m.mem.phys := by
  rw [accessed_ashAccessed, missCounted_phys]

theorem ctxAt_ashAccessed (i : Nat) : ctxAt (ashAccessed id dl d key r m) i = ctxAt m i :=
  ctxAt_congr (by rw [accessed_ashAccessed, missCounted_ctxs]) i

theorem ashAccessed_engines : (ashAccessed id dl d key r m).engines = (missCounted id dl r m).engines := by
  rw [accessed_ashAccessed]

theorem counterOf_ashAccessed : counterOf (ashAccessed id dl d key r m) 0x6500 0x03 = counterOf m 0x6500 0x03 :=
  (counterOf_accessAll _ _ _ (by decide)).trans (counterOf_missCounted_ne id dl r m (by decide) (by decide))

end AshAccessed

section AshInPlace

variable (id dl d key : Nat) {e op n : Nat} {r : TierRead} {m : Mach} {o : GsOp} {row : GsRow} (vals : List Nat)
  (hw : r.who = .item e op n) (ho : runningOp m e op = some o)

include hw ho

theorem runningOp_ashAccessed :
    runningOp (ashAccessed id dl d key r m) e op = some { o with rows := o.rows.modify n (fun x => { x with offer := false }) } :=
  (runningOp_congr (ashAccessed_engines id dl d key r m) e op).trans (runningOp_missCounted hw ho)

variable (hrow : o.rows[n]? = some row)

include hrow

/-- R61, R667: the ash row takes the place of the row as it was before the miss. -/
theorem substitute_ashAccessed :
    substitute r vals (ashAccessed id dl d key r m) =
      putOp e { o with rows := o.rows.set n (withAsh vals row) } (substituted r (ashAccessed id dl d key r m)) := by
  have hx : (o.rows.modify n (fun x => { x with offer := false }))[n]? = some { row with offer := false } := by simp [hrow]
  have hset : (o.rows.modify n (fun x => { x with offer := false })).set n (withAsh vals { row with offer := false }) =
      o.rows.set n (withAsh vals row) := set_modify_same o.rows n _ _
  rw [substitute_item vals hw (runningOp_ashAccessed id dl d key hw ho) hx, hset]

theorem runningOp_substitute_ashAccessed :
    runningOp (substitute r vals (ashAccessed id dl d key r m)) e op = some { o with rows := o.rows.set n (withAsh vals row) } := by
  have hrun := (runningOp_substituted r (ashAccessed id dl d key r m) e op).trans (runningOp_ashAccessed id dl d key hw ho)
  rw [substitute_ashAccessed id dl d key vals hw ho hrow]
  exact runningOp_putOp hrun rfl

end AshInPlace

/-- Settles O40: an answer by what waits for it; a miss by the row's stall, or by its ash row, after the miss is noted and counted. -/
theorem tierReadsAnswered : Obligations.TierReadsAnswered := by
  unfold Obligations.TierReadsAnswered
  refine ⟨?_, ?_, ?_, ?_, ?_⟩
  · intro s id k data r hr hl hc hs hw
    refine ⟨onM (tierResponse id false) s, rfl, ?_⟩
    simp only [onM, tierResponse_current hr hl hc hs, readArrived_xfer _ _ hw, coreAt_modCore_self]
    exact ⟨rfl, rfl, rfl⟩
  · intro s id e op n data r o src re row hr hl hc hs hw ho hsrc hrow
    have ho' : runningOp (dropRead id s.m) e op = some o := ho
    have hsrc' : opSource (dropRead id s.m) o = .ok (src, re) := hsrc
    have hrun := (runningOp_congr (finishRow_engines r.ctx src (rowFound (rowGot r.va (vget s.m.mem r.va r.len) row)) (dropRead id s.m))
      e op).trans ho'
    refine ⟨_, ?_, runningOp_putOp hrun rfl⟩
    show Host.Outcome.next (onM (tierResponse id false) s) = _
    rw [onM, tierResponse_current hr hl hc hs, readArrived_item _ hw ho' hsrc' hrow]
    rfl
  · intro s id data poison r hr hl hc
    show Host.Outcome.next (onM (tierResponse id poison) s) = _
    rw [onM, tierResponse_stale poison hr hl hc]
    rfl
  · intro s id dl r hr hd hm hc hp hs hst hstrict
    have hmiss := countedOnce_missCounted id dl r s.m
    have hstall : counterOf (missCounted id dl r s.m) 0x6700 0x03 = counterOf s.m 0x6700 0x03 :=
      counterOf_missCounted_ne id dl r s.m (by decide) (by decide)
    refine ⟨onM (deadlineMiss id) s, rfl, ?_⟩
    simp only [onM, deadlineMiss_strict hr hd hm hc hp hs hst hstrict]
    refine ⟨?_, countedOnce_of_counterOf_eq hstall, missCounted_time10 id dl r s.m, missCounted_phys id dl r s.m,
      missCounted_ctxs id dl r s.m, fun _ => stalled_of_mem_rowStalled⟩
    refine countedOnce_count_ne hmiss ?_
    split <;> decide
  · intro s id e op n d key dl r o row hr hd hm hc hp hi hs hstrict ht ha hw ho hrow
    have hrun := runningOp_substitute_ashAccessed id dl d key (ashRow s.m d key) hw ho hrow
    refine ⟨onM (deadlineMiss id) s, rfl, ?_⟩
    simp only [onM, deadlineMiss_ash hr hd hm hc hp hs hstrict ht ha]
    refine ⟨hrun, ?_⟩
    rw [substitute_ashAccessed id dl d key _ hw ho hrow, ctxAt_congr (putOp_ctxs _ _ _), ctxAt_substituted _ hi, ctxAt_ashAccessed,
      putOp_mem, substituted_phys, ashAccessed_phys]
    exact ⟨rfl, rfl, countedOnce_putOp (countedOnce_substituted (counterOf_ashAccessed id dl d key r s.m)), rfl,
      fun _ => substituted_of_mem⟩

end Sys2Proof.Proofs

namespace Sys2Proof.Proofs

open Sys2Proof.Machine Sys2Proof.Laws

/-! ### Cells: what a read of a span meets after a write of one -/

/-- A run reads zero where the cells begin later. -/
theorem cellsRun_succ_of_above {a n : Nat} {l : List Host.Cell} (h : ∀ p ∈ l, a < p.1) :
    cellsRun (n + 1) a l = 0 :: cellsRun n (a + 1) l := by
  cases l with
  | nil => rfl
  | cons q r =>
    have hq : a ≠ q.1 := Nat.ne_of_lt (h q (List.mem_cons_self ..))
    simp [cellsRun, hq]

theorem cellsRun_zipCells (bs : List Byte) (a : Nat) : cellsRun bs.length a (zipCells a bs) = bs := by
  induction bs generalizing a with
  | nil => rfl
  | cons b r ih =>
    simp only [zipCells, List.length_cons]
    split
    · rename_i hb
      rw [cellsRun_succ_of_above (fun p hp => (zipCells_ge r (a + 1) p hp).1), ih, beq_iff_eq.mp hb]
    · simp only [cellsRun, beq_self_eq_true, if_true, ih]

theorem cellsGet_cellsPut_self (l : List Host.Cell) (a : Nat) (bs : List Byte) :
    cellsGet (cellsPut l a bs) a bs.length = bs := by
  have hin : (zipCells a bs).filter (fun p => decide (a ≤ p.1) && decide (p.1 < a + bs.length)) = zipCells a bs :=
    List.filter_eq_self.mpr (fun p hp => by simpa using zipCells_ge bs a p hp)
  have hlow : (l.filter (fun p => decide (p.1 < a))).filter (fun p => decide (a ≤ p.1) && decide (p.1 < a + bs.length)) = [] :=
    List.filter_eq_nil_iff.mpr (fun p hp => by have := (List.mem_filter.mp hp).2; simp at this ⊢; omega)
  have hhigh : (l.filter (fun p => decide (a + bs.length ≤ p.1))).filter
      (fun p => decide (a ≤ p.1) && decide (p.1 < a + bs.length)) = [] :=
    List.filter_eq_nil_iff.mpr (fun p hp => by have := (List.mem_filter.mp hp).2; simp at this ⊢; omega)
  simp only [cellsGet, cellsPut, List.filter_append, hin, hlow, hhigh, List.nil_append, List.append_nil, cellsRun_zipCells]

/-- A write leaves a span apart from its own as it reads. -/
theorem cellsGet_cellsPut_apart (l : List Host.Cell) {a b n : Nat} {bs : List Byte} (h : b + n ≤ a ∨ a + bs.length ≤ b) :
    cellsGet (cellsPut l a bs) b n = cellsGet l b n := by
  have hz : (zipCells a bs).filter (fun p => decide (b ≤ p.1) && decide (p.1 < b + n)) = [] :=
    List.filter_eq_nil_iff.mpr (fun p hp => by have := zipCells_ge bs a p hp; simp; omega)
  simp only [cellsGet, cellsPut, List.filter_append, hz, List.append_nil, List.filter_filter]
  congr 1
  rcases h with h | h
  · have hhigh : l.filter (fun p => (decide (b ≤ p.1) && decide (p.1 < b + n)) && decide (a + bs.length ≤ p.1)) = [] :=
      List.filter_eq_nil_iff.mpr (fun p _ => by simp; omega)
    rw [hhigh, List.append_nil]
    exact List.filter_congr (fun p _ => by rw [Bool.eq_iff_iff]; simp; omega)
  · have hlow : l.filter (fun p => (decide (b ≤ p.1) && decide (p.1 < b + n)) && decide (p.1 < a)) = [] :=
      List.filter_eq_nil_iff.mpr (fun p _ => by simp; omega)
    rw [hlow, List.nil_append]
    exact List.filter_congr (fun p _ => by rw [Bool.eq_iff_iff]; simp; omega)

/-! ### Elements of accumulator memory (07 R261) -/

theorem accGet_accPut_self (arr tile r col v : Nat) (c : Core) :
    accGet (accPut arr tile false r col v c) arr tile false r col = v % 2 ^ 32 := by
  have h := cellsGet_cellsPut_self c.acc (accAddr arr tile false r col) (leBytes 4 v)
  rw [leBytes_length] at h
  exact (congrArg leVal h).trans (leVal_leBytes 4 v)

/-- Elements of a tile lie in words of their own. -/
theorem accGet_accPut_ne {arr tile r col r' col' : Nat} (v : Nat) (c : Core) (hc : col < 32) (hc' : col' < 32)
    (h : ¬ (r' = r ∧ col' = col)) :
    accGet (accPut arr tile false r' col' v c) arr tile false r col = accGet c arr tile false r col := by
  refine congrArg leVal (cellsGet_cellsPut_apart c.acc ?_)
  simp only [accAddr, leBytes_length, Bool.false_eq_true, if_false]
  omega

/-- Elements, as (row, column, bits), written one after the other. -/
def putElems (arr tile : Nat) (cells : List (Nat × Nat × Nat)) (c : Core) : Core :=
  cells.foldl (fun c x => accPut arr tile false x.1 x.2.1 x.2.2 c) c

theorem accGet_putElems_of_not_mem {arr tile r col : Nat} {cells : List (Nat × Nat × Nat)} (c : Core) (hc : col < 32)
    (hcells : ∀ x ∈ cells, x.2.1 < 32) (h : ∀ x ∈ cells, ¬ (x.1 = r ∧ x.2.1 = col)) :
    accGet (putElems arr tile cells c) arr tile false r col = accGet c arr tile false r col :=
  List.foldlRecOn (motive := fun d => accGet d arr tile false r col = accGet c arr tile false r col) cells _ rfl
    (fun d hd x hx => (accGet_accPut_ne _ d hc (hcells x hx) (h x hx)).trans hd)

/-- Where the writes of an element agree, it holds what they write. -/
theorem accGet_putElems {arr tile r col v : Nat} {cells : List (Nat × Nat × Nat)} (c : Core)
    (hcells : ∀ x ∈ cells, x.2.1 < 32) (hv : ∀ x ∈ cells, x.1 = r → x.2.1 = col → x.2.2 = v) (hx : (r, col, v) ∈ cells) :
    accGet (putElems arr tile cells c) arr tile false r col = v % 2 ^ 32 := by
  induction cells generalizing c with
  | nil => cases hx
  | cons y ys ih =>
    have hys : ∀ x ∈ ys, x.2.1 < 32 := fun x hx => hcells x (List.mem_cons_of_mem _ hx)
    by_cases hlater : (r, col, v) ∈ ys
    · exact ih _ hys (fun x hx => hv x (List.mem_cons_of_mem _ hx)) hlater
    · obtain rfl : (r, col, v) = y := (List.mem_cons.mp hx).resolve_right hlater
      have hnot : ∀ x ∈ ys, ¬ (x.1 = r ∧ x.2.1 = col) := by
        rintro ⟨r', col', v'⟩ hy ⟨rfl, rfl⟩
        obtain rfl : v' = v := hv _ (List.mem_cons_of_mem _ hy) rfl rfl
        exact hlater hy
      exact (accGet_putElems_of_not_mem _ (hcells (r, col, v) (List.mem_cons_self ..)) hys hnot).trans
        (accGet_accPut_self arr tile r col v c)

/-! ### Rows that an operation writes (07 R228, R250, R259) -/

/-- `d` is the core `c` but for accumulator memory, the parity of its words, and the audits of predicted elements. -/
structure RowsWritten (c d : Core) : Prop where
  core : d = { c with acc := d.acc, par := d.par, audits := d.audits, misses := d.misses }

namespace RowsWritten

variable {c d e : Core}

theorem refl (c : Core) : RowsWritten c c := ⟨rfl⟩

theorem trans (h : RowsWritten c d) (g : RowsWritten d e) : RowsWritten c e := ⟨by rw [g.core, h.core]⟩

theorem accPut (arr tile : Nat) (compact : Bool) (r col v : Nat) (c : Core) :
    RowsWritten c (accPut arr tile compact r col v c) := ⟨rfl⟩

theorem sameRegs (h : RowsWritten c d) : sameRegs c d :=
  ⟨by rw [h.core], by rw [h.core], by rw [h.core], by rw [h.core]⟩

theorem opc (h : RowsWritten c d) : d.opc = c.opc := by rw [h.core]
theorem pc (h : RowsWritten c d) : d.pc = c.pc := by rw [h.core]
theorem st (h : RowsWritten c d) : d.st = c.st := by rw [h.core]
theorem rings (h : RowsWritten c d) : d.rings = c.rings := by rw [h.core]
theorem ops (h : RowsWritten c d) : d.ops = c.ops := by rw [h.core]
theorem mvs (h : RowsWritten c d) : d.mvs = c.mvs := by rw [h.core]

end RowsWritten

/-- The core that written rows come to, of the core, its saturations, audits and misses: a layer's audits grow where there are any
(10 R377). -/
def withAudits (layer : Nat) (r : Core × Nat × Nat × Nat) : Core :=
  if r.2.2.1 == 0 then r.1 else
    { r.1 with audits := r.1.audits.put layer (r.1.audits.get layer 0 + r.2.2.1),
               misses := r.1.misses.put layer (r.1.misses.get layer 0 + r.2.2.2) }

theorem rowsWritten_withAudits (layer : Nat) (r : Core × Nat × Nat × Nat) : RowsWritten r.1 (withAudits layer r) := by
  unfold withAudits
  split
  · exact RowsWritten.refl _
  · exact ⟨rfl⟩

/-- The elements of rows of an operation, as (row, column, result). -/
def rowElems (o : MxOp) (rows : List (Nat × Nat × List Nat)) : List (Nat × Nat × Nat) :=
  rows.flatMap (fun ir => (ir.2.2.zip (List.range ir.2.2.length)).map (fun pn => (o.row0 + ir.2.1, pn.2, pn.1)))

theorem mem_rowElems {o : MxOp} {rows : List (Nat × Nat × List Nat)} {x : Nat × Nat × Nat} :
    x ∈ rowElems o rows ↔ ∃ r ∈ rows, x.1 = o.row0 + r.2.1 ∧ r.2.2[x.2.1]? = some x.2.2 := by
  obtain ⟨row, col, v⟩ := x
  simp only [rowElems, List.mem_flatMap, List.mem_map, List.range_eq_range', ← List.zipIdx_eq_zip_range',
    List.mem_zipIdx_iff_getElem?, Prod.mk.injEq, Prod.exists]
  constructor
  · rintro ⟨cyc, i, l, hr, a, b, hl, rfl, rfl, rfl⟩
    exact ⟨cyc, i, l, hr, rfl, hl⟩
  · rintro ⟨cyc, i, l, hr, rfl, hl⟩
    exact ⟨cyc, i, l, hr, v, col, hl, rfl, rfl, rfl⟩

/-- The draws of an operation's write-back, where it is compact, use a sound step number (R228, R503). -/
def DrawsSoundly (m : Mach) (k cfg : Nat) : Prop := cCompact cfg = true → stepPairOk (ctxAt m (coreAt m k).ctx) = true

theorem DrawsSoundly.not_faults {m : Mach} {k cfg : Nat} (h : DrawsSoundly m k cfg) :
    ¬ (cCompact cfg && !stepPairOk (ctxAt m (coreAt m k).ctx)) = true := by
  intro hbad
  obtain ⟨hc, hs⟩ := Bool.and_eq_true_iff.mp hbad
  rw [h hc] at hs
  cases hs

@[simp] theorem coreAt_countN (index sub n : Nat) (m : Mach) (k : Nat) : coreAt (countN index sub n m) k = coreAt m k := rfl

/-- Where the images of a list differ, an image stands for one of its elements (said with core words: no more of the library is at
hand here). -/
theorem eq_of_nodup_map {α β : Type} {f : α → β} {l : List α} (hl : (l.map f).Nodup) {x y : α} (hx : x ∈ l) (hy : y ∈ l)
    (e : f x = f y) : x = y := by
  induction l with
  | nil => cases hx
  | cons z r ih =>
    obtain ⟨hz, hr⟩ := List.nodup_cons.mp hl
    rcases List.mem_cons.mp hx with rfl | hxr <;> rcases List.mem_cons.mp hy with rfl | hyr
    · rfl
    · exact absurd (e ▸ List.mem_map_of_mem hyr) hz
    · exact absurd (e ▸ List.mem_map_of_mem hxr) hz
    · exact ih hr hxr hyr

section WriteRows

variable {k : Nat} {o : MxOp} {m : Mach}

/-- What rows that are written do: the core and the counts of saturations, audits and misses that they come to. -/
theorem writeRows_cases (rows : List (Nat × Nat × List Nat)) (h : DrawsSoundly m k o.cfg) :
    ∃ r : Core × Nat × Nat × Nat, RowsWritten (coreAt m k) r.1 ∧ (rows = [] → r = (coreAt m k, 0, 0, 0)) ∧
      (o.op = 0x02 → cCompact o.cfg = false → r = (putElems o.arr o.tile (rowElems o rows) (coreAt m k), 0, 0, 0)) ∧
      writeRows k o rows m = countN 0x6200 0x0B r.2.1 (countN 0x6200 0x28 r.2.2.1 (countN 0x6200 0x29 r.2.2.2
        (setCore k (withAudits o.layer r) m))) := by
  refine ⟨_, ?_, ?_, ?_, if_neg h.not_faults⟩
  · refine foldl_keeps (fun r : Core × Nat × Nat × Nat => RowsWritten (coreAt m k) r.1) _ _ _ (RowsWritten.refl _) ?_
    rintro ⟨c, sats, aud, miss⟩ ⟨row, col, p⟩ hc
    have hput (compact : Bool) (v : Nat) := hc.trans (RowsWritten.accPut o.arr o.tile compact row col v c)
    dsimp only
    split
    · exact hput _ _
    · split
      · split
        · exact hc
        · exact hput _ _
        · split <;> exact hput _ _
      · exact hput _ _
  · rintro rfl
    rfl
  · intro hop hc
    exact List.foldl_hom (fun c : Core => (c, 0, 0, 0)) (fun c x => by simp [hop, hc])

/-- R250, R377: rows that are written reach accumulator memory and the audits alone. -/
theorem rowsWritten_writeRows (rows : List (Nat × Nat × List Nat)) (h : DrawsSoundly m k o.cfg) :
    RowsWritten (coreAt m k) (coreAt (writeRows k o rows m) k) := by
  obtain ⟨r, hr, -, -, he⟩ := writeRows_cases rows h
  rw [he, coreAt_countN, coreAt_countN, coreAt_countN, coreAt_setCore_self]
  exact hr.trans (rowsWritten_withAudits _ _)

theorem writeRows_mem (rows : List (Nat × Nat × List Nat)) (h : DrawsSoundly m k o.cfg) : (writeRows k o rows m).mem = m.mem := by
  obtain ⟨r, -, -, -, he⟩ := writeRows_cases rows h
  rw [he]
  rfl

theorem coreAt_writeRows_nil (h : DrawsSoundly m k o.cfg) : coreAt (writeRows k o [] m) k = coreAt m k := by
  obtain ⟨r, -, hnil, -, he⟩ := writeRows_cases [] h
  rw [he, hnil rfl, coreAt_countN, coreAt_countN, coreAt_countN, coreAt_setCore_self]
  rfl

/-- R250: `mm.mul` replaces the elements of its rows by their results. -/
theorem coreAt_writeRows_mul (rows : List (Nat × Nat × List Nat)) (hop : o.op = 0x02) (hc : cCompact o.cfg = false) :
    coreAt (writeRows k o rows m) k = putElems o.arr o.tile (rowElems o rows) (coreAt m k) := by
  obtain ⟨r, -, -, hmul, he⟩ := writeRows_cases (m := m) (k := k) rows (fun h => by rw [hc] at h; cases h)
  rw [he, hmul hop hc, coreAt_countN, coreAt_countN, coreAt_countN, coreAt_setCore_self]
  rfl

/-- R228, R250: once its rows are written, an element of a row holds the row's result. -/
theorem accGet_writeRows_mul {rows : List (Nat × Nat × List Nat)} (hop : o.op = 0x02) (hc : cCompact o.cfg = false)
    (hrows : (rows.map (fun r => r.2.1)).Nodup) (hlen : ∀ r ∈ rows, r.2.2.length ≤ 32) {r : Nat × Nat × List Nat} (hr : r ∈ rows)
    {j : Nat} (hj : j < r.2.2.length) :
    accGet (coreAt (writeRows k o rows m) k) o.arr o.tile false (o.row0 + r.2.1) j = (r.2.2.getD j 0) % 2 ^ 32 := by
  have hget : r.2.2[j]? = some (r.2.2.getD j 0) := by simp [List.getElem?_eq_getElem hj]
  rw [coreAt_writeRows_mul rows hop hc]
  refine accGet_putElems _ (fun x hx => ?_) (fun x hx hrow hcol => ?_) (mem_rowElems.mpr ⟨r, hr, rfl, hget⟩)
  · obtain ⟨q, hq, -, hv⟩ := mem_rowElems.mp hx
    exact Nat.lt_of_lt_of_le (List.getElem?_eq_some_iff.mp hv).1 (hlen q hq)
  · obtain ⟨q, hq, hxq, hv⟩ := mem_rowElems.mp hx
    obtain rfl : q = r := eq_of_nodup_map hrows hq hr (by omega)
    rw [hcol, hget] at hv
    exact (Option.some.inj hv).symm

end WriteRows

/-- R259: a matrix-vector operation that writes its rows reaches accumulator memory alone, and counts nothing. -/
theorem writeMv_frame {k : Nat} {o : MvOp} {m : Mach} (h : DrawsSoundly m k o.cfg) :
    RowsWritten (coreAt m k) (coreAt (writeMv k o m) k) ∧ (writeMv k o m).mem = m.mem ∧ (writeMv k o m).cnt = m.cnt := by
  have he : writeMv k o m = setCore k _ m := if_neg h.not_faults
  rw [he]
  refine ⟨?_, rfl, rfl⟩
  rw [coreAt_setCore_self]
  exact foldl_keeps (RowsWritten (coreAt m k)) _ _ _ (RowsWritten.refl _) (fun c _ hc => hc.trans (RowsWritten.accPut _ _ _ _ _ _ c))

/-! ### The operation that retires first (07 R250, R259, R264) -/

theorem mem_of_firstLeast {α : Type} {f : α → Nat} {l : List α} {y : α} (h : firstLeast f l = some y) : y ∈ l := by
  induction l with
  | nil => cases h
  | cons x r ih =>
    simp only [firstLeast] at h
    split at h
    · rename_i z hz
      split at h <;> cases h
      · exact List.mem_cons_of_mem _ (ih hz)
      · exact List.mem_cons_self ..
    · cases h
      exact List.mem_cons_self ..

/-- What is less than all others is the least. -/
theorem firstLeast_eq_some {α : Type} {f : α → Nat} {l : List α} {o : α} (ho : o ∈ l) (h : ∀ x ∈ l, x ≠ o → f o < f x) :
    firstLeast f l = some o := by
  induction l with
  | nil => cases ho
  | cons x r ih =>
    by_cases hr : o ∈ r
    · simp only [firstLeast, ih hr (fun y hy => h y (List.mem_cons_of_mem _ hy))]
      split
      · rfl
      · rename_i hle
        by_cases hx : x = o
        · rw [hx]
        · exact absurd (h x (List.mem_cons_self ..) hx) hle
    · obtain rfl : o = x := (List.mem_cons.mp ho).resolve_right hr
      simp only [firstLeast]
      split
      · rename_i y hy
        have hy' := mem_of_firstLeast hy
        have hlt : f o < f y := h y (List.mem_cons_of_mem _ hy') (fun e => hr (e ▸ hy'))
        rw [if_neg (Nat.lt_asymm hlt)]
      · rfl

theorem dueOp_eq_some {c : Core} {arr : Nat} {o : MxOp} (ho : o ∈ c.ops) (harr : o.arr = arr) (hplan : o.plan = [])
    (hdue : o.retire < c.aclk) (hleast : ∀ x ∈ c.ops, x.arr = arr → x.plan = [] → x ≠ o → o.retire < x.retire) :
    dueOp c arr = some o := by
  refine firstLeast_eq_some (List.mem_filter.mpr ⟨ho, by simp [harr, hplan, hdue]⟩) (fun x hx hne => ?_)
  obtain ⟨hmem, hx⟩ := List.mem_filter.mp hx
  simp only [Bool.and_eq_true, beq_iff_eq, List.isEmpty_iff] at hx
  exact hleast x hmem hx.1.1 hx.1.2 hne

theorem dueMv_eq_some {c : Core} {o : MvOp} (ho : o ∈ c.mvs) (hloads : o.loads = []) (hplan : o.plan = [])
    (hdue : o.retire < c.aclk) (hleast : ∀ x ∈ c.mvs, x.loads = [] → x.plan = [] → x ≠ o → o.retire < x.retire) :
    dueMv c = some o := by
  refine firstLeast_eq_some (List.mem_filter.mpr ⟨ho, by simp [hloads, hplan, hdue]⟩) (fun x hx hne => ?_)
  obtain ⟨hmem, hx⟩ := List.mem_filter.mp hx
  simp only [Bool.and_eq_true, List.isEmpty_iff] at hx
  exact hleast x hmem hx.1.2 hx.1.1 hne

/-- R259: what a matrix-vector operation that retires has written, unless it had before. -/
theorem retireMv_cases {k : Nat} {o : MvOp} {m : Mach} (h : DrawsSoundly m k o.cfg) :
    ∃ n, retireMv k o m = count 0x6200 0x08 (modCore k (fun c => { c with mvs := c.mvs.erase o }) n) ∧
      RowsWritten (coreAt m k) (coreAt n k) ∧ n.mem = m.mem ∧ n.cnt = m.cnt ∧ (o.done = true → n = m) := by
  refine ⟨_, rfl, ?_⟩
  cases hd : o.done with
  | true => exact ⟨RowsWritten.refl _, rfl, rfl, fun _ => rfl⟩
  | false =>
    obtain ⟨hrows, hmem, hcnt⟩ := writeMv_frame h
    exact ⟨hrows, hmem, hcnt, fun e => by cases e⟩

/-! ### Drains (09 R341, R342) -/

/-- What the rows of a drain that are written can do: to its core's operand cache, or to staging where the drain goes there. -/
structure Drained (k : Nat) (d : Drain) (a b : Mach) : Prop where
  core : coreAt b k = { coreAt a k with opc := (coreAt b k).opc, par := (coreAt b k).par }
  phys : b.mem.phys = a.mem.phys
  opc : d.dest = 2 → (coreAt b k).opc = (coreAt a k).opc
  mem : d.dest ≠ 2 → b.mem = a.mem

namespace Drained

variable {k : Nat} {d : Drain} {a b c : Mach}

theorem refl (k : Nat) (d : Drain) (a : Mach) : Drained k d a a := ⟨rfl, rfl, fun _ => rfl, fun _ => rfl⟩

theorem trans (h : Drained k d a b) (g : Drained k d b c) : Drained k d a c where
  core := by rw [g.core, h.core]
  phys := g.phys.trans h.phys
  opc := fun e => (g.opc e).trans (h.opc e)
  mem := fun e => (g.mem e).trans (h.mem e)

theorem drainRows (k : Nat) (d : Drain) (m : Mach) : Drained k d m (drainRows k d m) := by
  refine foldl_keeps (Drained k d m) _ _ m (refl k d m) (fun x i hx => hx.trans ?_)
  dsimp only
  split
  · rename_i hd
    exact ⟨rfl, rfl, fun _ => rfl, fun e => absurd (beq_iff_eq.mp hd) e⟩
  · rename_i hd
    exact ⟨by rw [coreAt_modCore_self]; rfl, rfl, fun e => absurd (beq_iff_eq.mpr e) hd, fun _ => rfl⟩

theorem sameRegs (h : Drained k d a b) : sameRegs (coreAt a k) (coreAt b k) :=
  ⟨by rw [h.core], by rw [h.core], by rw [h.core], by rw [h.core]⟩

theorem acc (h : Drained k d a b) : (coreAt b k).acc = (coreAt a k).acc := by rw [h.core]
theorem pc (h : Drained k d a b) : (coreAt b k).pc = (coreAt a k).pc := by rw [h.core]
theorem rings (h : Drained k d a b) : (coreAt b k).rings = (coreAt a k).rings := by rw [h.core]
theorem drains (h : Drained k d a b) : (coreAt b k).drains = (coreAt a k).drains := by rw [h.core]

end Drained

/-- A drain leaves its core. -/
def dropDrain (d : Drain) (c : Core) : Core := { c with drains := c.drains.erase d }

theorem ringAt_setRing_self (ring : Nat) (r : Ring) (c : Core) : ringAt (setRing ring r c) ring = r :=
  smap_get_put_self c.rings ring r {}

/-- R387: an entry that its ring can take is in it at once. -/
theorem postEntry_of_takes {p : Poster} {pc k ring e : Nat} {m : Mach} (h : ringTakes p (ringAt (coreAt m k) ring)) :
    postEntry p pc k ring e m = setCore k (setRing ring (takeEntry e (ringAt (coreAt m k) ring)) (coreAt m k)) m := by
  obtain ⟨hok, hclass, hwaiting, hroom⟩ := h
  simp [postEntry, hok, hclass, hwaiting, hroom]

theorem completeDrain_queue {k : Nat} {d : Drain} {m : Mach} (h : d.dest = 1) :
    completeDrain k d m = (deliverTile k d m).map (modCore k (dropDrain d)) := by
  simp only [completeDrain, h, beq_self_eq_true, if_true]
  rfl

theorem completeDrain_written {k : Nat} {d : Drain} {m : Mach} (h : d.dest ≠ 1) :
    completeDrain k d m = some (if eRingEn d.epi
      then postEntry (.drain k d.arr) d.pc k (eRing d.epi) (drainEntry d) (modCore k (dropDrain d) (drainRows k d m))
      else modCore k (dropDrain d) (drainRows k d m)) := by
  simp only [completeDrain, beq_iff_eq, h, if_false]
  rfl

/-! ### Counters of the side ports (09 R346) -/

/-- The counters that a cycle of the side ports can count in once its waits are counted: those of the fault path and of a fault record,
of the parity errors that it finds, and of the drain rows that it reads. -/
def sideCounters : List Nat := faultCounters ++ [dkey 0x6100 0x0A, dkey 0x6200 0x0C, dkey 0x6300 0x09, dkey 0x6300 0x04]

theorem counterOf_countN_self (index sub n : Nat) (m : Mach) :
    counterOf (countN index sub n m) index sub = min (2 ^ 64 - 1) (counterOf m index sub + n) :=
  smap_get_put_self m.cnt (dkey index sub) _ 0

theorem counterOf_countN_ne {index sub i j : Nat} (n : Nat) (m : Mach) (h : dkey index sub ≠ dkey i j) :
    counterOf (countN i j n m) index sub = counterOf m index sub := smap_get_put_ne m.cnt _ _ _ 0 h

section SideCounters

variable {index sub : Nat}

theorem counterOf_modCore (k : Nat) (f : Core → Core) (m : Mach) : counterOf (modCore k f m) index sub = counterOf m index sub := rfl

theorem counterOf_ite {p : Prop} [Decidable p] {a b m : Mach} (ha : counterOf a index sub = counterOf m index sub)
    (hb : counterOf b index sub = counterOf m index sub) : counterOf (if p then a else b) index sub = counterOf m index sub := by
  split <;> assumption

variable (hk : dkey index sub ∉ sideCounters)

include hk

theorem counterOf_count_side {i j : Nat} (m : Mach) (hc : dkey i j ∈ sideCounters := by decide) :
    counterOf (count i j m) index sub = counterOf m index sub :=
  counterOf_count_ne m (fun e => hk (by rw [e]; exact hc))

theorem counterOf_faultPath {a b : Mach} (h : FaultPath a b) : counterOf b index sub = counterOf a index sub :=
  h.counters _ (fun e => hk (List.mem_append_left _ e))

theorem counterOf_coreError (k code slot : Nat) (bundle : Bool) (pc detail : Nat) (m : Mach) :
    counterOf (coreError k code slot bundle pc detail m) index sub = counterOf m index sub := by
  unfold coreError recordFault
  rw [counterOf_faultPath hk (FaultPath.ctxError _ _ _), counterOf_faultPath hk (FaultPath.stepUsed _ id _ (FaultPath.refl _)),
    counterOf_count_side hk]
  rfl

theorem counterOf_mxError (k code pc detail : Nat) (m : Mach) :
    counterOf (mxError k code pc detail m) index sub = counterOf m index sub :=
  (counterOf_coreError hk ..).trans (counterOf_count_side hk m)

theorem counterOf_veError (k code pc detail : Nat) (m : Mach) :
    counterOf (veError k code pc detail m) index sub = counterOf m index sub :=
  (counterOf_coreError hk ..).trans (counterOf_count_side hk m)

theorem counterOf_readRow (k : Nat) (d : Drain) (m : Mach) : counterOf (readRow k d m) index sub = counterOf m index sub :=
  (counterOf_modCore ..).trans (counterOf_ite (counterOf_mxError hk ..) (counterOf_ite (counterOf_veError hk ..) rfl))

theorem counterOf_dbgCopy (k : Nat) (o : DbgOp) (m : Mach) : counterOf (dbgCopy k o m) index sub = counterOf m index sub :=
  counterOf_ite (counterOf_ite (counterOf_mxError hk ..) rfl) (counterOf_ite (counterOf_mxError hk ..) rfl)

theorem counterOf_drainCycle (lanes : Bool) (busy : List Bool) (k : Nat) (m : Mach) :
    counterOf (drainCycle lanes busy k m) index sub = counterOf m index sub := by
  refine foldl_keeps (fun x => counterOf x index sub = counterOf m index sub) _ _ m rfl (fun x arr hx => ?_)
  split
  · exact hx
  · split
    · exact hx
    · exact ((counterOf_count_side hk _).trans (counterOf_readRow hk k _ x)).trans hx

theorem counterOf_dbgCycle (busy : List Bool) (k : Nat) (m : Mach) :
    counterOf (dbgCycle busy k m) index sub = counterOf m index sub := by
  refine foldl_keeps (fun x => counterOf x index sub = counterOf m index sub) _ _ m rfl (fun x arr hx => ?_)
  split
  · exact hx
  · split
    · exact hx
    · exact (counterOf_dbgCopy hk k _ x).trans hx

/-- Where the geyser queue keeps drains waiting, a cycle of the side ports counts a waiting cycle, and the waits. -/
theorem counterOf_sideCycle (lanes : Bool) (c : Core) {k : Nat} {m : Mach} (hq : queueWaits m k ≠ 0) :
    counterOf (sideCycle lanes c k m) index sub =
      counterOf (countN 0x6A00 0x06 (queueWaits m k) (count 0x6300 0x05 m)) index sub := by
  have hwait : (rowWaits lanes [sidePort c 0, sidePort c 1] (coreAt m k) || queueWaits m k != 0) = true := by simp [hq]
  unfold sideCycle
  dsimp only
  rw [counterOf_dbgCycle hk, counterOf_drainCycle hk, if_pos hwait]

end SideCounters

/-! ### The arrays' and drains' completions -/

/-- R243: a bank whose load is done is ready. -/
theorem weightReady_of_done {k arr bank : Nat} {m : Mach} (hloading : (bankAt (coreAt m k) (bankIx arr bank)).loading = true)
    (hplan : (bankAt (coreAt m k) (bankIx arr bank)).plan = [])
    (hready : (bankAt (coreAt m k) (bankIx arr bank)).ready ≤ (coreAt m k).aclk) :
    weightReady k arr bank m =
      modCore k (setBank (bankIx arr bank) { bankAt (coreAt m k) (bankIx arr bank) with loading := false }) m :=
  if_neg (by simp [hloading, hplan, hready])

theorem matrixRetire_of_due {k arr : Nat} {o : MxOp} {m : Mach} (h : dueOp (coreAt m k) arr = some o) :
    matrixRetire k arr m = retireOp k o m := by
  rw [matrixRetire, h]

theorem mvRetire_of_due {k : Nat} {o : MvOp} {m : Mach} (h : dueMv (coreAt m k) = some o) : mvRetire k m = retireMv k o m := by
  rw [mvRetire, h]

section DrainDone

variable {k : Nat} {d : Drain} {r : List Drain} {m : Mach}

/-- R503: a drain checks the step number that its draws use. -/
theorem drainDone_of_bad_step (hs : stepPairOk (ctxAt m (coreAt m k).ctx) = false) :
    drainDone k m = stepFault (coreAt m k).ctx m := if_neg (by simp [hs])

variable (hs : stepPairOk (ctxAt m (coreAt m k).ctx) = true)

include hs

/-- R342, R390: of the drains that may complete, the first does, where it can. -/
theorem drainDone_of_first {n : Mach} (hr : readDrains m k = d :: r) (hd : completeDrain k d m = some n) : drainDone k m = n := by
  rw [drainDone, stepUsed_ok _ _ _ hs, hr, List.findSome?_cons, hd]
  rfl

theorem drainDone_written (hr : readDrains m k = d :: r) (hdest : d.dest ≠ 1) (hring : eRingEn d.epi = false) :
    drainDone k m = modCore k (dropDrain d) (drainRows k d m) :=
  drainDone_of_first hs hr ((completeDrain_written hdest).trans (by rw [if_neg (by simp [hring])]))

/-- R387: the drain's entry is in its ring; `c` is the core that the drain has left. -/
theorem drainDone_posted (hr : readDrains m k = d :: r) (hdest : d.dest ≠ 1) (hring : eRingEn d.epi = true)
    (ht : ringTakes (.drain k d.arr) (ringAt (coreAt m k) (eRing d.epi))) :
    ∃ c n, drainDone k m = setCore k (setRing (eRing d.epi) (takeEntry (drainEntry d) (ringAt (coreAt m k) (eRing d.epi))) c) n ∧
      c.drains = (coreAt m k).drains.erase d := by
  have hrows := Drained.drainRows k d m
  have hat : ringAt (coreAt (modCore k (dropDrain d) (drainRows k d m)) k) (eRing d.epi) = ringAt (coreAt m k) (eRing d.epi) := by
    rw [coreAt_modCore_self]
    exact congrArg (fun l => SMap.get l (eRing d.epi) {}) hrows.rings
  refine ⟨coreAt (modCore k (dropDrain d) (drainRows k d m)) k, modCore k (dropDrain d) (drainRows k d m),
    drainDone_of_first hs hr ((completeDrain_written hdest).trans ?_), ?_⟩
  · rw [if_pos hring, postEntry_of_takes (by rw [hat]; exact ht), hat]
  · rw [coreAt_modCore_self, dropDrain, hrows.drains]

theorem drainDone_delivered {n : Mach} (hr : readDrains m k = d :: r) (hdest : d.dest = 1) (hn : deliverTile k d m = some n) :
    drainDone k m = modCore k (dropDrain d) n :=
  drainDone_of_first hs hr ((completeDrain_queue hdest).trans (by rw [hn]; rfl))

/-- R455: a drain that the geyser queue keeps waiting stays. -/
theorem drainDone_waits (hr : readDrains m k = [d]) (hdest : d.dest = 1) (hn : deliverTile k d m = none) : drainDone k m = m := by
  rw [drainDone, stepUsed_ok _ _ _ hs, hr, List.findSome?_cons, completeDrain_queue hdest, hn]
  rfl

end DrainDone

/-- Settles O31: each completion takes what is due, and reaches its own tile, bank or buffer alone. -/
theorem arrayOperationsAndDrainsComplete : Obligations.ArrayOperationsAndDrainsComplete := by
  unfold Obligations.ArrayOperationsAndDrainsComplete
  refine ⟨⟨?_, ?_, ?_⟩, ?_, ?_, ?_, ?_, ?_, ?_⟩
  · intro s k arr bank _ _ b hloading hplan hready
    refine ⟨onM (weightReady k arr bank) s, rfl, ?_⟩
    simp only [onM, weightReady_of_done hloading hplan hready, coreAt_modCore_self]
    exact ⟨rfl, rfl, rfl⟩
  · intro s k arr o ho harr hplan hdue hleast
    refine ⟨onM (matrixRetire k arr) s, rfl, fun hdraw => ?_⟩
    have hrows := rowsWritten_writeRows o.res hdraw
    simp only [onM, matrixRetire_of_due (dueOp_eq_some ho harr hplan hdue hleast), retireOp, coreAt_modCore_self, modCore_mem]
    refine ⟨by rw [hrows.ops], hrows.sameRegs, hrows.opc, hrows.pc, hrows.st, hrows.rings, writeRows_mem _ hdraw, fun hnil => ?_,
      fun hop hc _ hnd hlen r hr j hj => accGet_writeRows_mul hop hc hnd hlen hr hj⟩
    rw [hnil, coreAt_writeRows_nil hdraw]
  · intro s k o ho hloads hplan hdue hleast hdraw
    obtain ⟨n, hn, hrows, hmem, hcnt, hdone⟩ := retireMv_cases (m := s.m) (k := k) (o := o) hdraw
    refine ⟨onM (mvRetire k) s, rfl, ?_⟩
    simp only [onM, mvRetire_of_due (dueMv_eq_some ho hloads hplan hdue hleast), hn, count, coreAt_countN, coreAt_modCore_self,
      countN_mem, modCore_mem]
    exact ⟨by rw [hrows.mvs], hrows.sameRegs, hrows.opc, hrows.pc, hrows.st, hrows.rings, hmem, fun hd => by rw [hdone hd],
      countedOnce_of_counterOf_eq (counterOf_congr hcnt _ _)⟩
  · intro s k d r hs hr hdest hring
    have hrows := Drained.drainRows k d s.m
    refine ⟨onM (drainDone k) s, rfl, ?_⟩
    simp only [onM, drainDone_written hs hr hdest hring, coreAt_modCore_self, modCore_mem, dropDrain]
    exact ⟨by rw [hrows.drains], hrows.sameRegs, hrows.acc, hrows.pc, hrows.rings, hrows.phys, hrows.opc, hrows.mem⟩
  · intro s k d r hs hr hdest hring htakes
    obtain ⟨c, n, he, hc⟩ := drainDone_posted hs hr hdest hring htakes
    refine ⟨onM (drainDone k) s, rfl, ?_⟩
    simp only [onM, he, coreAt_setCore_self, ringAt_setRing_self]
    exact ⟨hc, rfl⟩
  · intro s k d r m1 hs hr hdest hdeliver
    refine ⟨onM (drainDone k) s, rfl, ?_⟩
    simp only [onM, drainDone_delivered hs hr hdest hdeliver, coreAt_modCore_self]
    exact ⟨rfl, rfl⟩
  · intro s k d hs hr hdest hdeliver
    show Host.Outcome.next (onM (drainDone k) s) = _
    rw [onM, drainDone_waits hs hr hdest hdeliver]
  · intro m k lanes c hq
    refine ⟨?_, ?_⟩
    · rw [countedOnce, counterOf_sideCycle (by decide) lanes c hq, counterOf_countN_ne _ _ (by decide)]
      exact countedOnce_count 0x6300 0x05 m
    · rw [counterOf_sideCycle (by decide) lanes c hq, counterOf_countN_self, counterOf_count_ne _ (by decide)]
  · intro s k hs hst hi
    have hpath := FaultPath.stepFault (coreAt s.m k).ctx s.m
    refine ⟨onM (drainDone k) s, rfl, ?_⟩
    simp only [onM, drainDone_of_bad_step hs]
    exact ⟨failedWith_failCtx _ _ _ hi (by simp [hst]) (by simp [hst]) (by decide) (by decide), hpath.cores, hpath.mem⟩

end Sys2Proof.Proofs

namespace Sys2Proof.Proofs

open Sys2Proof.Machine Sys2Proof.Laws

/-! ### A write after an access (02 R54, R65) -/

/-- A memory with other access flags, translation caches and grant pointers. -/
def withAccess (touched : List Nat) (xlate : SMap (List Nat)) (grants : SMap Nat) (x : Mem) : Mem :=
  { x with touched := touched, xlate := xlate, grants := grants }

theorem markDirty_withAccess (va n : Nat) (t : List Nat) (l : SMap (List Nat)) (g : SMap Nat) (x : Mem) :
    markDirty va n (withAccess t l g x) = withAccess t l g (markDirty va n x) := by
  have hm : (withAccess t l g x).migs = x.migs := rfl
  unfold markDirty
  dsimp only
  rw [hm]
  split <;> rfl

theorem vputs_withAccess (va : Nat) (bs : List Byte) (t : List Nat) (l : SMap (List Nat)) (g : SMap Nat) (x : Mem) :
    vputs va bs (withAccess t l g x) = withAccess t l g (vputs va bs x) := by
  refine List.foldl_hom (withAccess t l g) (fun y p => ?_)
  have hp : place? (withAccess t l g y) (va + p.2.1) = place? y (va + p.2.1) := rfl
  rw [hp]
  split
  · rename_i q _
    exact markDirty_withAccess _ _ t l g
      { y with phys := cellsPut y.phys q ((bs.drop p.2.1).take p.2.2), failing := goodBursts q p.2.2 y.failing }
  · rfl

theorem vput_phys (va : Nat) (bs : List Byte) (x : Mem) : (vput va bs x).phys = (vputs va bs x).phys :=
  (vtouch_cells va bs.length _).1

theorem vput_staging (va : Nat) (bs : List Byte) (x : Mem) : (vput va bs x).staging = x.staging := by
  refine (vtouch_cells va bs.length _).2.trans ?_
  refine foldl_keeps (fun y : Mem => y.staging = x.staging) _ _ x rfl (fun y p hy => ?_)
  split
  · rw [markDirty_staging]
    exact hy
  · exact hy

/-- Where octets go is a matter of the directory, which an access leaves as it is. -/
theorem vput_phys_of_onlyAccess {va : Nat} {bs : List Byte} {x y : Mem} (h : onlyAccess x y) :
    (vput va bs y).phys = (vput va bs x).phys := by
  have hy : withAccess y.touched y.xlate y.grants x = y := h.symm
  have hv := congrArg Mem.phys (vputs_withAccess va bs y.touched y.xlate y.grants x)
  rw [hy] at hv
  rw [vput_phys, vput_phys]
  exact hv

/-- What can be written can be read. -/
theorem readCheck_of_writeCheck {x : Mem} {i va n : Nat} (h : writeCheck x i va n = 0) : readCheck x va n = 0 := by
  unfold writeCheck at h
  dsimp only at h
  split at h
  · exact h
  · rename_i hr
    simpa using hr

/-! ### Transfers (01 R19, 02 R55, 08 R303) -/

/-- A core's oldest transfer can be done: its octets are here, nothing that it reads has bad parity, and its ring takes its entry. -/
structure XferDue (m : Mach) (k dir len addr off ring pc : Nat) (got : List (Nat × List Byte)) (rest : List TCmd) : Prop where
  issues : issues m (coreAt m k) = true
  posting : posting m (.te k) = false
  par : (coreAt m k).par = []
  staging : m.mem.stagingBad = []
  take : takeXfer (coreAt m k).queue = some (.xfer dir len addr off ring pc 0 got, rest)
  takes : ringTakes (.te k) (ringAt (coreAt m k) ring)

/-- The transfer has left the queue. -/
def xferTaken (k : Nat) (rest : List TCmd) (m : Mach) : Mach := modCore k (fun c => { c with queue := rest }) m

/-- Its entry is posted. -/
def xferPosted (k pc ring len : Nat) (m : Mach) : Mach := postEntry (.te k) pc k ring (5 * 2 ^ 60 + ring * 2 ^ 57 + len) m

/-- `n` is the machine `m` once a transfer has left the queue of core `k` and its octets have moved: of the core, nothing but the
operand cache differs beyond that. -/
structure XferMoved (k : Nat) (rest : List TCmd) (m n : Mach) : Prop where
  core : coreAt n k = { coreAt m k with queue := rest, opc := (coreAt n k).opc, par := (coreAt n k).par }

namespace XferMoved

variable {k ring len pc : Nat} {rest : List TCmd} {m n : Mach}

theorem ringAt_eq (h : XferMoved k rest m n) :
    ringAt (coreAt n k) ring = ringAt (coreAt m k) ring := by
  rw [h.core]
  rfl

theorem xferPosted_eq (h : XferMoved k rest m n) (ht : ringTakes (.te k) (ringAt (coreAt m k) ring)) :
    xferPosted k pc ring len n = setCore k (setRing ring (takeEntry (5 * 2 ^ 60 + ring * 2 ^ 57 + len) (ringAt (coreAt m k) ring))
      (coreAt n k)) n := by
  rw [xferPosted, postEntry_of_takes (by rw [h.ringAt_eq]; exact ht), h.ringAt_eq]

/-- R303, R394: the entry stands in its ring, and its posting leaves memory, contexts and the operand cache as they are. -/
theorem posted (h : XferMoved k rest m n) (ht : ringTakes (.te k) (ringAt (coreAt m k) ring)) :
    transferPosted k ring len rest (coreAt m k) (xferPosted k pc ring len n) ∧ (xferPosted k pc ring len n).mem = n.mem ∧
      (xferPosted k pc ring len n).ctxs = n.ctxs ∧ (coreAt (xferPosted k pc ring len n) k).opc = (coreAt n k).opc := by
  rw [transferPosted, h.xferPosted_eq ht, coreAt_setCore_self, ringAt_setRing_self]
  refine ⟨?_, rfl, rfl, rfl⟩
  rw [h.core]
  exact ⟨rfl, ⟨rfl, rfl, rfl, rfl⟩, rfl, rfl⟩

end XferMoved

theorem opcParBad_of_par_nil {c : Core} (h : c.par = []) (spans : List (Nat × Nat)) : opcParBad c spans = false := by
  simp [opcParBad, h]

namespace XferDue

variable {m : Mach} {k dir len addr off ring pc : Nat} {got : List (Nat × List Byte)} {rest : List TCmd}

/-- R303: from memory into the operand cache. -/
theorem xferDone_load (h : XferDue m k 0 len addr off ring pc got rest) (hr : readCheck m.mem addr len = 0) :
    xferDone k m = xferPosted k pc ring len (modCore k (opcPut off (clipTo 262144 off (xferBytes m addr len got)))
      (access (coreXl k) addr len (xferTaken k rest m))) := by
  simp [xferDone, h.issues, h.posting, h.take, hr, xferPosted, xferTaken]

/-- R19, R303: out of the operand cache to where the octets go. -/
theorem xferDone_store (h : XferDue m k 1 len addr off ring pc got rest) {f : Mach → Mach}
    (hf : xferOut m (coreAt m k).ctx addr (clipTo 262144 off (opcGet (coreAt m k) off len)) = .ok f) :
    xferDone k m = xferPosted k pc ring len (f (access (coreXl k) addr len (xferTaken k rest m))) := by
  have hf' : xferOut (xferTaken k rest m) (coreAt m k).ctx addr (clipTo 262144 off (opcGet (coreAt m k) off len)) = .ok f := hf
  unfold xferTaken at hf'
  simp [xferDone, h.issues, h.posting, h.take, opcParBad_of_par_nil h.par, hf', xferPosted, xferTaken]

/-- R303: from staging into the operand cache. -/
theorem xferDone_stageIn (h : XferDue m k 2 len addr off ring pc got rest) :
    xferDone k m = xferPosted k pc ring len (modCore k (opcPut off (clipTo 262144 off
      (cellsGet m.mem.staging (stagAddr (clusterOf k) addr) (min len (2 ^ 22 - addr))))) (xferTaken k rest m)) := by
  simp [xferDone, h.issues, h.posting, h.take, stagParBad, h.staging, xferPosted, xferTaken]

/-- R303: out of the operand cache to staging. -/
theorem xferDone_stageOut (h : XferDue m k 3 len addr off ring pc got rest) :
    xferDone k m = xferPosted k pc ring len (onMem (stagPut (clusterOf k) addr
      (clipTo (2 ^ 22) addr (opcGet (coreAt m k) off (min len (262144 - off))))) (xferTaken k rest m)) := by
  simp [xferDone, h.issues, h.posting, h.take, opcParBad_of_par_nil h.par, xferPosted, xferTaken]

end XferDue

/-! ### Where a transfer's octets go -/

section Store

variable {m : Mach} {i va v : Nat} {bs : List Byte} (hv : objHolding m.mem va bs.length = some v)

include hv

/-- R19: a parameter or optimiser object of the context takes octets by way of the update set. -/
theorem xferOut_param (hr : readCheck m.mem va bs.length = 0) (hclass : oClass v < 2) (hctx : oCtx v = i) (hshared : oShared v = false) :
    xferOut m i va bs = .ok (modCtx i (fun c => { c with upd := c.upd ++ [⟨va, paramKind (oWidth v), bs, oId v⟩] })) := by
  have hle : oClass v ≤ 2 := by omega
  have hne : oClass v ≠ 2 := by omega
  simp [xferOut, hv, hr, hle, hne, hctx, hshared]

/-- R55: any other object of the context takes them where they are. -/
theorem xferOut_written (hw : writeCheck m.mem i va bs.length = 0) (hclass : 2 < oClass v) :
    xferOut m i va bs = .ok (onMem (vput va bs)) := by
  have hle : ¬ oClass v ≤ 2 := by omega
  simp [xferOut, hv, readCheck_of_writeCheck hw, hle, hw]

end Store

/-- R55: a span over several objects is written where it may be. -/
theorem xferOut_several {m : Mach} {i va : Nat} {bs : List Byte} (hv : objHolding m.mem va bs.length = none)
    (hw : writeCheck m.mem i va bs.length = 0) : xferOut m i va bs = .ok (onMem (vput va bs)) := by
  simp [xferOut, hv, hw]

theorem accessed_onlyAccess {a b : Mach} (h : Accessed a b) : onlyAccess a.mem b.mem := by
  rw [onlyAccess, h]

theorem coreAt_congr {a b : Mach} (h : b.cores = a.cores) (k : Nat) : coreAt b k = coreAt a k :=
  congrArg (fun l : SMap Core => l.get k {}) h

theorem coreAt_xferTaken {k : Nat} {rest : List TCmd} {m n : Mach} (h : n.cores = (xferTaken k rest m).cores) :
    coreAt n k = { coreAt m k with queue := rest } :=
  (coreAt_congr h k).trans (coreAt_modCore_self m k _)

namespace XferMoved

variable {k : Nat} {rest : List TCmd} {m n : Mach}

theorem of_cores (h : n.cores = (xferTaken k rest m).cores) : XferMoved k rest m n := ⟨by rw [coreAt_xferTaken h]⟩

theorem opcPut (h : XferMoved k rest m n) (off : Nat) (bs : List Byte) : XferMoved k rest m (modCore k (opcPut off bs) n) := by
  refine ⟨?_⟩
  rw [coreAt_modCore_self, Machine.opcPut, goodPar, h.core]

end XferMoved

/-- The access of a transfer to memory touches no core, no context and no octet. -/
theorem xferAccess_frame (x va len k : Nat) (rest : List TCmd) (m : Mach) :
    (access x va len (xferTaken k rest m)).cores = (xferTaken k rest m).cores ∧
      (access x va len (xferTaken k rest m)).ctxs = m.ctxs ∧ onlyAccess m.mem (access x va len (xferTaken k rest m)).mem := by
  have h := accessed_access x va len (xferTaken k rest m)
  have hmem : onlyAccess (xferTaken k rest m).mem _ := accessed_onlyAccess h
  exact ⟨by rw [h], by rw [h]; rfl, hmem⟩

/-- R55, R303: a transfer that writes memory moves its octets to where they go, its access notwithstanding. -/
theorem xferDone_written {m : Mach} {k len addr off ring pc : Nat} {got : List (Nat × List Byte)} {rest : List TCmd}
    (h : XferDue m k 1 len addr off ring pc got rest)
    (hf : xferOut m (coreAt m k).ctx addr (clipTo 262144 off (opcGet (coreAt m k) off len)) =
      .ok (onMem (vput addr (clipTo 262144 off (opcGet (coreAt m k) off len))))) :
    transferPosted k ring len rest (coreAt m k) (xferDone k m) ∧
      (xferDone k m).mem.phys = (vput addr (clipTo 262144 off (opcGet (coreAt m k) off len)) m.mem).phys ∧
      (xferDone k m).mem.staging = m.mem.staging ∧ (xferDone k m).ctxs = m.ctxs := by
  obtain ⟨hcores, hctxs, hmem⟩ := xferAccess_frame (coreXl k) addr len k rest m
  have hmoved : XferMoved k rest m (onMem (vput addr (clipTo 262144 off (opcGet (coreAt m k) off len)))
      (access (coreXl k) addr len (xferTaken k rest m))) := .of_cores hcores
  obtain ⟨hposted, hm, hc, -⟩ := hmoved.posted (len := len) (pc := pc) h.takes
  rw [h.xferDone_store hf, hm, hc]
  refine ⟨hposted, vput_phys_of_onlyAccess hmem, (vput_staging _ _ _).trans ?_, hctxs⟩
  rw [hmem]

/-- Settles O32: a transfer that is due moves its octets and posts its entry, by direction. -/
theorem transfersMoveOctets : Obligations.TransfersMoveOctets := by
  unfold Obligations.TransfersMoveOctets
  intro s k dir len addr off ring pc got rest hissues hposting hpar hstaging htake htakes c bs
  have hdue : XferDue s.m k dir len addr off ring pc got rest := ⟨hissues, hposting, hpar, hstaging, htake, htakes⟩
  obtain ⟨hcores, hctxs, hmem⟩ := xferAccess_frame (coreXl k) addr len k rest s.m
  have haccess : XferMoved k rest s.m (access (coreXl k) addr len (xferTaken k rest s.m)) := .of_cores hcores
  have htaken : XferMoved k rest s.m (xferTaken k rest s.m) := .of_cores rfl
  refine ⟨?_, ?_, ?_, ?_, ?_, ?_⟩
  · rintro rfl hr
    obtain ⟨hposted, hm, -, hopc⟩ := (haccess.opcPut off (clipTo 262144 off (xferBytes s.m addr len got))).posted
      (len := len) (pc := pc) htakes
    refine ⟨onM (xferDone k) s, rfl, ?_⟩
    simp only [onM, hdue.xferDone_load hr]
    refine ⟨hposted, ?_, ?_⟩
    · rw [hopc, coreAt_modCore_self, coreAt_xferTaken hcores]
      rfl
    · rw [hm]
      exact hmem
  · rintro v rfl hv hr hclass hctx hshared hi
    have hf := xferOut_param hv hr hclass hctx hshared
    have hmoved : XferMoved k rest s.m (modCtx c.ctx (fun x => { x with upd := x.upd ++ [⟨addr, paramKind (oWidth v), bs, oId v⟩] })
        (access (coreXl k) addr len (xferTaken k rest s.m))) := .of_cores hcores
    obtain ⟨hposted, hm, hc, -⟩ := hmoved.posted (len := len) (pc := pc) htakes
    refine ⟨onM (xferDone k) s, rfl, ?_⟩
    simp only [onM, hdue.xferDone_store hf]
    refine ⟨hposted, ?_, ?_⟩
    · rw [hm]
      exact hmem
    · rw [ctxAt_congr hc, ctxAt_modCtx_self _ _ _ hi, ctxAt_congr hctxs]
  · rintro v rfl hv hw hclass
    exact ⟨onM (xferDone k) s, rfl, xferDone_written hdue (xferOut_written hv hw hclass)⟩
  · rintro rfl hv hw
    exact ⟨onM (xferDone k) s, rfl, xferDone_written hdue (xferOut_several hv hw)⟩
  · rintro rfl
    obtain ⟨hposted, hm, -, hopc⟩ := (htaken.opcPut off (clipTo 262144 off
      (cellsGet s.m.mem.staging (stagAddr (clusterOf k) addr) (min len (2 ^ 22 - addr))))).posted (len := len) (pc := pc) htakes
    refine ⟨onM (xferDone k) s, rfl, ?_⟩
    simp only [onM, hdue.xferDone_stageIn]
    refine ⟨hposted, hm, ?_⟩
    rw [hopc, coreAt_modCore_self, coreAt_xferTaken rfl]
    rfl
  · rintro rfl
    have hcores : (onMem (stagPut (clusterOf k) addr (clipTo (2 ^ 22) addr (opcGet c off (min len (262144 - off)))))
        (xferTaken k rest s.m)).cores = (xferTaken k rest s.m).cores := rfl
    obtain ⟨hposted, hm, -, hopc⟩ := (XferMoved.of_cores hcores).posted (len := len) (pc := pc) htakes
    refine ⟨onM (xferDone k) s, rfl, ?_⟩
    simp only [onM, hdue.xferDone_stageOut]
    refine ⟨hposted, ?_, ?_, ?_⟩
    · rw [hopc, coreAt_xferTaken hcores]
    · rw [hm]
      rfl
    · rw [hm]
      rfl

end Sys2Proof.Proofs

namespace Sys2Proof.Proofs

open Sys2Proof.Machine Sys2Proof.Laws

/-! ### What a core's engines and side ports do in a cycle (07 R250, R259, R267, 09 R341, R346) -/

/-- The counters that a cycle counts in, other than those of a bundle that issues, of a held cycle and of a taken transfer. -/
def cycleCounters : List Nat :=
  sideCounters ++ [dkey 0x6200 0x01, dkey 0x6200 0x02, dkey 0x6200 0x09, dkey 0x6200 0x0B, dkey 0x6200 0x20, dkey 0x6200 0x28,
    dkey 0x6200 0x29, dkey 0x6300 0x05, dkey 0x6300 0x08, dkey 0x6A00 0x06, dkey 0x6100 0x07, dkey 0x6100 0x0B, dkey 0x6100 0x03,
    dkey 0x6100 0x04, dkey 0x6500 0x05, dkey 0x6400 0x08, dkey 0x6200 0x05, dkey 0x6200 0x06]

/-- `d` is the core `c` but for its arrays, its drains, accumulator memory, audits, parity and the fault record. -/
def EngineOnly (c d : Core) : Prop :=
  d = { c with
    ops := d.ops, mvs := d.mvs, banks := d.banks, heldVec := d.heldVec, heldScale := d.heldScale, drains := d.drains, acc := d.acc,
    audits := d.audits, misses := d.misses, par := d.par, fault := d.fault }

theorem engineOnly_refl (c : Core) : EngineOnly c c := rfl

theorem engineOnly_kept {c d : Core} (h : EngineOnly c d) :
    sameRegs c d ∧ d.opc = c.opc ∧ d.pc = c.pc ∧ d.loops = c.loops ∧ d.st = c.st ∧ d.rings = c.rings ∧ d.pipe = c.pipe ∧
      d.vpend = c.vpend ∧ d.aclk = c.aclk := by
  rw [h]
  exact ⟨⟨rfl, rfl, rfl, rfl⟩, rfl, rfl, rfl, rfl, rfl, rfl, rfl, rfl⟩

theorem engineOnly_trans {c d e : Core} (h : EngineOnly c d) (g : EngineOnly d e) : EngineOnly c e := by
  unfold EngineOnly at *
  rw [g, h]

/-- `b` follows from `a` by what core `k`'s engines do in a cycle. Where `idle` holds, nothing is written to its tiles. -/
structure CycleFrame (idle : Prop) (k : Nat) (a b : Mach) : Prop where
  core : EngineOnly (coreAt a k) (coreAt b k)
  acc : idle → (coreAt b k).acc = (coreAt a k).acc
  mem : b.mem = a.mem
  pwr : b.pwr = a.pwr
  counters : ∀ i j, dkey i j ∉ cycleCounters → counterOf b i j = counterOf a i j

namespace CycleFrame

variable {idle : Prop} {k : Nat}

theorem refl (m : Mach) : CycleFrame idle k m m := ⟨engineOnly_refl _, fun _ => rfl, rfl, rfl, fun _ _ _ => rfl⟩

theorem trans {a b c : Mach} (h : CycleFrame idle k a b) (g : CycleFrame idle k b c) : CycleFrame idle k a c where
  core := engineOnly_trans h.core g.core
  acc := fun hi => (g.acc hi).trans (h.acc hi)
  mem := g.mem.trans h.mem
  pwr := g.pwr.trans h.pwr
  counters := fun i j hk => (g.counters i j hk).trans (h.counters i j hk)

theorem foldl {α : Type} (f : Mach → α → Mach) (l : List α) (m : Mach) (hf : ∀ x, ∀ e ∈ l, CycleFrame idle k x (f x e)) :
    CycleFrame idle k m (l.foldl f m) :=
  List.foldlRecOn (motive := CycleFrame idle k m) l f (refl m) (fun x hx e he => hx.trans (hf x e he))

/-- The fault path reaches no core. -/
theorem of_faultPath {a b : Mach} (h : FaultPath a b) : CycleFrame idle k a b where
  core := by rw [coreAt_congr h.cores]; exact engineOnly_refl _
  acc := fun _ => by rw [coreAt_congr h.cores]
  mem := h.mem
  pwr := by rw [h.rest]
  counters := fun i j hk => h.counters _ (fun e => hk (List.mem_append_left _ (List.mem_append_left _ e)))

theorem countN (i j n : Nat) (m : Mach) (hc : dkey i j ∈ cycleCounters := by decide) : CycleFrame idle k m (countN i j n m) where
  core := by rw [coreAt_countN]; exact engineOnly_refl _
  acc := fun _ => by rw [coreAt_countN]
  mem := rfl
  pwr := rfl
  counters := fun _ _ hk => counterOf_countN_ne n m (fun e => hk (by rw [e]; exact hc))

theorem count (i j : Nat) (m : Mach) (hc : dkey i j ∈ cycleCounters := by decide) : CycleFrame idle k m (count i j m) :=
  countN i j 1 m hc

/-- An update of the core of this kind. -/
theorem setCore {c : Core} {m : Mach} (hc : EngineOnly (coreAt m k) c) (ha : idle → c.acc = (coreAt m k).acc) :
    CycleFrame idle k m (setCore k c m) where
  core := by rw [coreAt_setCore_self]; exact hc
  acc := fun hi => by rw [coreAt_setCore_self]; exact ha hi
  mem := rfl
  pwr := rfl
  counters := fun _ _ _ => rfl

theorem ite {p : Prop} [Decidable p] {m a b : Mach} (ha : p → CycleFrame idle k m a) (hb : ¬ p → CycleFrame idle k m b) :
    CycleFrame idle k m (if p then a else b) := by
  split
  · exact ha ‹_›
  · exact hb ‹_›

/-! Faults. -/

theorem setFault (rb : List Byte) (m : Mach) : CycleFrame idle k m (Machine.setCore k { coreAt m k with fault := rb } m) :=
  setCore rfl (fun _ => rfl)

theorem recordFault (code slot : Nat) (prog bundle : Bool) (pc detail : Nat) (m : Mach) :
    CycleFrame idle k m (recordFault k code slot prog bundle pc detail m) := by
  unfold Machine.recordFault
  exact ((setFault _ m).trans (count 0x6100 0x0A _)).trans (of_faultPath (FaultPath.stepUsed _ id _ (FaultPath.refl _)))

theorem coreFault (code slot : Nat) (bundle : Bool) (pc detail : Nat) (m : Mach) :
    CycleFrame idle k m (coreFault k code slot bundle pc detail m) :=
  (recordFault _ _ _ _ _ _ m).trans (of_faultPath (FaultPath.progFault _ _ _))

theorem coreError (code slot : Nat) (bundle : Bool) (pc detail : Nat) (m : Mach) :
    CycleFrame idle k m (coreError k code slot bundle pc detail m) :=
  (recordFault _ _ _ _ _ _ m).trans (of_faultPath (FaultPath.ctxError _ _ _))

theorem mxError (code pc detail : Nat) (m : Mach) : CycleFrame idle k m (mxError k code pc detail m) :=
  (count 0x6200 0x0C m).trans (coreError _ _ _ _ _ _)

theorem veError (code pc detail : Nat) (m : Mach) : CycleFrame idle k m (veError k code pc detail m) :=
  (count 0x6300 0x09 m).trans (coreError _ _ _ _ _ _)

/-- What the feeders find. -/
theorem feedFaults (c : Core) (m : Mach) : CycleFrame idle k m (feedFaults k c m) := by
  unfold Machine.feedFaults
  refine ((foldl _ _ m (fun x o _ => ?_)).trans (foldl _ _ _ (fun x b _ => ?_))).trans (foldl _ _ _ (fun x o _ => ?_))
  · exact ite (fun _ => refl x) (fun _ => ite (fun _ => coreFault _ _ _ _ _ x) (fun _ => ite (fun _ => mxError _ _ _ x) (fun _ => refl x)))
  · exact ite (fun _ => mxError _ _ _ x) (fun _ => refl x)
  · exact ite (fun _ => mxError _ _ _ x) (fun _ => ite (fun _ => mxError _ _ _ x) (fun _ => refl x))

/-! Tiles. -/

theorem of_rowsWritten {c d : Core} (h : RowsWritten c d) : EngineOnly c d := by
  rw [EngineOnly, h.core]

/-- A compact write-back whose step number fails its complement is a fault (R503). -/
theorem writeRows (o : MxOp) (rows : List (Nat × Nat × List Nat)) (m : Mach) (hi : ¬ idle) :
    CycleFrame idle k m (writeRows k o rows m) := by
  by_cases h : (cCompact o.cfg && !stepPairOk (ctxAt m (coreAt m k).ctx)) = true
  · have he : Machine.writeRows k o rows m = stepFault (coreAt m k).ctx m := if_pos h
    rw [he]
    exact of_faultPath (FaultPath.stepFault _ m)
  · have hs : DrawsSoundly m k o.cfg := fun hc => by simpa [hc] using h
    obtain ⟨r, hr, -, -, he⟩ := writeRows_cases rows hs
    rw [he]
    exact (((setCore (of_rowsWritten (hr.trans (rowsWritten_withAudits _ _))) (fun h => absurd h hi)).trans (countN _ _ _ _)).trans
      (countN _ _ _ _)).trans (countN _ _ _ _)

theorem writeMv (o : MvOp) (m : Mach) (hi : ¬ idle) : CycleFrame idle k m (writeMv k o m) := by
  by_cases h : (cCompact o.cfg && !stepPairOk (ctxAt m (coreAt m k).ctx)) = true
  · have he : Machine.writeMv k o m = stepFault (coreAt m k).ctx m := if_pos h
    rw [he]
    exact of_faultPath (FaultPath.stepFault _ m)
  · obtain ⟨hrows, hmem, hcnt⟩ := writeMv_frame (fun hc => by simpa [hc] using h : DrawsSoundly m k o.cfg)
    have he : Machine.writeMv k o m = Machine.setCore k _ m := if_neg h
    exact ⟨of_rowsWritten hrows, fun h => absurd h hi, hmem, by rw [he]; rfl, fun i j _ => counterOf_congr hcnt i j⟩

/-- What is written to the tiles in a cycle: nothing where no operation is in flight. -/
theorem settleCycle (m : Mach) (hidle : idle → (coreAt m k).ops = [] ∧ (coreAt m k).mvs = []) :
    CycleFrame idle k m (settleCycle k m) := by
  unfold Machine.settleCycle
  refine ((foldl _ _ m (fun x o ho => ?_)).trans (foldl _ _ _ (fun x o ho => ?_))).trans (setCore (by exact rfl) (fun _ => rfl))
  · have hi : ¬ idle := fun hi => by simp [(hidle hi).1] at ho
    exact ite (fun _ => ite (fun _ => mxError _ _ _ x) (fun _ => refl x))
      (fun _ => (ite (fun _ => mxError _ _ _ x) (fun _ => refl x)).trans (writeRows o _ _ hi))
  · have hi : ¬ idle := fun hi => by simp [(hidle hi).2] at ho
    exact ite (fun _ => writeMv o x hi) (fun _ => refl x)

/-- Vector loads reach the held vectors. -/
theorem engineOnly_feedMv (now : Nat) (c : Core) (o : MvOp) : EngineOnly c (feedMv now c o).1 ∧ (feedMv now c o).1.acc = c.acc :=
  List.foldlRecOn (motive := fun d => EngineOnly c d ∧ d.acc = c.acc) _ _ ⟨engineOnly_refl c, rfl⟩
    (fun d hd p _ => ⟨engineOnly_trans hd.1 (by exact rfl), hd.2⟩)

/-- The core, the matrix-vector operations and the count of saturations that a cycle's reads of these operations come to. -/
def fedMvs (c : Core) : Core × List MvOp × Nat :=
  c.mvs.foldl (fun acc o =>
    let (c1, o1, n) := feedMv c.aclk acc.1 o
    (c1, acc.2.1 ++ [o1], acc.2.2 + n)) (c, [], 0)

theorem engineOnly_fedMvs (c : Core) : EngineOnly c (fedMvs c).1 ∧ (fedMvs c).1.acc = c.acc :=
  foldl_keeps (fun r : Core × List MvOp × Nat => EngineOnly c r.1 ∧ r.1.acc = c.acc) _ _ _ ⟨engineOnly_refl c, rfl⟩
    (fun r o hr =>
      have ho := engineOnly_feedMv c.aclk r.1 o
      ⟨engineOnly_trans hr.1 ho.1, ho.2.trans hr.2⟩)

/-- What the arrays, the weight feeders and the matrix-vector path do in a cycle. -/
theorem feedCycle (m : Mach) (hidle : idle → (coreAt m k).ops = [] ∧ (coreAt m k).mvs = []) :
    CycleFrame idle k m (feedCycle k m) := by
  have hmv := engineOnly_fedMvs (coreAt m k)
  unfold Machine.feedCycle
  refine (((((((setCore ?_ ?_).trans (countN _ _ _ _)).trans (countN _ _ _ _)).trans (countN _ _ _ _)).trans (countN _ _ _ _)).trans
    (countN _ _ _ _)).trans (settleCycle _ (fun hi => ?_))).trans (feedFaults _ _)
  · exact engineOnly_trans hmv.1 rfl
  · exact fun _ => hmv.2
  · simp only [coreAt_countN, coreAt_setCore_self, (hidle hi).1, (hidle hi).2]
    exact ⟨rfl, rfl⟩

/-! Side ports. -/

theorem readRow (d : Drain) (m : Mach) : CycleFrame idle k m (readRow k d m) := by
  have hdrains (f : Core → List Drain) (x : Mach) : CycleFrame idle k x (modCore k (fun c => { c with drains := f c }) x) :=
    setCore rfl (fun _ => rfl)
  unfold Machine.readRow
  exact (ite (fun _ => mxError _ _ _ m) (fun _ => ite (fun _ => veError _ _ _ m) (fun _ => refl m))).trans (hdrains _ _)

theorem drainCycle (lanes : Bool) (busy : List Bool) (m : Mach) : CycleFrame idle k m (drainCycle lanes busy k m) := by
  refine foldl _ _ m (fun x arr _ => ?_)
  split
  · exact refl x
  · exact ite (fun _ => refl x) (fun _ => (readRow _ x).trans (count _ _ _))

/-- The side ports where no debug instruction waits for one. -/
theorem sideCycle (lanes : Bool) (before : Core) (m : Mach) (hdbg : (coreAt m k).dbgOps = []) :
    CycleFrame idle k m (sideCycle lanes before k m) := by
  have hnone (busy : List Bool) (x : Mach) (hx : (coreAt x k).dbgOps = []) : dbgCycle busy k x = x := by
    simp [dbgCycle, hx]
  have hdrain : CycleFrame idle k m (Machine.drainCycle lanes [sidePort before 0, sidePort before 1] k
      (Machine.countN 0x6A00 0x06 (queueWaits m k)
        (if rowWaits lanes [sidePort before 0, sidePort before 1] (coreAt m k) || queueWaits m k != 0
          then Machine.count 0x6300 0x05 m else m))) :=
    ((ite (fun _ => count _ _ m) (fun _ => refl m)).trans (countN _ _ _ _)).trans (drainCycle _ _ _)
  unfold Machine.sideCycle
  dsimp only
  rw [hnone]
  · exact hdrain
  · rw [hdrain.core]
    exact hdbg

end CycleFrame

/-! ### Cycles in which nothing issues (08 R271, R286, 16 R536, R537) -/

/-- A cycle of the core's own count. -/
def tick (c : Core) : Core := { c with aclk := c.aclk + 1 }

theorem gatedCycle_eq (k : Nat) (m : Mach) : gatedCycle k m = modCore k tick (feedCycle k m) := rfl

theorem stillCycle_eq (k : Nat) (m : Mach) :
    stillCycle k m = modCore k tick (sideCycle false (coreAt m k) k (feedCycle k m)) := rfl

/-- The engines' part of a cycle in which no debug instruction waits for a side port. -/
theorem CycleFrame.feedSide {idle : Prop} {k : Nat} {m : Mach} (lanes : Bool) (before : Core)
    (hidle : idle → (coreAt m k).ops = [] ∧ (coreAt m k).mvs = []) (hdbg : (coreAt m k).dbgOps = []) :
    CycleFrame idle k m (Machine.sideCycle lanes before k (Machine.feedCycle k m)) := by
  have hfeed := CycleFrame.feedCycle m hidle
  exact hfeed.trans (.sideCycle lanes before _ (by rw [hfeed.core]; exact hdbg))

theorem gate_lt (m : Mach) (k : Nat) : gate m k < 3 := by
  unfold gate
  dsimp only
  split
  · decide
  · split <;> decide

/-- R536, R537: a gated cycle is a cycle of the engines alone. -/
theorem bundleIssue_gated {k : Nat} {m : Mach} (hhas : m.cores.has k = true) (hissues : issues m (coreAt m k) = true)
    (hgate : gate m k ≠ 0) (hdbg : (coreAt m k).dbgOps = []) :
    ∃ n, bundleIssue k m = modCore k tick n ∧ CycleFrame False k m n := by
  have hlt := gate_lt m k
  by_cases h2 : gate m k = 2
  · exact ⟨feedCycle k m, by simp [bundleIssue, hhas, hissues, h2, gatedCycle_eq], .feedCycle m False.elim⟩
  · have h1 : gate m k = 1 := by omega
    exact ⟨sideCycle false (coreAt m k) k (feedCycle k m), by simp [bundleIssue, hhas, hissues, h1, stillCycle_eq],
      .feedSide false _ False.elim hdbg⟩

/-! ### Between bundles (08 R286, R287, R306) -/

theorem dropLoops_of_live {c : Core} (h : c.loops.all (fun l => l.left != 0) = true) : dropLoops c = c := by
  have hl : c.loops.filter (fun l => l.left != 0) = c.loops := List.filter_eq_self.mpr (List.all_eq_true.mp h)
  rw [dropLoops, hl]

/-- R306: between bundles, the next one is held or issues. -/
theorem bundleIssue_between {m : Mach} {k : Nat} (h : betweenBundles m k) :
    bundleIssue k m = if holdBits (modCore k dropLoops m) k (coreAt m k) (nextBundle (coreAt m k)) ≠ 0
      then heldCycle k (holdBits (modCore k dropLoops m) k (coreAt m k) (nextBundle (coreAt m k))) (modCore k dropLoops m)
      else issueBundle k (modCore k dropLoops m) := by
  obtain ⟨hhas, hissues, hdbg, hst, hring, hbreak, hloops, hgate, hbubble, hpar, -, -⟩ := h
  have hc : coreAt (modCore k dropLoops m) k = coreAt m k := by rw [coreAt_modCore_self, dropLoops_of_live hloops]
  have himem : imemParity (coreAt m k) = none := by simp [imemParity, hpar]
  simp [bundleIssue, hhas, hissues, hgate, hdbg, hbubble, hst, hbreak, hc, hring, himem]

/-! ### A held cycle (08 R306) -/

/-- The conditions that hold a bundle are counted, and the core stays. -/
structure HeldCounted (k : Nat) (a b : Mach) : Prop where
  frame : CycleFrame False k a b
  core : coreAt b k = coreAt a k

namespace HeldCounted

variable {k : Nat}

theorem trans {a b c : Mach} (h : HeldCounted k a b) (g : HeldCounted k b c) : HeldCounted k a c :=
  ⟨h.frame.trans g.frame, g.core.trans h.core⟩

theorem countIf (p : Prop) [Decidable p] (i j : Nat) (m : Mach) (hc : dkey i j ∈ cycleCounters := by decide) :
    HeldCounted k m (if p then count i j m else m) := by
  split
  · exact ⟨.count i j m hc, rfl⟩
  · exact ⟨.refl m, rfl⟩

end HeldCounted

theorem heldCycle_eq (k bits : Nat) (m : Mach) :
    ∃ n, HeldCounted k m n ∧
      heldCycle k bits m = stillCycle k (count 0x6100 0x02 (modCore k (fun c => { c with held := c.held ||| bits }) n)) :=
  ⟨_, (((((HeldCounted.countIf _ _ _ m).trans (.countIf _ _ _ _)).trans (.countIf _ _ _ _)).trans (.countIf _ _ _ _)).trans
    (.countIf _ _ _ _)).trans (.countIf _ _ _ _), rfl⟩

/-- R271, R305, R306: what a held cycle leaves, and its count. -/
theorem heldCycle_frame {k bits : Nat} {m : Mach} (hdbg : (coreAt m k).dbgOps = []) :
    ∃ a n, coreAt a k = { coreAt m k with held := (coreAt m k).held ||| bits } ∧ a.mem = m.mem ∧
      counterOf a 0x6100 0x02 = counterOf (count 0x6100 0x02 m) 0x6100 0x02 ∧
      CycleFrame ((coreAt m k).ops = [] ∧ (coreAt m k).mvs = []) k a n ∧ heldCycle k bits m = modCore k tick n := by
  obtain ⟨b, hb, he⟩ := heldCycle_eq k bits m
  have hcore : coreAt (count 0x6100 0x02 (modCore k (fun c => { c with held := c.held ||| bits }) b)) k =
      { coreAt m k with held := (coreAt m k).held ||| bits } := by
    rw [count, coreAt_countN, coreAt_modCore_self, hb.core]
  refine ⟨count 0x6100 0x02 (modCore k (fun c => { c with held := c.held ||| bits }) b), _, hcore, hb.frame.mem, ?_,
    .feedSide false _ ?_ ?_, he.trans (stillCycle_eq _ _)⟩
  · rw [count, count, counterOf_countN_self, counterOf_countN_self, counterOf_modCore, hb.frame.counters _ _ (by decide)]
  · rw [hcore]
    exact id
  · rw [hcore]
    exact hdbg

/-! ### The S slot alone (08 R278, R282, R286, R287, R308) -/

theorem regParity_of_par_nil {c : Core} (h : c.par = []) (slot w : Nat) : regParity c slot w = none := by
  have hnone : (slotReads slot w).find? (fun r => c.par.contains (regWord r)) = none := List.find?_eq_none.mpr (by simp [h])
  rw [regParity, hnone]

theorem readParity_of_par_nil {c : Core} (h : c.par = []) (slot w : Nat) : readParity c slot w = none := by
  have hnone : (issueReads c slot w).2.find? (fun s => opcParBad c [s]) = none :=
    List.find?_eq_none.mpr (by simp [opcParBad_of_par_nil h])
  simp [readParity, accParBad, h, hnone]

/-- An empty slot word does nothing; where p0 is off, its guard is counted (R278). -/
def emptySlot (c : Core) : Mach → Mach := if guardOn c.p 0 then id else count 0x6100 0x07

theorem issue_empty (m : Mach) (k : Nat) (c : Core) :
    issueM m k c 0 = .ok id ∧ issueV m k c 0 = .ok id ∧ issueT k c 0 = .ok id := ⟨rfl, rfl, rfl⟩

/-- A bundle with a word in its S slot alone does what that word does, where its guard is on. -/
theorem bundleEffect_scalarOnly {m : Mach} {k w : Nat} {c : Core} {f : Mach → Mach} (hpar : c.par = []) (h : scalarOnly c w)
    (hf : guardOn c.p w = true → sLegal w = true ∧ issueS m k c w = .ok f) :
    bundleEffect m k c (nextBundle c) =
      .ok (fun n => emptySlot c (emptySlot c (emptySlot c ((if guardOn c.p w then f else count 0x6100 0x07) n)))) := by
  obtain ⟨hs, hm, hv, ht, -⟩ := h
  obtain ⟨hem, hev, het⟩ := issue_empty m k c
  have hlegal : mLegal 0 = true ∧ vLegal 0 = true ∧ tLegal 0 = true ∧ swOp 0 = 0 := by decide
  obtain ⟨hlm, hlv, hlt, hop⟩ := hlegal
  unfold bundleEffect
  have hls := fun hon => (hf hon).1
  have hes := fun hon => (hf hon).2
  by_cases hon : guardOn c.p w = true <;> by_cases h0 : guardOn c.p 0 = true <;>
    simp [hs, hm, hv, ht, hpar, hon, h0, slotLegal, regParity_of_par_nil hpar, readParity_of_par_nil hpar, hls, hes, hlm, hlv, hlt, hem,
      hev, het, hop, emptySlot] <;>
    rfl

theorem holdBits_scalarOnly {m : Mach} {k w : Nat} {c : Core} (hring : c.inRing = false) (h : scalarOnly c w) :
    holdBits m k c (nextBundle c) = 0 := by
  obtain ⟨-, hm, hv, ht, -⟩ := h
  have hop : swOp 0 = 0 := rfl
  simp [holdBits, ringWait, hring, hm, hv, ht, hop, mTile]

/-- R287: a word that is no transfer, or whose guard is off, goes on to the next bundle, or back in a loop. -/
theorem flowOf_straight {c : Core} {w : Nat} {on : Bool} (hring : c.inRing = false) (h : on = true → swOp w < 0x30) :
    flowOf c w on = ⟨(bodyEnd c.pc c.loops).1, false, false, .running, c.retPc, (bodyEnd c.pc c.loops).2⟩ := by
  unfold flowOf seqNext
  cases on with
  | false => simp [hring]
  | true =>
    have hop := h rfl
    simp only [hring, Bool.not_true, Bool.false_eq_true, if_false]
    split
    case h_9 => rfl
    all_goals omega

/-- R286: `sc.jmp` goes to its target. -/
theorem flowOf_jump {c : Core} {w : Nat} (hring : c.inRing = false) (h : swOp w = 0x30) :
    flowOf c w true = ⟨fld w 21 11, false, true, .running, c.retPc, c.loops⟩ := by
  simp [flowOf, h, hring]

/-! ### A bundle with an S-slot word alone issues (08 R269, R278, R282, R286, R320) -/

/-- The scalar registers. -/
def withS (r : Tab Nat 32) (c : Core) : Core := { c with s := r }

theorem engineOnly_withS {r : Tab Nat 32} {c d : Core} (h : EngineOnly c d) : EngineOnly (withS r c) (withS r d) := by
  unfold EngineOnly withS at *
  rw [h]

/-- A bundle's effect, where the scalar registers stand as core `c` has them, leaves them at `r`, and is otherwise none that the engines
of the core do not have in a cycle. -/
def LeavesS (k : Nat) (r : Tab Nat 32) (c : Core) (f : Mach → Mach) : Prop :=
  ∀ n, (coreAt n k).s = c.s → CycleFrame False k (modCore k (withS r) n) (f n)

theorem leavesS_setS (k rd v : Nat) (c : Core) : LeavesS k (c.s.set rd (v % 2 ^ 32)) c (modCore k (setS rd v)) := by
  intro n hn
  refine ⟨?_, False.elim, rfl, rfl, fun _ _ _ => rfl⟩
  rw [coreAt_modCore_self, coreAt_modCore_self, withS, setS, hn]
  rfl

/-- What leaves the core to its engines leaves the registers. -/
theorem leavesS_of_frame {k : Nat} {c : Core} {f : Mach → Mach} (hf : ∀ n, CycleFrame False k n (f n)) : LeavesS k c.s c f := by
  intro n hn
  refine CycleFrame.trans (b := n) ⟨?_, False.elim, rfl, rfl, fun _ _ _ => rfl⟩ (hf n)
  rw [coreAt_modCore_self, withS, ← hn]
  exact engineOnly_refl _

theorem LeavesS.trans {k : Nat} {r : Tab Nat 32} {c : Core} {f g : Mach → Mach} (h : LeavesS k r c f)
    (hg : ∀ n, CycleFrame False k n (g n)) : LeavesS k r c (fun n => g (f n)) :=
  fun n hn => (h n hn).trans (hg _)

theorem cycleFrame_emptySlot (k : Nat) (c : Core) (n : Mach) : CycleFrame False k n (emptySlot c n) := by
  unfold emptySlot
  split
  · exact .refl n
  · exact .count _ _ n

/-- The pipeline goes on, and no write of it is under way. -/
def pipeEnd (c : Core) : Core := { c with vpend := [], pipe := c.pipe + 1 }

/-- R320: a pipeline cycle with no write under way. -/
theorem applyPending_nil (t : Option Nat) {k : Nat} {m : Mach} (h : (coreAt m k).vpend = []) :
    applyPending t k m = countN 0x6300 0x08 0 (setCore k (pipeEnd (coreAt m k)) m) := by
  simp [applyPending, h, pipeEnd]

/-- The core after a bundle that goes on by `f`, and begins no layer drain. -/
def goneOn (f : Machine.Flow) (halts : Bool) (c : Core) : Core :=
  { c with
    pc := f.pc, inRing := f.inRing, retPc := f.retPc, loops := f.loops, st := if c.st == .running then f.st else c.st,
    held := 0, aclk := c.aclk + 1, dbgPass := false, dbgStep := false,
    dbg := if halts then 2 else c.dbg }

/-- `b` follows from `a` by the issue of a bundle that goes on by `f` and leaves the scalar registers at `r`: the engines do their part
of the cycle, and the pipeline goes on. -/
structure Issued (k : Nat) (r : Tab Nat 32) (f : Machine.Flow) (a b : Mach) : Prop where
  core : ∃ d halts, EngineOnly (withS r (coreAt a k)) d ∧ coreAt b k = goneOn f halts (pipeEnd d)
  mem : b.mem = a.mem
  pwr : b.pwr = a.pwr
  counters : ∀ i j, dkey i j ∉ cycleCounters → counterOf b i j = counterOf (count 0x6100 0x01 a) i j

theorem takeSlot_of_resident {k : Nat} {m : Mach} (h : (coreAt m k).inRing = false) : takeSlot k m = m := by
  simp [takeSlot, h]

theorem leaveSlot_of_resident {k : Nat} {ret : Bool} {m : Mach} (h : (coreAt m k).inRing = false) : leaveSlot k ret m = m := by
  simp [leaveSlot, h]

theorem counterOf_count_congr {a b : Mach} {i j : Nat} (x y : Nat) (h : counterOf a i j = counterOf b i j) :
    counterOf (count x y a) i j = counterOf (count x y b) i j := by
  by_cases e : dkey i j = dkey x y
  · simp only [counterOf, count, countN, e, smap_get_put_self] at h ⊢
    rw [h]
  · rw [counterOf_count_ne a e, counterOf_count_ne b e, h]

/-- The end of the cycle in which a bundle of core `c` issues: pending writes, the core's way on, and the debug step that it ends
(R316). -/
def bundleEnd (k : Nat) (f : Machine.Flow) (c : Core) (t : Option Nat) (n : Mach) : Mach :=
  (if c.dbgStep then count 0x6100 0x0B else id) (modCore k (goneOn f c.dbgStep) (applyPending t k n))

/-- The end of the cycle adds to what the engines and the bundle have done by then. -/
theorem issued_bundleEnd {k : Nat} {r : Tab Nat 32} {f : Machine.Flow} {a n : Mach} (c : Core) (t : Option Nat)
    (hcore : EngineOnly (withS r (coreAt a k)) (coreAt n k)) (hvpend : (coreAt a k).vpend = []) (hmem : n.mem = a.mem)
    (hpwr : n.pwr = a.pwr)
    (hcounters : ∀ i j, dkey i j ∉ cycleCounters → counterOf n i j = counterOf (count 0x6100 0x01 a) i j) :
    Issued k r f a (bundleEnd k f c t n) := by
  have hpend : applyPending t k n = countN 0x6300 0x08 0 (setCore k (pipeEnd (coreAt n k)) n) :=
    applyPending_nil t (by rw [hcore]; exact hvpend)
  have hkept : CycleFrame False k (modCore k (goneOn f c.dbgStep) (applyPending t k n)) (bundleEnd k f c t n) ∧
      coreAt (bundleEnd k f c t n) k = coreAt (modCore k (goneOn f c.dbgStep) (applyPending t k n)) k := by
    unfold bundleEnd
    split
    · exact ⟨.count _ _ _, rfl⟩
    · exact ⟨.refl _, rfl⟩
  obtain ⟨hframe, hat⟩ := hkept
  rw [hpend] at hframe hat
  refine ⟨⟨coreAt n k, c.dbgStep, hcore, ?_⟩, hframe.mem.trans hmem, hframe.pwr.trans hpwr, fun i j hk => ?_⟩
  · rw [hat, coreAt_modCore_self, coreAt_countN, coreAt_setCore_self]
  · have hcount := (CycleFrame.countN (idle := False) (k := k) 0x6300 0x08 0 (setCore k (pipeEnd (coreAt n k)) n)).counters i j hk
    exact (hframe.counters i j hk).trans (hcount.trans (hcounters i j hk))

section Issue

variable {k w : Nat} {r : Tab Nat 32} {f : Machine.Flow} {m : Mach} {eff : Mach → Mach}

/-- R269: the cycle of a bundle of resident code that issues. -/
theorem issueBundle_eq (hw : slotWord (nextBundle (coreAt m k)) 0 = w) (hstep : stepPairOk (ctxAt m (coreAt m k).ctx) = true)
    (hbank : scalarBank (coreAt m k) w = none) (heff : bundleEffect m k (coreAt m k) (nextBundle (coreAt m k)) = .ok eff)
    (htake : takeSlot k (feedCycle k m) = feedCycle k m)
    (hleave : ∀ ret, leaveSlot k ret (eff (count 0x6100 0x01 (feedCycle k m))) = eff (count 0x6100 0x01 (feedCycle k m)))
    (hst : f.st = .running) (hflow : flowOf (coreAt (feedCycle k m) k) w (guardOn (coreAt m k).p w) = f) :
    ∃ lanes t n, n = bundleEnd k f (coreAt m k) t (sideCycle lanes (coreAt m k) k (eff (count 0x6100 0x01 (feedCycle k m)))) ∧
      issueBundle k m = if f.taken then bubbleCycle k (count 0x6100 0x06 n) else n := by
  have hlayer : (f.st == CoreSt.layer) = false := by rw [hst]; rfl
  refine ⟨guardOn (coreAt m k).p (slotWord (nextBundle (coreAt m k)) 2) && usesLanes (slotWord (nextBundle (coreAt m k)) 2),
    if guardOn (coreAt m k).p w then sTarget w else none, _, rfl, ?_⟩
  simp only [issueBundle, hstep, hw, hbank, heff, htake, hflow, hleave, hlayer, Bool.not_true, Bool.false_eq_true, if_false, bundleEnd]
  cases (coreAt m k).dbgStep <;> simp only [Bool.false_eq_true, if_true, if_false, id] <;> rfl

/-- R269, R278, R320: a bundle of resident code whose effect reaches scalar registers alone issues. -/
theorem issueBundle_issued (hw : slotWord (nextBundle (coreAt m k)) 0 = w) (hstep : stepPairOk (ctxAt m (coreAt m k).ctx) = true)
    (hbank : scalarBank (coreAt m k) w = none) (heff : bundleEffect m k (coreAt m k) (nextBundle (coreAt m k)) = .ok eff)
    (hring : (coreAt m k).inRing = false) (hvpend : (coreAt m k).vpend = []) (hdbg : (coreAt m k).dbgOps = [])
    (hr : LeavesS k r (coreAt m k) eff) (hst : f.st = .running)
    (hf : ∀ d, EngineOnly (coreAt m k) d → flowOf d w (guardOn (coreAt m k).p w) = f) :
    ∃ n, Issued k r f m n ∧ issueBundle k m = if f.taken then bubbleCycle k (count 0x6100 0x06 n) else n := by
  have hfeed : CycleFrame False k m (feedCycle k m) := .feedCycle m False.elim
  have heffect := hr (count 0x6100 0x01 (feedCycle k m)) (by rw [count, coreAt_countN, hfeed.core])
  have hcore : EngineOnly (withS r (coreAt m k)) (coreAt (eff (count 0x6100 0x01 (feedCycle k m))) k) := by
    refine engineOnly_trans ?_ heffect.core
    rw [coreAt_modCore_self]
    exact engineOnly_withS hfeed.core
  have htake : takeSlot k (feedCycle k m) = feedCycle k m := takeSlot_of_resident (by rw [hfeed.core]; exact hring)
  obtain ⟨lanes, t, n, hn, he⟩ := issueBundle_eq hw hstep hbank heff htake
    (fun _ => leaveSlot_of_resident (by rw [hcore]; exact hring)) hst (hf _ hfeed.core)
  have hside := CycleFrame.sideCycle (idle := False) lanes (coreAt m k) _
    (show (coreAt (eff (count 0x6100 0x01 (feedCycle k m))) k).dbgOps = [] by rw [hcore]; exact hdbg)
  refine ⟨n, hn ▸ issued_bundleEnd _ t (engineOnly_trans hcore hside.core) hvpend ?_ ?_ (fun i j hk => ?_), he⟩
  · exact hside.mem.trans (heffect.mem.trans hfeed.mem)
  · exact hside.pwr.trans (heffect.pwr.trans hfeed.pwr)
  · exact (hside.counters i j hk).trans ((heffect.counters i j hk).trans (counterOf_count_congr 0x6100 0x01 (hfeed.counters i j hk)))

end Issue

namespace Issued

variable {k : Nat} {r : Tab Nat 32} {f : Machine.Flow} {a b : Mach}

/-- What a program sees of the core, and what the next cycle begins from. -/
theorem kept (h : Issued k r f a b) :
    (coreAt b k).s = r ∧ (coreAt b k).a = (coreAt a k).a ∧ (coreAt b k).p = (coreAt a k).p ∧ (coreAt b k).v = (coreAt a k).v ∧
      (coreAt b k).opc = (coreAt a k).opc ∧ (coreAt b k).pc = f.pc ∧ (coreAt b k).loops = f.loops ∧
      (coreAt b k).aclk = (coreAt a k).aclk + 1 ∧ (coreAt b k).bubble = (coreAt a k).bubble ∧ (coreAt b k).vpend = [] ∧
      (coreAt b k).dbgOps = (coreAt a k).dbgOps := by
  obtain ⟨d, halts, hd, he⟩ := h.core
  rw [he, hd]
  exact ⟨rfl, rfl, rfl, rfl, rfl, rfl, rfl, rfl, rfl, rfl, rfl⟩

/-- R346: a bundle that issues is counted. -/
theorem countedOnce (h : Issued k r f a b) : countedOnce 0x6100 0x01 a b :=
  (h.counters _ _ (by decide)).trans (countedOnce_count _ _ a)

end Issued

/-- R286: a cycle in which nothing issues and the pipelines go on. -/
theorem emptyCycle_frame {k : Nat} {m : Mach} (hvpend : (coreAt m k).vpend = []) (hdbg : (coreAt m k).dbgOps = []) :
    ∃ d, EngineOnly (coreAt m k) d ∧ coreAt (emptyCycle k m) k = tick (pipeEnd d) ∧ (emptyCycle k m).mem = m.mem ∧
      ∀ i j, dkey i j ∉ cycleCounters → counterOf (emptyCycle k m) i j = counterOf m i j := by
  obtain ⟨n, hn⟩ : ∃ n, n = sideCycle false (coreAt m k) k (feedCycle k m) := ⟨_, rfl⟩
  have hframe : CycleFrame False k m n := hn ▸ .feedSide false (coreAt m k) False.elim hdbg
  have he : emptyCycle k m = modCore k tick (applyPending none k n) := hn ▸ rfl
  rw [he, applyPending_nil none (by rw [hframe.core]; exact hvpend)]
  refine ⟨coreAt n k, hframe.core, ?_, hframe.mem, fun i j hk => ?_⟩
  · rw [coreAt_modCore_self, coreAt_countN, coreAt_setCore_self]
  · have hcount := (CycleFrame.countN (idle := False) (k := k) 0x6300 0x08 0 (setCore k (pipeEnd (coreAt n k)) n)).counters i j hk
    exact hcount.trans (hframe.counters i j hk)

/-- Whether a cycle is gated is a matter of the die's power and of the core's count of cycles. -/
theorem gate_congr {a b : Mach} {k : Nat} (hpwr : b.pwr = a.pwr) (haclk : (coreAt b k).aclk = (coreAt a k).aclk) :
    gate b k = gate a k := by
  simp only [gate, hpwr, haclk]

/-- R286, R537: the cycle after a taken transfer passes with nothing issued, or is still to come. -/
theorem bubbleCycle_frame {k : Nat} {m : Mach} (hvpend : (coreAt m k).vpend = []) (hdbg : (coreAt m k).dbgOps = []) :
    sameRegs (coreAt m k) (coreAt (bubbleCycle k m) k) ∧ (coreAt (bubbleCycle k m) k).opc = (coreAt m k).opc ∧
      (coreAt (bubbleCycle k m) k).pc = (coreAt m k).pc ∧ (coreAt (bubbleCycle k m) k).loops = (coreAt m k).loops ∧
      (bubbleCycle k m).mem = m.mem ∧
      (gate m k = 0 → (coreAt (bubbleCycle k m) k).aclk = (coreAt m k).aclk + 1 ∧
        (coreAt (bubbleCycle k m) k).bubble = (coreAt m k).bubble) ∧
      (gate m k ≠ 0 → (coreAt (bubbleCycle k m) k).aclk = (coreAt m k).aclk ∧ (coreAt (bubbleCycle k m) k).bubble = true) ∧
      ∀ i j, dkey i j ∉ cycleCounters → counterOf (bubbleCycle k m) i j = counterOf m i j := by
  by_cases hgate : gate m k = 0
  · have hb : bubbleCycle k m = emptyCycle k m := if_pos (beq_iff_eq.mpr hgate)
    obtain ⟨d, hd, he, hmem, hcounters⟩ := emptyCycle_frame hvpend hdbg
    rw [hb, he, hd]
    exact ⟨⟨rfl, rfl, rfl, rfl⟩, rfl, rfl, rfl, hmem, fun _ => ⟨rfl, rfl⟩, fun h => absurd hgate h, hcounters⟩
  · have hb : bubbleCycle k m = modCore k (fun c => { c with bubble := true }) m := if_neg (by simpa using hgate)
    rw [hb, coreAt_modCore_self]
    exact ⟨⟨rfl, rfl, rfl, rfl⟩, rfl, rfl, rfl, rfl, fun h => absurd h hgate, fun _ => ⟨rfl, rfl⟩, fun _ _ _ => rfl⟩

/-- The way on to the next bundle, or back in a loop. -/
def straightOn (c : Core) : Machine.Flow := ⟨(bodyEnd c.pc c.loops).1, false, false, .running, c.retPc, (bodyEnd c.pc c.loops).2⟩

section Turn

variable {m : Mach} {k w : Nat} {r : Tab Nat 32} {g : Mach → Mach} (hb : betweenBundles m k) (hsc : scalarOnly (coreAt m k) w)
  (hg : guardOn (coreAt m k).p w = true → sLegal w = true ∧ issueS (modCore k dropLoops m) k (coreAt m k) w = .ok g)
  (hr : LeavesS k r (coreAt m k) (if guardOn (coreAt m k).p w then g else count 0x6100 0x07))

include hb hsc hg hr

/-- R269, R306: between bundles, one with an S-slot word alone that is no scalar load or store issues. -/
theorem bundleIssue_scalarOnly {f : Machine.Flow} (hop : guardOn (coreAt m k).p w = true → swOp w < 0x20 ∨ 0x23 < swOp w)
    (hst : f.st = .running) (hf : ∀ d, EngineOnly (coreAt m k) d → flowOf d w (guardOn (coreAt m k).p w) = f) :
    ∃ n, Issued k r f m n ∧ bundleIssue k m = if f.taken then bubbleCycle k (count 0x6100 0x06 n) else n := by
  have hbetween := bundleIssue_between hb
  obtain ⟨-, -, -, -, hring, -, hloops, -, -, hpar, hdbg, hstep⟩ := hb
  have hc : coreAt (modCore k dropLoops m) k = coreAt m k := by rw [coreAt_modCore_self, dropLoops_of_live hloops]
  have hbank : scalarBank (coreAt m k) w = none := by
    unfold scalarBank
    refine if_neg (fun h => ?_)
    simp only [Bool.and_eq_true, decide_eq_true_eq] at h
    have := hop h.1.1
    omega
  have hempty := cycleFrame_emptySlot k (coreAt m k)
  have heff := bundleEffect_scalarOnly hpar hsc hg
  have hhold := holdBits_scalarOnly (m := modCore k dropLoops m) (k := k) hring hsc
  obtain ⟨hword, -, -, -, hvpend⟩ := hsc
  obtain ⟨n, hn, he⟩ := issueBundle_issued (m := modCore k dropLoops m) (w := w) (f := f) (by rw [hc]; exact hword)
    (by rw [hc]; exact hstep) (by rw [hc]; exact hbank) (by rw [hc]; exact heff) (by rw [hc]; exact hring) (by rw [hc]; exact hvpend)
    (by rw [hc]; exact hdbg) (by rw [hc]; exact ((hr.trans hempty).trans hempty).trans hempty) hst (by rw [hc]; exact hf)
  refine ⟨n, ⟨by rw [← hc]; exact hn.core, hn.mem, hn.pwr, hn.counters⟩, ?_⟩
  rw [hbetween, hhold, if_neg (by decide), he]

/-- R282, R287: one that is no transfer goes on to the next bundle, or back in a loop. -/
theorem issued_straightOn (hop : guardOn (coreAt m k).p w = true → swOp w < 0x20) :
    Issued k r (straightOn (coreAt m k)) m (bundleIssue k m) := by
  have hring : (coreAt m k).inRing = false := by
    obtain ⟨-, -, -, -, hring, -⟩ := hb
    exact hring
  obtain ⟨n, hn, he⟩ := bundleIssue_scalarOnly hb hsc hg hr (f := straightOn (coreAt m k)) (fun h => Or.inl (hop h)) rfl
    (fun d hd => by
      rw [flowOf_straight (by rw [hd]; exact hring) (fun h => Nat.lt_of_lt_of_le (hop h) (by decide)), hd]
      rfl)
  rwa [he]

end Turn

/-- R286: `sc.jmp` issues, and spends its second cycle now, or leaves it to come where that cycle is gated. -/
theorem bundleIssue_jump {m : Mach} {k w : Nat} (hb : betweenBundles m k) (hsc : scalarOnly (coreAt m k) w)
    (hon : guardOn (coreAt m k).p w = true) (hop : swOp w = 0x30) (hz : fld w 2 0 = 0) :
    ∃ n, Issued k (coreAt m k).s ⟨fld w 21 11, false, true, .running, (coreAt m k).retPc, (coreAt m k).loops⟩ m n ∧
      bundleIssue k m = bubbleCycle k (count 0x6100 0x06 n) := by
  have hring : (coreAt m k).inRing = false := by
    obtain ⟨-, -, -, -, hring, -⟩ := hb
    exact hring
  have hlegal : sLegal w = true := by simp [sLegal, hop, hz]
  have heff : issueS (modCore k dropLoops m) k (coreAt m k) w = .ok id := by simp [issueS, hop]
  refine bundleIssue_scalarOnly hb hsc (g := id) (fun _ => ⟨hlegal, heff⟩) ?_ (fun _ => Or.inr (by omega)) rfl (fun d hd => ?_)
  · rw [if_pos hon]
    exact leavesS_of_frame (fun n => .refl n)
  · rw [hon, flowOf_jump (by rw [hd]; exact hring) hop, hd]

theorem sLegal_alu {w : Nat} (h1 : 1 ≤ swOp w) (hB : swOp w ≤ 0x0B) (hz : fld w 6 0 = 0) : sLegal w = true := by
  have h0 : swOp w ≠ 0 := by omega
  simp [sLegal, h0, hB, hz]

/-- R282: a three-register operation. -/
theorem issueS_alu {m : Mach} {k w : Nat} {c : Core} (h1 : 1 ≤ swOp w) (hB : swOp w ≤ 0x0B) :
    issueS m k c w = .ok (modCore k (setS (fRd w) (sAlu (swOp w) (sreg c (fRs1 w)) (sreg c (fRs2 w))))) := by
  have h0 : swOp w ≠ 0 := by omega
  simp [issueS, h0, hB]

theorem sLegal_addi {w : Nat} (h : swOp w = 0x10) : sLegal w = true := by simp [sLegal, h]

theorem issueS_addi {m : Mach} {k w : Nat} {c : Core} (h : swOp w = 0x10) :
    issueS m k c w = .ok (modCore k (setS (fRd w) (toU 32 ((sreg c (fRs1 w) : Int) + sxt 12 (fImm12 w))))) := by
  simp [issueS, h]

/-- Settles O30: each cycle is what the engines do in it (`CycleFrame`), and what the bundle adds. -/
theorem bundleIssuesOrWaits : Obligations.BundleIssuesOrWaits := by
  unfold Obligations.BundleIssuesOrWaits
  refine ⟨⟨?_, ?_, ?_, ?_⟩, ?_, ?_, ?_⟩
  · intro s k w hb hsc hon h1 hB hz
    have h := issued_straightOn hb hsc (fun _ => ⟨sLegal_alu h1 hB hz, issueS_alu h1 hB⟩)
      (by rw [if_pos hon]; exact leavesS_setS _ _ _ _) (fun _ => by omega)
    obtain ⟨hs, ha, hp, hv, hopc, hpc, hloops, haclk, -⟩ := h.kept
    exact ⟨onM (bundleIssue k) s, rfl, hs, ha, hp, hv, hopc, Prod.ext hpc hloops, haclk, h.mem, h.countedOnce⟩
  · intro s k w hb hsc hon hop
    have h := issued_straightOn hb hsc (fun _ => ⟨sLegal_addi hop, issueS_addi hop⟩)
      (by rw [if_pos hon]; exact leavesS_setS _ _ _ _) (fun _ => by omega)
    obtain ⟨hs, ha, hp, hv, hopc, hpc, hloops, -⟩ := h.kept
    exact ⟨onM (bundleIssue k) s, rfl, hs, ha, hp, hv, hopc, Prod.ext hpc hloops, h.mem⟩
  · intro s k w hb hsc hon hop hz
    obtain ⟨n, h, he⟩ := bundleIssue_jump hb hsc hon hop hz
    obtain ⟨hs, ha, hp, hv, hopc, hpc, hloops, haclk, hbubble, hvpend, hdbgOps⟩ := h.kept
    obtain ⟨-, -, -, -, -, -, -, -, hnone, -, hdbg, -⟩ := hb
    have hgate : gate (count 0x6100 0x06 n) k = gate (modCore k (fun x => { x with aclk := x.aclk + 1 }) s.m) k :=
      gate_congr h.pwr (by rw [count, coreAt_countN, haclk, coreAt_modCore_self])
    obtain ⟨⟨bs, ba, bp, bv⟩, bopc, bpc, bloops, bmem, bfree, bgated, bcounters⟩ :=
      bubbleCycle_frame (k := k) (m := count 0x6100 0x06 n) hvpend (hdbgOps.trans hdbg)
    refine ⟨onM (bundleIssue k) s, rfl, ?_⟩
    simp only [onM, he]
    refine ⟨⟨bs.trans hs, ba.trans ha, bp.trans hp, bv.trans hv⟩, bopc.trans hopc, bpc.trans hpc, bloops.trans hloops, bmem.trans h.mem,
      fun hfree => ?_, fun hgated => ?_, ?_⟩
    · obtain ⟨hnow, hnb⟩ := bfree (hgate.trans hfree)
      exact ⟨hnow.trans (congrArg (· + 1) haclk), hnb.trans (hbubble.trans hnone)⟩
    · obtain ⟨hnow, hnb⟩ := bgated (fun e => hgated (hgate.symm.trans e))
      exact ⟨hnow.trans haclk, hnb⟩
    · have hn : counterOf n 0x6100 0x06 = counterOf s.m 0x6100 0x06 :=
        (h.counters _ _ (by decide)).trans (counterOf_count_ne _ (by decide))
      exact (bcounters _ _ (by decide)).trans (countedOnce_of_counterOf_eq hn)
  · intro s k w hb hsc hoff
    have h := issued_straightOn (r := (coreAt s.m k).s) (g := id) hb hsc (fun h => by rw [hoff] at h; cases h)
      (by rw [hoff]; exact leavesS_of_frame (fun n => .count _ _ n)) (fun h => by rw [hoff] at h; cases h)
    obtain ⟨hs, ha, hp, hv, hopc, hpc, hloops, -⟩ := h.kept
    exact ⟨onM (bundleIssue k) s, rfl, ⟨hs, ha, hp, hv⟩, hopc, Prod.ext hpc hloops, h.mem⟩
  · intro s k hb hbits
    have hbetween := bundleIssue_between hb
    rw [if_pos hbits] at hbetween
    obtain ⟨-, -, -, hst, -, -, hloops, -, -, -, hdbg, -⟩ := hb
    have hc : coreAt (modCore k dropLoops s.m) k = coreAt s.m k := by rw [coreAt_modCore_self, dropLoops_of_live hloops]
    obtain ⟨a, n, hcore, hmem, hcounter, hn, he⟩ := heldCycle_frame (k := k) (m := modCore k dropLoops s.m)
      (bits := holdBits (modCore k dropLoops s.m) k (coreAt s.m k) (nextBundle (coreAt s.m k))) (by rw [hc]; exact hdbg)
    rw [hc] at hcore hn
    have hacc := hn.acc
    have hengine := hn.core
    rw [hcore] at hacc hengine
    obtain ⟨hregs, hopc, hpc, hl, hst', hrings, -, -, haclk⟩ := engineOnly_kept hengine
    refine ⟨onM (bundleIssue k) s, rfl, ?_⟩
    simp only [onM, hbetween, he, coreAt_modCore_self, modCore_mem]
    exact ⟨hregs, hopc, hpc, hl, hst'.trans hst, congrArg (· + 1) haclk, fun hops hmvs => hacc ⟨hops, hmvs⟩, hrings, hn.mem.trans hmem,
      (hn.counters _ _ (by decide)).trans (hcounter.trans (countedOnce_count _ _ (modCore k dropLoops s.m)))⟩
  · intro s k hhas hissues hgate hdbg
    obtain ⟨n, he, hn⟩ := bundleIssue_gated hhas hissues hgate hdbg
    obtain ⟨hregs, hopc, hpc, hloops, -, -, hpipe, hvpend, haclk⟩ := engineOnly_kept hn.core
    refine ⟨onM (bundleIssue k) s, rfl, ?_⟩
    simp only [onM, he, coreAt_modCore_self, modCore_mem]
    exact ⟨hregs, hopc, hpc, hloops, hpipe, hvpend, congrArg (· + 1) haclk, hn.mem⟩
  · intro s k hhas
    have he : loopEnded k s.m = modCore k dropLoops s.m := by rw [loopEnded, if_pos hhas]
    refine ⟨onM (loopEnded k) s, rfl, ?_⟩
    simp only [onM, he, coreAt_modCore_self]
    exact ⟨rfl, fun j hj => coreAt_modCore_ne s.m k j dropLoops hj⟩

end Sys2Proof.Proofs

namespace Sys2Proof.Proofs

open Sys2Proof.Machine Sys2Proof.Laws

/-! ### A row that writes an entry (18 R580, R588, R592, R593) -/

/-- R580: an entry whose stored pair agrees is left as it is. -/
theorem checkStore_of_storedOk {m : Mach} {index sub : Nat} (h : storedOk m index sub) : checkStore index sub m = m := by
  unfold checkStore
  split
  · rfl
  · next v c hfind =>
    rw [if_pos (by rw [h v c hfind]; exact beq_self_eq_true _)]

/-- R588: the dictionary server runs in every state that allows writes. -/
theorem serverRuns_of_writeState {st : DevState} (h : writeState st = 0) : serverRuns st = true := by
  revert h
  cases st <;> decide

/-- R593: a write that no check refuses is answered as done. -/
theorem rowWrite_of_writeEntry {s t : State} {index sub : Nat} {v : List Byte} (hst : writeState s.m.dev.st = 0)
    (hstored : storedOk s.m index sub) (hwrite : writeEntry index sub v s = (t, 0)) :
    rowWrite index sub v s = .next (onM doneWrite t) := by
  have hcheck : onM (checkStore index sub) s = s := by rw [onM, checkStore_of_storedOk hstored]
  rw [rowWrite, serverRuns_of_writeState hst, hcheck, hwrite]
  rfl

/-- A write counts and answers, and reaches no core. -/
@[simp] theorem coreAt_doneWrite (m : Mach) (k : Nat) : coreAt (doneWrite m) k = coreAt m k := rfl

/-! ### DebugControl (09 R322, 08 R315, R316) -/

theorem dictEnt_debugControl : dictEnt 0xA000 0x04 = some ⟨0xA000, 0x04, 0x04, 2, .wo, 1, 0⟩ := by decide +kernel

/-- R588, R592: DebugControl may be written in every state that allows writes. -/
theorem writeAccess_debugControl {st : DevState} (h : writeState st = 0) : writeAccess st 0xA000 0x04 = 0 := by
  simp [writeAccess, dictEnt_debugControl, writeGate, h, firstAbort, orAbort]

/-- A DebugControl command that is accepted takes effect and is answered. -/
theorem rowWrite_debugControl {s : State} {m : Mach} {b : Byte} (hst : writeState s.m.dev.st = 0)
    (hstored : storedOk s.m 0xA000 0x04) (hctl : debugControl (leVal [b]) s.m = .ok m) :
    rowWrite 0xA000 0x04 [b] s = .next (onM doneWrite { s with m := m }) := by
  refine rowWrite_of_writeEntry hst hstored ?_
  simp [writeEntry, writeAccess_debugControl hst, dictEnt_debugControl, lengthOk, writeValue, typeOk, commandWrite, hctl]

section Control

variable {m : Mach} {k : Nat} (hk : dnum m 0xA000 0x02 = k) (hctx : debugCtx m (coreAt m k) = true)
include hk hctx

/-- DebugControl 1 halts a core that runs, and does nothing to one that is halted already. -/
theorem debugControl_halt :
    debugControl 1 m = .ok (if (coreAt m k).dbg = 0 then count 0x6100 0x0B (modCore k (fun c => { c with dbg := 2 }) m) else m) := by
  simp [debugControl, hk, hctx, modCore]

/-- DebugControl 2 lets the core issue one bundle, past the breakpoint where it is halted. -/
theorem debugControl_step :
    debugControl 2 m =
      .ok (modCore k (fun c => { c with dbg := 0, dbgStep := true, dbgPass := c.dbgPass || c.dbg != 0 }) m) := by
  simp [debugControl, hk, hctx, modCore]

/-- DebugControl 3 lets the core run, past the breakpoint where it stands at one. -/
theorem debugControl_resume :
    debugControl 3 m = .ok (modCore k (fun c => { c with dbg := 0, dbgStep := false, dbgPass := c.dbg == 1 }) m) := by
  simp [debugControl, hk, hctx, modCore]

end Control

section Command

variable {s : State} {k : Nat} (hst : writeState s.m.dev.st = 0) (hstored : storedOk s.m 0xA000 0x04)
  (hk : dnum s.m 0xA000 0x02 = k) (hctx : debugCtx s.m (coreAt s.m k) = true)
include hst hstored hk hctx

/-- R322: a halt changes the addressed core's halt alone, and that core is halted after it. -/
theorem debugHalt_next : ∃ t, exec .debugHalt s = .next t ∧ (coreAt t.m k).dbg ≠ 0 ∧
    coreAt t.m k = { coreAt s.m k with dbg := (coreAt t.m k).dbg } ∧ ∀ j, j ≠ k → coreAt t.m j = coreAt s.m j := by
  refine ⟨_, rowWrite_debugControl hst hstored (debugControl_halt hk hctx), ?_⟩
  by_cases hdbg : (coreAt s.m k).dbg = 0
  · simp only [if_pos hdbg, onM_m, coreAt_doneWrite, count, coreAt_countN, coreAt_modCore_self]
    exact ⟨by decide, trivial, fun j hj => coreAt_modCore_ne s.m _ j _ hj⟩
  · simp only [if_neg hdbg, onM_m, coreAt_doneWrite]
    exact ⟨hdbg, trivial, fun _ _ => trivial⟩

/-- R315: one bundle of a halted core, which passes the breakpoint that it stands at. -/
theorem debugStep_next (hdbg : (coreAt s.m k).dbg ≠ 0) : ∃ t, exec .debugStep s = .next t ∧
    coreAt t.m k = { coreAt s.m k with dbg := 0, dbgStep := true, dbgPass := true } ∧ ∀ j, j ≠ k → coreAt t.m j = coreAt s.m j := by
  have hpass : ((coreAt s.m k).dbgPass || (coreAt s.m k).dbg != 0) = true := by
    rw [bne_iff_ne.mpr hdbg, Bool.or_true]
  refine ⟨_, rowWrite_debugControl hst hstored (debugControl_step hk hctx), ?_⟩
  simp only [onM_m, coreAt_doneWrite, coreAt_modCore_self, hpass]
  exact ⟨trivial, fun j hj => coreAt_modCore_ne s.m _ j _ hj⟩

/-- R315: a resumed core runs, with no halt after its next bundle. -/
theorem debugResume_next : ∃ t, exec .debugResume s = .next t ∧ (coreAt t.m k).dbg = 0 ∧
    (coreAt t.m k).dbgStep = false ∧ ∀ j, j ≠ k → coreAt t.m j = coreAt s.m j := by
  refine ⟨_, rowWrite_debugControl hst hstored (debugControl_resume hk hctx), ?_⟩
  simp only [onM_m, coreAt_doneWrite, coreAt_modCore_self]
  exact ⟨trivial, trivial, fun j hj => coreAt_modCore_ne s.m _ j _ hj⟩

end Command

/-! ### The boundary port (20 R659) -/

/-- The scan takes one free bit a stage. -/
@[simp] theorem scanBits_length (n : Nat) (m : Mach) : (scanBits n m).1.length = n := by
  induction n generalizing m with
  | zero => rfl
  | succ n ih => exact congrArg (· + 1) (ih _)

/-- The scan leaves all but the counter of free values, from which it takes one a stage. -/
theorem scanBits_mach (n : Nat) (m : Mach) : (scanBits n m).2 = { m with freeCtr := m.freeCtr + n } := by
  induction n generalizing m with
  | zero => rfl
  | succ n ih =>
    calc (scanBits (n + 1) m).2 = (scanBits n (freshFree m).2).2 := rfl
      _ = { m with freeCtr := m.freeCtr + 1 + n } := ih _
      _ = { m with freeCtr := m.freeCtr + (n + 1) } := by rw [Nat.add_assoc, Nat.add_comm 1 n]

/-- A port with TRST_N low is inactive. -/
theorem boundaryScan_trstLow (s : State) (r : Nat) (bits : List Bool) : exec (.boundaryScan false r bits) s = .next s := rfl

/-- A scan of the identification register. -/
theorem boundaryScan_id {s : State} (hst : s.m.dev.st ≠ .off) (bits : List Bool) :
    exec (.boundaryScan true 1 bits) s = .next (onM (emit (.tdo (idBits bits.length))) s) := by
  simp only [exec, execBoundaryScan, Bool.not_true, Bool.false_or, beq_iff_eq, if_neg hst]

/-- A scan of the boundary register. -/
theorem boundaryScan_boundary {s : State} (hst : s.m.dev.st ≠ .off) (bits : List Bool) :
    exec (.boundaryScan true 0 bits) s = .next (onM (fun m => emit (.tdo (scanBits bits.length m).1)
      { m with freeCtr := m.freeCtr + bits.length }) s) := by
  simp only [exec, execBoundaryScan, Bool.not_true, Bool.false_or, beq_iff_eq, if_neg hst, scanBits_mach, onM]

/-- Settles O21: each command is an accepted DebugControl, which reaches the addressed core alone; the port by the register it scans. -/
theorem debugAndBoundaryScanAct : Obligations.DebugAndBoundaryScanAct := by
  unfold Obligations.DebugAndBoundaryScanAct
  refine ⟨?_, boundaryScan_trstLow, fun s bits hst => boundaryScan_id hst bits, ?_⟩
  · intro s hst hstored hctx k
    exact ⟨debugHalt_next hst hstored rfl hctx, debugStep_next hst hstored rfl hctx, debugResume_next hst hstored rfl hctx⟩
  · intro s bits hst
    exact ⟨_, _, boundaryScan_boundary hst bits, rfl, scanBits_length _ _, rfl⟩

end Sys2Proof.Proofs

namespace Sys2Proof.Proofs

open Sys2Proof.Machine Sys2Proof.Laws

/-! ### Memories that differ by accesses (02 R54, R65, 11 R398) -/

theorem onlyAccess_withAccess (t : List Nat) (l : SMap (List Nat)) (g : SMap Nat) (x : Mem) : onlyAccess x (withAccess t l g x) := rfl

theorem onlyAccess_eq {x y : Mem} (h : onlyAccess x y) : y = withAccess y.touched y.xlate y.grants x := h

theorem onlyAccess_symm {x y : Mem} (h : onlyAccess x y) : onlyAccess y x := by
  rw [onlyAccess_eq h]
  rfl

theorem onlyAccess_trans {x y z : Mem} (h : onlyAccess x y) (k : onlyAccess y z) : onlyAccess x z := by
  rw [onlyAccess_eq k, onlyAccess_eq h]
  rfl

/-- They hold the same octets, under the same directory. -/
theorem onlyAccess_octets {x y : Mem} (h : onlyAccess x y) : y.phys = x.phys ∧ y.staging = x.staging ∧ y.pages = x.pages := by
  rw [onlyAccess_eq h]
  exact ⟨rfl, rfl, rfl⟩

theorem onlyAccess_vtouch (va n : Nat) (x : Mem) : onlyAccess x (vtouch va n x) :=
  accessed_onlyAccess (accessed_vtouch va n { mem := x })

theorem onlyAccess_vputs {x y : Mem} (va : Nat) (bs : List Byte) (h : onlyAccess x y) :
    onlyAccess (vputs va bs x) (vputs va bs y) := by
  rw [onlyAccess_eq h, vputs_withAccess]
  exact onlyAccess_withAccess _ _ _ _

/-- A write puts the same octets into memories that differ by accesses. -/
theorem onlyAccess_vput {x y : Mem} (va : Nat) (bs : List Byte) (h : onlyAccess x y) :
    onlyAccess (vput va bs x) (vput va bs y) :=
  onlyAccess_trans (onlyAccess_symm (onlyAccess_vtouch va bs.length _))
    (onlyAccess_trans (onlyAccess_vputs va bs h) (onlyAccess_vtouch va bs.length _))

theorem onlyAccess_stagPut {x y : Mem} (cl off : Nat) (bs : List Byte) (h : onlyAccess x y) :
    onlyAccess (stagPut cl off bs x) (stagPut cl off bs y) := by
  rw [onlyAccess_eq h]
  rfl

theorem markDirty_pages (va n : Nat) (x : Mem) : (markDirty va n x).pages = x.pages := by
  simp only [markDirty]
  split <;> rfl

/-- A write leaves the directory. -/
theorem vput_pages (va : Nat) (bs : List Byte) (x : Mem) : (vput va bs x).pages = x.pages := by
  obtain ⟨-, -, htouch⟩ := onlyAccess_octets (onlyAccess_vtouch va bs.length (vputs va bs x))
  refine htouch.trans (foldl_keeps (fun y : Mem => y.pages = x.pages) _ _ x rfl (fun y p hy => ?_))
  split
  · exact (markDirty_pages _ _ _).trans hy
  · exact hy

/-! ### A sinter command on memories that differ by accesses (10 R361 to R366)

SINTER_COMMAND counts, frees the slot and accesses the command's spans before the command runs. None of it shows in what the command
reads, so that it writes the octets that it would write without. -/

/-- `a` and `b` are two runs of one command: their memories differ by accesses, and since `s` the second has written octets and
counted, nothing else. -/
structure RunsAlike (s a b : Mach) : Prop where
  mem : onlyAccess a.mem b.mem
  rest : b = { s with mem := b.mem, cnt := b.cnt }
  pages : b.mem.pages = s.mem.pages

namespace RunsAlike

variable {s a b : Mach}

theorem count (index sub : Nat) (h : RunsAlike s a b) : RunsAlike s (Machine.count index sub a) (Machine.count index sub b) := by
  obtain ⟨hmem, hrest, hpages⟩ := h
  refine ⟨hmem, ?_, hpages⟩
  rw [hrest]
  rfl

theorem countIf (dense : Bool) (index sub : Nat) (h : RunsAlike s a b) :
    RunsAlike s (if dense then Machine.count index sub a else a) (if dense then Machine.count index sub b else b) := by
  cases dense
  · exact h
  · exact h.count index sub

theorem spanWrite (cl addr : Nat) (bs : List Byte) (h : RunsAlike s a b) :
    RunsAlike s (Machine.spanWrite cl addr bs a) (Machine.spanWrite cl addr bs b) := by
  obtain ⟨hmem, hrest, hpages⟩ := h
  unfold Machine.spanWrite
  split
  · refine ⟨onlyAccess_stagPut cl addr bs hmem, ?_, hpages⟩
    rw [hrest]
  · refine ⟨onlyAccess_vput addr bs hmem, ?_, (vput_pages addr bs b.mem).trans hpages⟩
    rw [hrest]

theorem spanRead (h : RunsAlike s a b) (cl addr n : Nat) : Machine.spanRead b cl addr n = Machine.spanRead a cl addr n := by
  unfold Machine.spanRead
  rw [h.mem]
  rfl

/-- A row of PACK_ROWS keeps two runs alike (R362, R366). -/
theorem packRow (cl : Nat) (q : SntCmd) (t : Nat) (h : RunsAlike s a b) :
    RunsAlike s (Machine.packRow cl q t a) (Machine.packRow cl q t b) := by
  unfold Machine.packRow
  simp only [h.spanRead]
  exact (h.spanWrite _ _ _).count _ _

/-- So does a tile of PRUNE or PRUNE_AUTO: both runs find the stored header sound, or neither (R363 to R365). -/
theorem pruneTile (fresh : Bool) (cl : Nat) (q : SntCmd) (t : Nat) (h : RunsAlike s a b) :
    Option.Rel (RunsAlike s) (Machine.pruneTile fresh cl q t a) (Machine.pruneTile fresh cl q t b) := by
  unfold Machine.pruneTile
  simp only [h.spanRead]
  cases fresh
  · simp only [Bool.false_eq_true, if_false]
    split
    · exact .none
    · split
      · exact .none
      · exact .some (((h.spanWrite _ _ _).countIf _ _ _).count _ _)
  · exact .some ((((h.spanWrite _ _ _).countIf _ _ _).count _ _).count _ _)

end RunsAlike

/-- Two outcomes of a command are alike: the same fault code, or machines that are. -/
inductive OutcomesAlike (s : Mach) : Except Nat Mach → Except Nat Mach → Prop
  | error (code : Nat) : OutcomesAlike s (.error code) (.error code)
  | ok {a b : Mach} (h : RunsAlike s a b) : OutcomesAlike s (.ok a) (.ok b)

/-- What one tile of PRUNE or PRUNE_AUTO makes of the outcome of those before it, as `runSinter` does. -/
def pruneNext (fresh : Bool) (cl : Nat) (q : SntCmd) (acc : Except Nat Mach) (t : Nat) : Except Nat Mach :=
  match acc with
  | .error e => .error e
  | .ok m => match pruneTile fresh cl q t m with | some m1 => .ok m1 | none => .error 0x0207

theorem OutcomesAlike.pruneNext {s : Mach} {x y : Except Nat Mach} (fresh : Bool) (cl : Nat) (q : SntCmd) (t : Nat)
    (h : OutcomesAlike s x y) : OutcomesAlike s (Proofs.pruneNext fresh cl q x t) (Proofs.pruneNext fresh cl q y t) := by
  cases h with
  | error code => exact .error code
  | @ok a b h =>
    have htile := h.pruneTile fresh cl q t
    simp only [Proofs.pruneNext]
    generalize pruneTile fresh cl q t a = u, pruneTile fresh cl q t b = v at htile ⊢
    cases htile with
    | none => exact .error 0x0207
    | some h => exact .ok h

section Alike

variable {a b : Mach} (hmem : onlyAccess a.mem b.mem) (hctxs : b.ctxs = a.ctxs)
include hmem

theorem sourceParity_alike (cl : Nat) (q : SntCmd) : sourceParity b cl q = sourceParity a cl q := by
  unfold sourceParity
  rw [hmem]
  rfl

theorem sntBad_alike (bs : List Byte) (q : SntCmd) : sntBad b bs q = sntBad a bs q := by
  unfold sntBad
  rw [hmem]
  rfl

include hctxs

theorem spanFault_alike (i addr n : Nat) (write : Bool) : spanFault b i addr n write = spanFault a i addr n write := by
  unfold spanFault stagingOf
  rw [ctxAt_congr hctxs, hmem]
  rfl

/-- R361 to R366: a command gives the same outcome on memories that differ by accesses. -/
theorem runSinter_alike {k : Nat} (hcore : (coreAt b k).ctx = (coreAt a k).ctx) (bs : List Byte) :
    OutcomesAlike b (runSinter k bs a) (runSinter k bs b) := by
  have hstart : RunsAlike b a b := ⟨hmem, rfl, rfl⟩
  unfold runSinter
  simp only [hcore, sntBad_alike hmem, spanFault_alike hmem hctxs, sourceParity_alike hmem, ctxAt_congr hctxs]
  split
  · exact .error _
  · split
    · exact .error _
    · split
      · exact .error _
      · split
        · exact .error _
        · split
          · exact .ok (List.foldl_rel hstart (fun t _ _ _ h => h.packRow _ _ t))
          · exact List.foldl_rel (.ok hstart) (fun t _ _ _ h => h.pruneNext _ _ _ t)

theorem runSinter_ok_alike {k : Nat} {bs : List Byte} {n : Mach} (hcore : (coreAt b k).ctx = (coreAt a k).ctx)
    (hrun : runSinter k bs a = .ok n) : ∃ n', runSinter k bs b = .ok n' ∧ RunsAlike b n n' := by
  have h := runSinter_alike hmem hctxs hcore bs
  rw [hrun] at h
  generalize runSinter k bs b = e at h ⊢
  cases h with
  | ok h => exact ⟨_, rfl, h⟩

end Alike

/-! ### SINTER_COMMAND (10 R361, R367, R369, 11 R387) -/

/-- The core whose ring a sinter unit comes to at `q` (R367). -/
def queuedCore (cl q : Nat) : Nat := cl * 16 + q / 8

/-- That ring. -/
def queuedRing (m : Mach) (cl q : Nat) : Ring := ringAt (coreAt m (queuedCore cl q)) (q % 8)

/-- The command in its oldest slot, in staging or in the operand cache (R383). -/
def queuedCmd (m : Mach) (cl q : Nat) : List Byte :=
  let r := queuedRing m cl q
  if rdWhere r == 1 then cellsGet m.mem.staging (stagAddr cl (slotOffset r r.racq)) 32
  else opcGet (coreAt m (queuedCore cl q)) (slotOffset r r.racq) 32

theorem queuedCmd_eq (m : Mach) (cl q : Nat) : queuedCmd m cl q =
    if rdWhere (queuedRing m cl q) = 1
    then cellsGet m.mem.staging (stagAddr cl (slotOffset (queuedRing m cl q) (queuedRing m cl q).racq)) 32
    else opcGet (coreAt m (queuedCore cl q)) (slotOffset (queuedRing m cl q) (queuedRing m cl q).racq) 32 := by
  simp only [queuedCmd, beq_iff_eq]

/-- That command as the unit runs it, for the bundle that posted it (R309). -/
def queuedRun (m : Mach) (cl q : Nat) : SntRun :=
  ⟨queuedCore cl q, (queuedRing m cl q).posted.headD (coreAt m (queuedCore cl q)).pc, queuedCmd m cl q⟩

/-- A free unit whose last entry is in its ring comes to a slot whose ring and octets are sound, in a pass. -/
structure CommandDue (m : Mach) (cl q : Nat) : Prop where
  free : (m.sinters.get cl {}).run = none
  next : nextSinter m cl = some q
  issues : issues m (coreAt m (queuedCore cl q)) = true
  counts : ringOk (queuedRing m cl q) = true
  posting : posting m (.sinter cl) = false
  parity : slotParity m (queuedCore cl q) (slotOffset (queuedRing m cl q) (queuedRing m cl q).racq)
    (rdWhere (queuedRing m cl q) == 1) = false

/-- A ring whose oldest slot a sinter unit has taken and freed (R387). -/
def slotFreed (r : Ring) : Ring := releaseSlot (rAcquire { r with posted := r.posted.drop 1 })

/-- The slot is taken, freed and counted. -/
def slotTaken (cl q : Nat) (m : Mach) : Mach :=
  count 0x6800 0x02 (setCore (queuedCore cl q) (setRing (q % 8) (slotFreed (queuedRing m cl q)) (coreAt m (queuedCore cl q))) m)

/-- The unit's access of a span: one in staging passes no port. -/
def spanAccess (k addr n : Nat) (m : Mach) : Mach := if addr < 0x400000 then m else access (coreXl k) addr n m

theorem accessed_spanAccess (k addr n : Nat) (m : Mach) : Accessed m (spanAccess k addr n m) := by
  unfold spanAccess
  split
  · exact accessed_refl m
  · exact accessed_access _ _ _ m

/-- The command in that slot is about to run: its spans are accessed. -/
def commandReady (cl q : Nat) (m : Mach) : Mach :=
  let c := sntOf (queuedCmd m cl q)
  spanAccess (queuedCore cl q) c.src (sntSpans c).1 (spanAccess (queuedCore cl q) c.dst (sntSpans c).2 (slotTaken cl q m))

theorem accessed_commandReady (cl q : Nat) (m : Mach) : Accessed (slotTaken cl q m) (commandReady cl q m) :=
  accessed_trans (accessed_spanAccess _ _ _ _) (accessed_spanAccess _ _ _ _)

theorem commandReady_cores (cl q : Nat) (m : Mach) : (commandReady cl q m).cores = (slotTaken cl q m).cores := by
  rw [accessed_commandReady]

theorem commandReady_ctxs (cl q : Nat) (m : Mach) : (commandReady cl q m).ctxs = m.ctxs := by
  rw [accessed_commandReady]
  rfl

theorem commandReady_onlyAccess (cl q : Nat) (m : Mach) : onlyAccess m.mem (commandReady cl q m).mem :=
  accessed_onlyAccess (a := slotTaken cl q m) (accessed_commandReady cl q m)

/-- Of the core, the ring alone differs. -/
theorem coreAt_commandReady (cl q : Nat) (m : Mach) : coreAt (commandReady cl q m) (queuedCore cl q) =
    setRing (q % 8) (slotFreed (queuedRing m cl q)) (coreAt m (queuedCore cl q)) :=
  (coreAt_congr (commandReady_cores cl q m) _).trans (coreAt_setCore_self m _ _)

/-- R361, R367: the unit runs the command, for the bundle that posted it (R309). -/
theorem sinterTake_run {m n : Mach} {cl q : Nat} (h : CommandDue m cl q)
    (hrun : runSinter (queuedCore cl q) (queuedCmd m cl q) (commandReady cl q m) = .ok n) :
    sinterTake cl m = { n with sinters := n.sinters.put cl ⟨q + 1, some (queuedRun m cl q)⟩ } := by
  obtain ⟨hfree, hnext, hissues, hcounts, hposting, hparity⟩ := h
  simp only [queuedRing, queuedCore] at hissues hcounts hparity
  simp only [sinterTake, hposting, hfree, hnext, hissues, hcounts, hparity, Bool.not_true, Bool.false_eq_true, if_false]
  split
  · rename_i herror
    cases hrun.symm.trans herror
  · rename_i hok
    cases hrun.symm.trans hok
    rfl

/-- R361, R367, R387: what the command writes is what it would write before the slot was taken, and the slot is free. -/
theorem sinterTake_frame {m n : Mach} {cl q : Nat} (h : CommandDue m cl q)
    (hrun : runSinter (queuedCore cl q) (queuedCmd m cl q) m = .ok n) :
    (sinterTake cl m).sinters.get cl {} = ⟨q + 1, some (queuedRun m cl q)⟩ ∧
    onlyAccess n.mem (sinterTake cl m).mem ∧ (sinterTake cl m).mem.pages = m.mem.pages ∧
    ringAt (coreAt (sinterTake cl m) (queuedCore cl q)) (q % 8) = slotFreed (queuedRing m cl q) := by
  have hctx : (coreAt (commandReady cl q m) (queuedCore cl q)).ctx = (coreAt m (queuedCore cl q)).ctx := by
    rw [coreAt_commandReady]
    rfl
  obtain ⟨n', hrun', halike⟩ := runSinter_ok_alike (commandReady_onlyAccess cl q m) (commandReady_ctxs cl q m) hctx hrun
  have hcores : n'.cores = (commandReady cl q m).cores := by rw [halike.rest]
  obtain ⟨-, -, hpages⟩ := onlyAccess_octets (commandReady_onlyAccess cl q m)
  rw [sinterTake_run h hrun']
  refine ⟨smap_get_put_self _ _ _ _, halike.mem, halike.pages.trans hpages, ?_⟩
  calc ringAt (coreAt n' (queuedCore cl q)) (q % 8)
      = ringAt (setRing (q % 8) (slotFreed (queuedRing m cl q)) (coreAt m (queuedCore cl q))) (q % 8) := by
        rw [coreAt_congr hcores, coreAt_commandReady]
    _ = slotFreed (queuedRing m cl q) := ringAt_setRing_self _ _ _

/-! ### SINTER_COMMAND_COMPLETE (10 R367) -/

/-- The unit is free again. -/
def unitFreed (cl : Nat) (m : Mach) : Mach := { m with sinters := m.sinters.put cl { m.sinters.get cl {} with run := none } }

section Done

variable {m : Mach} {cl k pc : Nat} {b : List Byte} (hrun : (m.sinters.get cl {}).run = some ⟨k, pc, b⟩)
include hrun

theorem sinterDone_quiet (hdone : tbit (sntOf b).done 7 = false) : sinterDone cl m = unitFreed cl m := by
  simp only [sinterDone, hrun, hdone, Bool.false_eq_true, if_false, unitFreed]

/-- R367, R387: the entry names kind 4 and the command's destination. -/
theorem sinterDone_posted (hdone : tbit (sntOf b).done 7 = true)
    (htakes : ringTakes (.sinter cl) (ringAt (coreAt m k) ((sntOf b).done % 8))) :
    sinterDone cl m = setCore k (setRing ((sntOf b).done % 8) (takeEntry (4 * 2 ^ 60 + (sntOf b).dst % 2 ^ 56)
      (ringAt (coreAt m k) ((sntOf b).done % 8))) (coreAt m k)) (unitFreed cl m) := by
  have hpost := postEntry_of_takes (m := unitFreed cl m) (pc := pc) (e := 4 * 2 ^ 60 + (sntOf b).dst % 2 ^ 56) htakes
  simp only [sinterDone, hrun, hdone, if_true]
  exact hpost

end Done

/-- Settles O44: the command runs on a memory that only the unit's own accesses tell from the one before, so that it writes what it
gives; at its end the unit is free, and a ring that can take the entry has it. -/
theorem sinterCommandsRun : Obligations.SinterCommandsRun := by
  unfold Obligations.SinterCommandsRun
  refine ⟨?_, ?_⟩
  · intro s cl q m2 hfree hnext k r b hissues hcounts hposting hparity hrun
    have hb : queuedCmd s.m cl q = b := queuedCmd_eq s.m cl q
    rw [← hb] at hrun
    obtain ⟨hunit, hmem, hpages, hring⟩ := sinterTake_frame ⟨hfree, hnext, hissues, hcounts, hposting, hparity⟩ hrun
    rw [queuedRun, hb] at hunit
    obtain ⟨hphys, hstaging, -⟩ := onlyAccess_octets hmem
    have hring' : ringAt (coreAt (onM (sinterTake cl) s).m k) (q % 8) = slotFreed r := hring
    refine ⟨onM (sinterTake cl) s, rfl, hunit, hphys, hstaging, hpages, ?_⟩
    rw [hring']
    exact ⟨rfl, rfl, rfl⟩
  · intro s cl k pc b hrun
    refine ⟨fun hdone => ?_, fun hdone htakes => ?_⟩
    · exact congrArg (fun n => Host.Outcome.next { s with m := n }) (sinterDone_quiet hrun hdone)
    · refine ⟨onM (sinterDone cl) s, rfl, ?_⟩
      simp only [onM, sinterDone_posted hrun hdone htakes, coreAt_setCore_self, ringAt_setRing_self]
      exact ⟨congrArg Sinter.run (smap_get_put_self _ _ _ _), rfl, rfl⟩

end Sys2Proof.Proofs

namespace Sys2Proof.Proofs

open Sys2Proof.Machine Sys2Proof.Laws

/-! ### What sending a transaction keeps (12 R413, R417, R424)

Sending writes ports, emits and counts, nothing else: what these three keep, it keeps. -/

/-- A property of the machine that ports, what leaves the device, and counters do not touch. -/
structure SendKept (P : Mach → Prop) : Prop where
  setPort : ∀ p x m, P m → P (setPort p x m)
  emit : ∀ o m, P m → P (emit o m)
  countN : ∀ i j n m, P m → P (countN i j n m)

namespace SendKept

variable {P : Mach → Prop} (h : SendKept P) {m : Mach}

include h

theorem sendSeq (p typ vc : Nat) (rest : List Byte) (nak : Nat) (hm : P m) : P (sendSeq p typ vc rest nak m) := by
  unfold Machine.sendSeq
  dsimp only
  split
  · exact h.setPort _ _ _ hm
  · exact h.countN _ _ _ _ (h.emit _ _ (h.setPort _ _ _ hm))

theorem freeBuffer (p vc n : Nat) (hm : P m) : P (freeBuffer p vc n m) := by
  unfold Machine.freeBuffer
  dsimp only
  split
  · exact hm
  · split
    · exact h.sendSeq _ _ _ _ _ (h.setPort _ _ _ hm)
    · exact h.setPort _ _ _ hm

theorem pumpPort (n p : Nat) (hm : P m) : P (pumpPort n p m) := by
  induction n generalizing m with
  | zero => exact hm
  | succ n ih =>
    unfold Machine.pumpPort
    dsimp only
    split
    · split
      · exact h.sendSeq _ _ _ _ _ hm
      · exact hm
    · split
      · exact ih (h.freeBuffer _ _ _ (h.sendSeq _ _ _ _ _ (h.setPort _ _ _ hm)))
      · exact hm

theorem enqueue (p : Nat) (q : QItem) (hm : P m) : P (enqueue p q m) := by
  unfold Machine.enqueue Machine.pump
  dsimp only
  split
  · exact h.pumpPort _ _ (h.setPort _ _ _ (h.countN _ _ _ _ hm))
  · exact h.pumpPort _ _ (h.setPort _ _ _ hm)

theorem putTxn (t : Txn) (hm : P m) : P (putTxn t m) := by
  unfold Machine.putTxn
  dsimp only
  split
  · exact h.emit _ _ hm
  · split
    · exact h.enqueue _ _ (h.emit _ _ hm)
    · exact h.emit _ _ hm

theorem sendCtrl (kind causes : Nat) (data : List Byte) (i : Nat) (hm : P m) : P (sendCtrl kind causes data i m) :=
  foldl_keeps P _ _ m hm (fun _ _ hx => h.putTxn _ hx)

end SendKept

/-! ### A fault record and its code (08 R308, R309, 15 R521, 18 R602) -/

/-- A context in HALT tells its group, which leaves the device's own state. -/
theorem haltCtx_dev (i : Nat) (m : Mach) : (haltCtx i m).dev = m.dev := by
  have hkept : SendKept (fun x => x.dev = m.dev) := ⟨fun _ _ _ hx => hx, fun _ _ hx => hx, fun _ _ _ _ hx => hx⟩
  have hwait : (waitEnds i m).dev = m.dev := by
    unfold waitEnds
    dsimp only
    split <;> rfl
  unfold haltCtx
  split
  · rfl
  · exact hkept.sendCtrl _ _ _ _ hwait

/-- The device comes by itself only to states in which codes are raised (R588). -/
theorem notifies_deviceAuto {m : Mach} (hn : notifies m.dev.st = true) : notifies (deviceAuto m).dev.st = true := by
  unfold deviceAuto
  dsimp only
  split
  · split
    · rw [setDevState_dev]; rfl
    · split
      · rw [setDevState_dev]; rfl
      · exact hn
  · exact hn

theorem notifies_failCtx (i code cause port va flags : Nat) {m : Mach} (hn : notifies m.dev.st = true) :
    notifies (failCtx i code cause port va flags m).dev.st = true := by
  unfold failCtx
  split
  · exact hn
  · refine notifies_deviceAuto ?_
    rw [notifyCode_dev, recStat_dev, modCtx_dev, haltCtx_dev]
    exact hn

theorem notifies_recordFault (k code slot : Nat) (prog bundle : Bool) (pc detail : Nat) {m : Mach} (hn : notifies m.dev.st = true) :
    notifies (recordFault k code slot prog bundle pc detail m).dev.st = true := by
  unfold recordFault stepUsed stepFault
  dsimp only
  split
  · exact hn
  · exact notifies_failCtx _ _ _ _ _ _ hn

/-- R602: the code of a core's error stands raised where the device may raise it, whatever the record's step number comes to. -/
theorem raisedCode_coreError (k slot : Nat) {code : Nat} (bundle : Bool) (pc detail : Nat) {m : Mach} (hc : 256 ≤ code)
    (hn : notifies m.dev.st = true) : raisedCode code (coreError k code slot bundle pc detail m) :=
  (FaultPath.ctxClassed _ _ _).raised code hc
    (raisedCode_notifyCode _ _ hc (notifies_recordFault k code slot false bundle pc detail hn))

/-! ### A ring's fetches (11 R386, R393, R403, R404) -/

theorem smap_has_put_self {α : Type} (l : SMap α) (k : Nat) (v : α) : (l.put k v).has k = true := by
  induction l with
  | nil => simp [SMap.put, SMap.has]
  | cons p r ih =>
    simp only [SMap.put]
    split
    · simp [SMap.has]
    · split
      · simp [SMap.has]
      · simp only [SMap.has, List.any_cons, Bool.or_eq_true] at ih ⊢
        exact Or.inr ih

/-- An error of a core leaves its rings as they are. -/
theorem rings_coreError (k code slot : Nat) (bundle : Bool) (pc detail : Nat) (m : Mach) :
    (coreAt (coreError k code slot bundle pc detail m) k).rings = (coreAt m k).rings := by
  obtain ⟨-, -, -, -, -, hrings, -⟩ := engineOnly_kept (CycleFrame.coreError (idle := False) (k := k) code slot bundle pc detail m).core
  exact hrings

/-- A ring with another count of acquired slots. -/
def withWacq (w : Nat) (r : Ring) : Ring := { r with wacq := w }

section Fetches

variable {k ring : Nat} {m : Mach} {a : Active} (hhas : (coreAt m k).rings.has ring = true)
  (ha : (ringAt (coreAt m k) ring).active = some a)
include hhas ha

/-- R386, R403: a ring that fails its complements raises STR_RING_CHECK, for the bundle of its stream, and is counted. -/
theorem issueFetches_broken (hok : ringOk (ringAt (coreAt m k) ring) = false) :
    issueFetches k ring m = coreError k 0x0801 255 false a.pc ring (count 0x6800 0x09 m) := by
  simp [issueFetches, hhas, ha, hok, ringBroken, fillPc]

/-- R393: a sound ring acquires the slots that its fetches take; nothing else of it changes. -/
theorem ringAt_issueFetches (hok : ringOk (ringAt (coreAt m k) ring) = true) :
    ringAt (coreAt (issueFetches k ring m) k) ring =
      let r := ringAt (coreAt m k) ring
      let n := (fetchAhead (coreAt m k) r).1
      withWacq (if n = 0 then r.wacq else (r.wacq + n) % 2 ^ 32) r := by
  unfold issueFetches
  simp only [hhas, ha, hok, Bool.not_true, Bool.false_eq_true, if_false, Option.isSome_some, Bool.false_and, beq_iff_eq]
  split
  · rfl
  · rw [coreAt_countN, coreAt_setCore_self, ringAt_setRing_self]
    rfl

/-- Fetches, and their fault, leave all of a ring but the count of slots acquired. -/
theorem ringAt_issueFetches_kept : ringAt (coreAt (issueFetches k ring m) k) ring =
    withWacq (ringAt (coreAt (issueFetches k ring m) k) ring).wacq (ringAt (coreAt m k) ring) := by
  cases hok : ringOk (ringAt (coreAt m k) ring) with
  | false =>
    have hring : ringAt (coreAt (issueFetches k ring m) k) ring = ringAt (coreAt m k) ring := by
      rw [issueFetches_broken hhas ha hok]
      exact congrArg (fun l : SMap Ring => l.get ring {}) (rings_coreError _ _ _ _ _ _ _)
    rw [hring]
    rfl
  | true =>
    rw [ringAt_issueFetches hhas ha hok]
    rfl

/-- R393: every free slot that the stream still needs is acquired at once. -/
theorem wacq_issueFetches (hok : ringOk (ringAt (coreAt m k) ring) = true) (hkind : rdKind (ringAt (coreAt m k) ring) ≠ 2)
    (hw : (ringAt (coreAt m k) ring).wacq < 2 ^ 32) :
    let r := ringAt (coreAt m k) ring
    (ringAt (coreAt (issueFetches k ring m) k) ring).wacq =
      (r.wacq + min (a.limit - a.next - inFetch r) (rdSlots r - diff32 r.wacq r.tail)) % 2 ^ 32 := by
  have hn : (fetchAhead (coreAt m k) (ringAt (coreAt m k) ring)).1 =
      min (a.limit - a.next - inFetch (ringAt (coreAt m k) ring))
        (rdSlots (ringAt (coreAt m k) ring) - diff32 (ringAt (coreAt m k) ring).wacq (ringAt (coreAt m k) ring).tail) := by
    simp only [fetchAhead, toFetch, beq_iff_eq, hkind, if_false, ha]
  rw [ringAt_issueFetches hhas ha hok]
  dsimp only [withWacq]
  rw [hn]
  split
  · rename_i h0
    rw [h0, Nat.add_zero, Nat.mod_eq_of_lt hw]
  · rfl

end Fetches

/-! ### The next stream of a ring (11 R392, R394, R395) -/

/-- A free ring of a core has a next stream, which is the core's own, with a sound descriptor and a span in one object that can be
read. -/
structure StreamDue (m : Mach) (k ring id pc : Nat) (rest : List TCmd) (p : Pair) (o : Nat) : Prop where
  issues : issues m (coreAt m k) = true
  free : (ringAt (coreAt m k) ring).active = none
  take : takeStream m k (coreAt m k).ctx ring (coreAt m k).queue = some (id, pc, rest)
  stream : streamOf m (coreAt m k).ctx id = some p
  sound : pairOk 512 p.v p.c = true
  own : stCore p.v = k
  object : objAt m.mem (stVa p.v) = some o
  fits : stVa p.v + streamSpan p.v ≤ (objSpan o).2
  mapped : readCheck m.mem (stVa p.v) 1 = 0
  entry : entryBad m.mem (stVa p.v) = false

/-- The ring that a stream begins in, at its first slot. -/
def begunRing (id pc : Nat) (p : Pair) (r : Ring) : Ring := { r with active := some ⟨id, 0, stSlots p.v, pc⟩ }

/-- The stream has left the queue and is its ring's. -/
def streamBegun (k ring id pc : Nat) (rest : List TCmd) (p : Pair) (m : Mach) : Mach :=
  modCore k (fun c => setRing ring (begunRing id pc p (ringAt c ring)) c) (modCore k (fun c => { c with queue := rest }) m)

theorem coreAt_streamBegun (k ring id pc : Nat) (rest : List TCmd) (p : Pair) (m : Mach) :
    coreAt (streamBegun k ring id pc rest p m) k =
      setRing ring (begunRing id pc p (ringAt (coreAt m k) ring)) { coreAt m k with queue := rest } := by
  rw [streamBegun, coreAt_modCore_self, coreAt_modCore_self]
  rfl

theorem ringAt_streamBegun (k ring id pc : Nat) (rest : List TCmd) (p : Pair) (m : Mach) :
    ringAt (coreAt (streamBegun k ring id pc rest p m) k) ring = begunRing id pc p (ringAt (coreAt m k) ring) := by
  rw [coreAt_streamBegun, ringAt_setRing_self]

theorem has_streamBegun (k ring id pc : Nat) (rest : List TCmd) (p : Pair) (m : Mach) :
    (coreAt (streamBegun k ring id pc rest p m) k).rings.has ring = true := by
  rw [coreAt_streamBegun]
  exact smap_has_put_self _ _ _

theorem active_streamBegun (k ring id pc : Nat) (rest : List TCmd) (p : Pair) (m : Mach) :
    (ringAt (coreAt (streamBegun k ring id pc rest p m) k) ring).active = some ⟨id, 0, stSlots p.v, pc⟩ := by
  rw [ringAt_streamBegun]
  rfl

namespace StreamDue

variable {m : Mach} {k ring id pc o : Nat} {rest : List TCmd} {p : Pair} (h : StreamDue m k ring id pc rest p o)
include h

/-- R394: the stream begins, and its first fetches are issued. -/
theorem streamBegin_eq : streamBegin k ring m = issueFetches k ring (streamBegun k ring id pc rest p m) := by
  simp [streamBegin, h.issues, h.free, h.take, h.stream, h.sound, h.own, h.mapped, h.entry, h.object, h.fits, streamBegun, begunRing]

/-- R394: what is left of the core's queue, its registers and memory. -/
theorem streamBegin_frame : (coreAt (streamBegin k ring m) k).queue = rest ∧
    sameRegs (coreAt m k) (coreAt (streamBegin k ring m) k) ∧ (streamBegin k ring m).mem = m.mem := by
  have hf := Refilled.issueFetches (k := k) ring (streamBegun k ring id pc rest p m)
  rw [h.streamBegin_eq, hf.mem, hf.core, coreAt_streamBegun]
  exact ⟨rfl, ⟨rfl, rfl, rfl, rfl⟩, rfl⟩

/-- R394: the ring is at the stream's first slot, with its counts and entries, those of acquired slots apart. -/
theorem ringAt_streamBegin :
    let r := ringAt (coreAt m k) ring
    let q := ringAt (coreAt (streamBegin k ring m) k) ring
    q.active = some ⟨id, 0, stSlots p.v, pc⟩ ∧ q.head = r.head ∧ q.tail = r.tail ∧ q.racq = r.racq ∧ q.entries = r.entries := by
  have hr := ringAt_issueFetches_kept (has_streamBegun k ring id pc rest p m) (active_streamBegun k ring id pc rest p m)
  rw [ringAt_streamBegun, ← h.streamBegin_eq] at hr
  rw [hr]
  exact ⟨rfl, rfl, rfl, rfl, rfl⟩

/-- R393, R394: the slots that the stream acquires at its start. -/
theorem wacq_streamBegin (hok : ringOk (ringAt (coreAt m k) ring) = true) (hkind : rdKind (ringAt (coreAt m k) ring) ≠ 2)
    (hw : (ringAt (coreAt m k) ring).wacq < 2 ^ 32) :
    (ringAt (coreAt (streamBegin k ring m) k) ring).wacq =
      ((ringAt (coreAt m k) ring).wacq + min (stSlots p.v - inFetch (ringAt (coreAt m k) ring))
        (rdSlots (ringAt (coreAt m k) ring) - diff32 (ringAt (coreAt m k) ring).wacq (ringAt (coreAt m k) ring).tail)) % 2 ^ 32 := by
  have hr := wacq_issueFetches (has_streamBegun k ring id pc rest p m) (active_streamBegun k ring id pc rest p m)
  rw [ringAt_streamBegun, ← h.streamBegin_eq] at hr
  exact hr hok hkind hw

/-- R386, R403: the start of a stream is a use of the ring, which finds that it fails its complements. -/
theorem streamBegin_broken (hok : ringOk (ringAt (coreAt m k) ring) = false) :
    streamBegin k ring m = coreError k 0x0801 255 false pc ring (count 0x6800 0x09 (streamBegun k ring id pc rest p m)) := by
  rw [h.streamBegin_eq]
  have hb := issueFetches_broken (has_streamBegun k ring id pc rest p m) (active_streamBegun k ring id pc rest p m)
  rw [ringAt_streamBegun] at hb
  exact hb hok

theorem countedOnce_streamBegin (hok : ringOk (ringAt (coreAt m k) ring) = false) :
    countedOnce 0x6800 0x09 m (streamBegin k ring m) := by
  rw [h.streamBegin_broken hok, countedOnce, counterOf_coreError (by decide)]
  exact countedOnce_count 0x6800 0x09 (streamBegun k ring id pc rest p m)

theorem raisedCode_streamBegin (hok : ringOk (ringAt (coreAt m k) ring) = false) (hn : notifies m.dev.st = true) :
    raisedCode 0x0801 (streamBegin k ring m) := by
  rw [h.streamBegin_broken hok]
  exact raisedCode_coreError k 255 false pc ring (by decide) hn

end StreamDue

/-! ### A slot that lands (11 R383, R387, R393) -/

/-- The next slot of a ring's stream is in flight, and its rows can be read in HBM. -/
structure SlotDue (m : Mach) (k ring : Nat) (a : Active) (p : Pair) : Prop where
  issues : issues m (coreAt m k) = true
  has : (coreAt m k).rings.has ring = true
  counts : ringOk (ringAt (coreAt m k) ring) = true
  inFlight : inFetch (ringAt (coreAt m k) ring) ≠ 0
  kind : rdKind (ringAt (coreAt m k) ring) ≠ 2
  active : (ringAt (coreAt m k) ring).active = some a
  stream : streamOf m (coreAt m k).ctx a.index = some p
  sound : pairOk 512 p.v p.c = true
  rows : hbmCheck m (streamRows p.v a.next) = 0

/-- The octets of a slot's rows. -/
def slotOctets (m : Mach) (a : Active) (p : Pair) : List Byte := (streamRows p.v a.next).flatMap (fun x => vget m.mem x.1 x.2)

/-- A stream past its next slot: none after its last. -/
def streamOn (a : Active) : Option Active := if a.next + 1 ≥ a.limit then none else some { a with next := a.next + 1 }

/-- The ring once the slot is committed. -/
def landedRing (a : Active) (p : Pair) (r : Ring) : Ring :=
  commitSlot { r with active := streamOn a, spans := if stBound p.v then noteSpan a.index r.head r.spans else r.spans }

/-- The slot is in its buffer and its rows are accessed. -/
def slotFilled (k ring : Nat) (a : Active) (p : Pair) (m : Mach) : Mach :=
  accessAll (coreXl k) (streamRows p.v a.next) (fillSlot k ring (slotOctets m a p) m)

theorem accessed_slotFilled (k ring : Nat) (a : Active) (p : Pair) (m : Mach) :
    Accessed (fillSlot k ring (slotOctets m a p) m) (slotFilled k ring a p m) := accessed_accessAll _ _ _

theorem coreAt_slotFilled (k ring : Nat) (a : Active) (p : Pair) (m : Mach) :
    coreAt (slotFilled k ring a p m) k = coreAt (fillSlot k ring (slotOctets m a p) m) k := by
  rw [accessed_slotFilled]
  rfl

/-- R383: of the core, a slot's octets reach the operand cache alone, and its words' parity. -/
theorem coreAt_fillSlot (k ring : Nat) (bs : List Byte) (m : Mach) : coreAt (fillSlot k ring bs m) k =
    { coreAt m k with opc := (coreAt (fillSlot k ring bs m) k).opc, par := (coreAt (fillSlot k ring bs m) k).par } := by
  unfold fillSlot
  dsimp only
  split
  · rfl
  · rw [coreAt_modCore_self]
    rfl

theorem fillSlot_staging {k ring : Nat} {m : Mach} (bs : List Byte) (h : rdWhere (ringAt (coreAt m k) ring) = 1) :
    fillSlot k ring bs m = onMem (stagPut (clusterOf k) (slotOffset (ringAt (coreAt m k) ring) (ringAt (coreAt m k) ring).head) bs) m := by
  simp [fillSlot, h]

theorem fillSlot_opc {k ring : Nat} {m : Mach} (bs : List Byte) (h : rdWhere (ringAt (coreAt m k) ring) ≠ 1) :
    fillSlot k ring bs m = modCore k (opcPut (slotOffset (ringAt (coreAt m k) ring) (ringAt (coreAt m k) ring).head) bs) m := by
  simp [fillSlot, h]

theorem fillSlot_phys (k ring : Nat) (bs : List Byte) (m : Mach) : (fillSlot k ring bs m).mem.phys = m.mem.phys := by
  unfold fillSlot
  dsimp only
  split <;> rfl

theorem fillSlot_cnt (k ring : Nat) (bs : List Byte) (m : Mach) : (fillSlot k ring bs m).cnt = m.cnt := by
  unfold fillSlot
  dsimp only
  split <;> rfl

namespace SlotDue

variable {m : Mach} {k ring : Nat} {a : Active} {p : Pair} (h : SlotDue m k ring a p)
include h

/-- R393: the slot is filled, committed and counted, and no fetch of the ring waits. -/
theorem slotCommit_eq : slotCommit k ring m =
    count 0x6800 0x01 (unstall k ring (modCore k (fun c => setRing ring (landedRing a p (ringAt c ring)) c)
      (slotFilled k ring a p m))) := by
  simp only [slotCommit, h.issues, h.has, h.counts, h.inFlight, h.kind, h.active, h.stream, h.sound, h.rows, Bool.not_true,
    Bool.false_eq_true, if_false, beq_iff_eq]
  rfl

theorem coreAt_slotCommit : coreAt (slotCommit k ring m) k =
    setRing ring (landedRing a p (ringAt (coreAt m k) ring)) (coreAt (fillSlot k ring (slotOctets m a p) m) k) := by
  have hring : ringAt (coreAt (fillSlot k ring (slotOctets m a p) m) k) ring = ringAt (coreAt m k) ring := by
    rw [coreAt_fillSlot]
    rfl
  rw [h.slotCommit_eq, count, coreAt_countN, ← hring, ← coreAt_slotFilled]
  exact coreAt_modCore_self _ _ _

/-- R387: Head goes up by one with its complement, and the stream goes on. -/
theorem ringAt_slotCommit : ringAt (coreAt (slotCommit k ring m) k) ring = landedRing a p (ringAt (coreAt m k) ring) := by
  rw [h.coreAt_slotCommit, ringAt_setRing_self]

theorem slotCommit_octets : (slotCommit k ring m).mem.phys = m.mem.phys ∧
    (slotCommit k ring m).mem.staging = (fillSlot k ring (slotOctets m a p) m).mem.staging ∧
    (coreAt (slotCommit k ring m) k).opc = (coreAt (fillSlot k ring (slotOctets m a p) m) k).opc := by
  obtain ⟨hphys, hstaging, -⟩ := onlyAccess_octets (accessed_onlyAccess (accessed_slotFilled k ring a p m))
  refine ⟨?_, ?_, ?_⟩
  · rw [h.slotCommit_eq]
    exact hphys.trans (fillSlot_phys _ _ _ _)
  · rw [h.slotCommit_eq]
    exact hstaging
  · rw [h.coreAt_slotCommit]
    rfl

theorem countedOnce_slotCommit : countedOnce 0x6800 0x01 m (slotCommit k ring m) := by
  have hcnt : counterOf (slotFilled k ring a p m) 0x6800 0x01 = counterOf m 0x6800 0x01 :=
    (counterOf_accessAll _ _ _ (by decide)).trans (counterOf_congr (fillSlot_cnt _ _ _ _) _ _)
  rw [h.slotCommit_eq]
  exact countedOnce_of_counterOf_eq hcnt

end SlotDue

/-! ### A post that waited (11 R387) -/

/-- The oldest waiting post is in its ring. -/
def postTaken (k ring : Nat) (w : Post) (rest : List Post) (m : Mach) : Mach :=
  setCore k (setRing ring (takeEntry w.entry { ringAt (coreAt m k) ring with waiting := rest }) (coreAt m k)) m

/-- R387: the post enters its ring, and its unit goes on. -/
theorem postWaiting_eq {m : Mach} {k ring : Nat} {w : Post} {rest : List Post} (hw : (ringAt (coreAt m k) ring).waiting = w :: rest)
    (hok : ringOk (ringAt (coreAt m k) ring) = true) (hroom : ringRoom (ringAt (coreAt m k) ring) = true) :
    postWaiting k ring m = afterPost w.src (postTaken k ring w rest m) := by
  simp only [postWaiting, hw, hok, hroom, Bool.not_true, Bool.false_eq_true, if_false, if_true]
  rfl

theorem coreAt_postTaken (k ring : Nat) (w : Post) (rest : List Post) (m : Mach) : coreAt (postTaken k ring w rest m) k =
    setRing ring (takeEntry w.entry { ringAt (coreAt m k) ring with waiting := rest }) (coreAt m k) := coreAt_setCore_self _ _ _

/-- Settles O33: a stream that is due begins and fetches, a slot that is due lands and is committed, a post that waited is taken. -/
theorem streamsAndPostsGoOn : Obligations.StreamsAndPostsGoOn := by
  unfold Obligations.StreamsAndPostsGoOn
  refine ⟨?_, ?_, ?_⟩
  · intro s k ring id pc rest p o hissues hfree htake hstream hsound hown hobject hfits hmapped hentry
    have hdue : StreamDue s.m k ring id pc rest p o :=
      ⟨hissues, hfree, htake, hstream, hsound, hown, hobject, hfits, hmapped, hentry⟩
    obtain ⟨hqueue, hregs, hmem⟩ := hdue.streamBegin_frame
    obtain ⟨hactive, hhead, htail, hracq, hentries⟩ := hdue.ringAt_streamBegin
    refine ⟨onM (streamBegin k ring) s, rfl, hqueue, hactive, hhead, htail, hracq, hentries, hdue.wacq_streamBegin,
      fun hok _ => ?_, hregs, hmem⟩
    exact ⟨hdue.countedOnce_streamBegin hok, hdue.raisedCode_streamBegin hok⟩
  · intro s k ring a p hissues hhas r hcounts hflight hkind hactive hstream hsound hrows
    have hdue : SlotDue s.m k ring a p := ⟨hissues, hhas, hcounts, hflight, hkind, hactive, hstream, hsound, hrows⟩
    have hring := hdue.ringAt_slotCommit
    obtain ⟨hphys, hstaging, hopc⟩ := hdue.slotCommit_octets
    refine ⟨onM (slotCommit k ring) s, rfl, ?_⟩
    simp only [onM_m, hring]
    refine ⟨rfl, rfl, rfl, rfl, rfl, rfl, hphys, fun hwhere => ?_, fun hwhere => ?_, hdue.countedOnce_slotCommit⟩
    · rw [fillSlot_staging _ hwhere] at hstaging hopc
      exact ⟨hstaging, hopc⟩
    · rw [fillSlot_opc _ hwhere] at hstaging hopc
      rw [coreAt_modCore_self] at hopc
      exact ⟨hopc, hstaging⟩
  · intro s k ring w rest r hw hok hroom
    have hcore := coreAt_postTaken k ring w rest s.m
    refine ⟨postTaken k ring w rest s.m, ?_, ?_⟩
    · show Host.Outcome.next (onM (postWaiting k ring) s) = _
      rw [onM, postWaiting_eq hw hok hroom]
      rfl
    · rw [hcore, ringAt_setRing_self]
      exact ⟨rfl, rfl, rfl, rfl, rfl, ⟨rfl, rfl, rfl, rfl⟩, rfl, fun j hj => coreAt_setCore_ne _ _ _ _ hj⟩

end Sys2Proof.Proofs

namespace Sys2Proof.Proofs
open Sys2Proof.Machine Sys2Proof.Laws

/-! ### Transactions of no loaded context (12 R425) -/

/-- No loaded context holds the tag. -/
theorem ctxOfTag_eq_none {m : Mach} {tag : Nat} (h : ∀ i, i < 16 → loaded (ctxAt m i) = true → (ctxAt m i).jobTag ≠ tag) :
    ctxOfTag m tag = none := by
  unfold ctxOfTag
  split
  · rfl
  · refine List.find?_eq_none.mpr (fun i hi hp => ?_)
    obtain ⟨hl, ht⟩ := (Bool.and_eq_true _ _).mp hp
    exact h i (List.mem_range.mp hi) hl (beq_iff_eq.mp ht)

/-- R425: whatever its unit would do, a transaction that matches no loaded context is counted and no more. -/
theorem tagged_untagged {t : Txn} {m : Mach} (f : Mach → Mach) (hl : listening m) (hn : ctxOfTag m t.jobTag = none) :
    tagged t f m = count 0x6900 0x0C m := by
  obtain ⟨hoff, hreset, hself, hfault⟩ := hl
  unfold tagged
  split
  · exact absurd ‹_› hoff
  · exact absurd ‹_› hreset
  · exact absurd ‹_› hself
  · exact absurd ‹_› hfault
  · rw [hn]
    rfl

/-- A command of the torus sends its transaction to one unit, behind R425's check; one that a unit may have to hold back comes after those
that are held already (R121, R136). -/
theorem exec_torusTxn {c : Instr} {x : Txn} {s : State} (hc : torusTxn c = some x)
    (hheld : c = .gather x ∨ c = .sampleFwd x → s.m.tor.held = []) : ∃ f, exec c s = .next (onM (tagged x f) s) := by
  cases c
  case gather t =>
    cases hc
    refine ⟨takeGather x, ?_⟩
    simp only [exec, execGather, onM, hheld (.inl rfl)]
    rfl
  case sampleFwd t =>
    cases hc
    refine ⟨takeForward x, ?_⟩
    simp only [exec, execSampleFwd, onM, hheld (.inr rfl)]
    rfl
  all_goals cases hc
  all_goals exact ⟨_, rfl⟩

/-- Settles O60: every command of the torus is its unit's operation behind R425's check, which the transaction does not pass. -/
theorem untaggedDiscarded : Obligations.UntaggedDiscarded := by
  unfold Obligations.UntaggedDiscarded
  intro c x s hc hl hheld htag
  obtain ⟨f, hf⟩ := exec_torusTxn hc hheld
  have hn : exec c s = .next (onM (count 0x6900 0x0C) s) := by
    rw [hf, onM, tagged_untagged f hl (ctxOfTag_eq_none htag)]
    rfl
  exact ⟨hn, _, hn, countedOnce_count 0x6900 0x0C s.m, rfl⟩

end Sys2Proof.Proofs

namespace Sys2Proof.Proofs

open Sys2Proof.Machine Sys2Proof.Laws

/-! ### Ports of the torus (12 R408, R428) -/

theorem portAt_congr {a b : Mach} (h : b.tor = a.tor) (q : Nat) : portAt b q = portAt a q := by
  simp only [portAt, h]

/-- A read of any port after a write of one: what was written where it is that one, and there is such a port. -/
theorem portAt_setPort (m : Mach) (p q : Nat) (x : Port) :
    portAt (setPort p x m) q = if p = q ∧ p < 8 then x else portAt m q := by
  by_cases e : p = q
  · subst e
    by_cases h : p < 8
    · simp [h]
    · have h8 : 8 ≤ p := Nat.le_of_not_lt h
      simp only [h, and_false, if_false]
      exact (tab_getD_past (setPort p x m).tor.ports p {} h8).trans (tab_getD_past m.tor.ports p {} h8).symm
  · simp only [e, false_and, if_false]
    exact portAt_setPort_ne m p q x e

/-- A port that differs from one after reset is one of the eight. -/
theorem lt_of_portAt_ne {m : Mach} {p : Nat} (h : portAt m p ≠ {}) : p < 8 :=
  Nat.lt_of_not_le (fun h8 => h (tab_getD_past m.tor.ports p {} h8))

theorem lt_of_st_ne {m : Mach} {p : Nat} (h : (portAt m p).st ≠ 0) : p < 8 :=
  lt_of_portAt_ne (fun e => h (by rw [e]))

/-- A port that receives: in IDENTIFY or ACTIVE (R432). -/
theorem lt_of_receives {m : Mach} {p : Nat} (h : (portAt m p).st = 5 ∨ (portAt m p).st = 6) : p < 8 :=
  lt_of_st_ne (m := m) (by rcases h with h | h <;> simp [h])

theorem receives_beq {n : Nat} (h : n = 5 ∨ n = 6) : (n == 5 || n == 6) = true := by simpa using h

/-! ### What sending leaves of a port (12 R413 to R419, R423) -/

/-- `y` is the port `x` but for its transmitter, its credits and the buffers of its VCs. -/
def SendsOnly (x y : Port) : Prop :=
  y = { x with
    txSeq := y.txSeq, nullDue := y.nullDue, nakDue := y.nakDue, retry := y.retry, credits := y.credits, owed := y.owed,
    partialRx := y.partialRx, badRx := y.badRx, heldRx := y.heldRx, queue := y.queue, vcPtr := y.vcPtr }

/-- No port differs in anything else. -/
def PortsSend (a b : Mach) : Prop := ∀ q, SendsOnly (portAt a q) (portAt b q)

namespace PortsSend

theorem of_tor {a b : Mach} (h : b.tor = a.tor) : PortsSend a b := fun q => by rw [portAt_congr h q]; rfl

theorem refl (m : Mach) : PortsSend m m := fun _ => rfl

theorem trans {a b c : Mach} (h : PortsSend a b) (k : PortsSend b c) : PortsSend a c := fun q => by
  have hq := h q
  have kq := k q
  unfold SendsOnly at *
  rw [kq, hq]

theorem foldl {α : Type} (f : Mach → α → Mach) (l : List α) (m : Mach) (hf : ∀ x a, PortsSend x (f x a)) : PortsSend m (l.foldl f m) :=
  foldl_keeps (fun x => PortsSend m x) f l m (refl m) (fun x a h => h.trans (hf x a))

theorem setPort (p : Nat) (x : Port) (m : Mach) (hx : SendsOnly (portAt m p) x := by exact rfl) : PortsSend m (setPort p x m) :=
  fun q => by
    rw [portAt_setPort]
    split
    · rename_i h
      rw [← h.1]
      exact hx
    · rfl

theorem emit (o : Out) (m : Mach) : PortsSend m (emit o m) := of_tor rfl
theorem countN (index sub n : Nat) (m : Mach) : PortsSend m (countN index sub n m) := of_tor rfl
theorem count (index sub : Nat) (m : Mach) : PortsSend m (count index sub m) := of_tor rfl
theorem modCtx (i : Nat) (f : Ctx → Ctx) (m : Mach) : PortsSend m (modCtx i f m) := of_tor rfl
theorem modPass (i : Nat) (f : Pass → Pass) (m : Mach) : PortsSend m (modPass i f m) := of_tor rfl
theorem recStat (k : Nat) (m : Mach) : PortsSend m (recStat k m) := of_tor rfl
theorem notifyCode (code ctx flags : Nat) (m : Mach) : PortsSend m (notifyCode code ctx flags m) := of_tor (notifyCode_tor _ _ _ m)
theorem raiseDev (code : Nat) (m : Mach) : PortsSend m (raiseDev code m) := of_tor (raiseDev_tor code m)
theorem setDevState (st : DevState) (m : Mach) : PortsSend m (setDevState st m) := of_tor (setDevState_tor st m)

theorem sendSeq (p typ vc : Nat) (rest : List Byte) (nak : Nat) (m : Mach) : PortsSend m (sendSeq p typ vc rest nak m) := by
  unfold Machine.sendSeq
  dsimp only
  split
  · exact setPort p _ m
  · exact ((setPort p _ m).trans (emit _ _)).trans (count _ _ _)

theorem sendMgmt (p typ : Nat) (content : List Byte) (m : Mach) : PortsSend m (sendMgmt p typ content m) :=
  ((setPort p _ m).trans (emit _ _)).trans (count _ _ _)

theorem freeBuffer (p vc n : Nat) (m : Mach) : PortsSend m (freeBuffer p vc n m) := by
  unfold Machine.freeBuffer
  split
  · exact refl m
  · dsimp only
    split
    · exact (setPort p _ m).trans (sendSeq _ _ _ _ _ _)
    · exact setPort p _ m

theorem freeItems (l : List QItem) (m : Mach) : PortsSend m (freeItems l m) := foldl _ l m (fun x _ => freeBuffer _ _ _ x)

theorem owe (p vc n : Nat) (m : Mach) : PortsSend m (owe p vc n m) := setPort p _ m

theorem pumpPort (n p : Nat) (m : Mach) : PortsSend m (pumpPort n p m) := by
  induction n generalizing m with
  | zero => exact refl m
  | succ n ih =>
    unfold Machine.pumpPort
    dsimp only
    split
    · split
      · exact sendSeq _ _ _ _ _ m
      · exact refl m
    · split
      · exact (((setPort p _ m).trans (sendSeq _ _ _ _ _ _)).trans (freeBuffer _ _ _ _)).trans (ih _)
      · exact refl m

theorem pump (p : Nat) (m : Mach) : PortsSend m (pump p m) := pumpPort _ p m

theorem enqueue (p : Nat) (i : QItem) (m : Mach) : PortsSend m (enqueue p i m) := by
  unfold Machine.enqueue
  dsimp only
  split
  · exact ((countN _ _ _ m).trans (setPort p _ _)).trans (pump p _)
  · exact (setPort p _ m).trans (pump p _)

theorem putTxn (t : Txn) (m : Mach) : PortsSend m (putTxn t m) := by
  unfold Machine.putTxn
  dsimp only
  split
  · exact emit _ m
  · split
    · exact (emit _ m).trans (enqueue _ _ _)
    · exact emit _ m

theorem sendCtrl (kind causes : Nat) (data : List Byte) (i : Nat) (m : Mach) : PortsSend m (sendCtrl kind causes data i m) :=
  foldl _ _ m (fun x _ => putTxn _ x)

theorem deviceAuto (m : Mach) : PortsSend m (deviceAuto m) := by
  unfold Machine.deviceAuto
  dsimp only
  split
  · split
    · exact setDevState _ m
    · split
      · exact setDevState _ m
      · exact refl m
  · exact refl m

theorem waitEnds (i : Nat) (m : Mach) : PortsSend m (waitEnds i m) := by
  unfold Machine.waitEnds
  dsimp only
  split
  · exact countN _ _ _ m
  · exact refl m

theorem haltCtx (i : Nat) (m : Mach) : PortsSend m (haltCtx i m) := by
  unfold Machine.haltCtx
  split
  · exact refl m
  · exact ((waitEnds i m).trans (modCtx i _ _)).trans (sendCtrl _ _ _ _ _)

theorem failCtx (i code cause port va flags : Nat) (m : Mach) : PortsSend m (failCtx i code cause port va flags m) := by
  unfold Machine.failCtx
  split
  · exact refl m
  · exact ((((haltCtx i m).trans (modCtx i _ _)).trans (recStat _ _)).trans (notifyCode _ _ _ _)).trans (deviceAuto _)

theorem sendAbort (i cause : Nat) (m : Mach) : PortsSend m (sendAbort i cause m) := by
  unfold Machine.sendAbort
  dsimp only
  split
  · exact refl m
  · exact ((modPass i _ m).trans (sendCtrl _ _ _ _ _)).trans (countN _ _ _ _)

theorem abortPass (i cause : Nat) (own : Bool) (m : Mach) : PortsSend m (abortPass i cause own m) := by
  unfold Machine.abortPass
  dsimp only
  split
  · exact refl m
  · split
    · exact ((waitEnds i m).trans (modPass i _ _)).trans (sendAbort _ _ _)
    · exact (waitEnds i m).trans (modPass i _ _)

theorem ctxClassed (code i : Nat) (m : Mach) : PortsSend m (ctxClassed code i m) := by
  unfold Machine.ctxClassed
  dsimp only
  split
  · exact (modPass i _ m).trans (abortPass _ _ _ _)
  · exact modCtx i _ m

theorem allRunning (f : Nat → Mach → Mach) (m : Mach) (hf : ∀ i x, PortsSend x (f i x)) : PortsSend m (allRunning f m) :=
  foldl _ _ m (fun x i => by
    split
    · exact hf i x
    · exact refl x)

/-! What this says of the fields that receiving uses. -/

variable {a b : Mach} (h : PortsSend a b) (q : Nat)
include h

theorem st : (portAt b q).st = (portAt a q).st := by rw [h q]
theorem rxLast : (portAt b q).rxLast = (portAt a q).rxLast := by rw [h q]
theorem rxAny : (portAt b q).rxAny = (portAt a q).rxAny := by rw [h q]
theorem nakSent : (portAt b q).nakSent = (portAt a q).nakSent := by rw [h q]
theorem lastValid : (portAt b q).lastValid = (portAt a q).lastValid := by rw [h q]
theorem resends : (portAt b q).resends = (portAt a q).resends := by rw [h q]
theorem peer : (portAt b q).peer = (portAt a q).peer := by rw [h q]
theorem lastRx : (portAt b q).lastRx = (portAt a q).lastRx := by rw [h q]

end PortsSend

end Sys2Proof.Proofs

namespace Sys2Proof.Proofs

open Sys2Proof.Machine Sys2Proof.Laws

/-! ### Training (12 R408, R417, R428) -/

theorem portAt_sendSeq_ne {p q : Nat} (typ vc : Nat) (rest : List Byte) (nak : Nat) (m : Mach) (h : p ≠ q) :
    portAt (sendSeq p typ vc rest nak m) q = portAt m q := by
  unfold sendSeq
  dsimp only
  split
  · exact portAt_setPort_ne _ _ _ _ h
  · exact portAt_setPort_ne _ _ _ _ h

theorem portAt_freeBuffer_ne {p q : Nat} (vc n : Nat) (m : Mach) (h : p ≠ q) : portAt (freeBuffer p vc n m) q = portAt m q := by
  unfold freeBuffer
  split
  · rfl
  · dsimp only
    split
    · exact (portAt_sendSeq_ne _ _ _ _ _ h).trans (portAt_setPort_ne _ _ _ _ h)
    · exact portAt_setPort_ne _ _ _ _ h

/-- Items that came by other ports free nothing of this one. -/
theorem portAt_freeItems {q : Nat} (l : List QItem) (m : Mach) (h : ∀ i ∈ l, i.src ≠ q) : portAt (freeItems l m) q = portAt m q := by
  induction l generalizing m with
  | nil => rfl
  | cons i l ih =>
    obtain ⟨hi, hl⟩ := List.forall_mem_cons.mp h
    exact (ih _ hl).trans (portAt_freeBuffer_ne _ _ m hi)

/-- An item in a queue, when the port that it came by starts anew (R417). -/
def forgetItem (p : Nat) (i : QItem) : QItem := if i.src == p then { i with src := 8 } else i

theorem src_forgetItem_ne {p : Nat} (i : QItem) (hp : p < 8) : (forgetItem p i).src ≠ p := by
  unfold forgetItem
  split
  · exact fun e => absurd (e : 8 = p) (Nat.ne_of_gt hp)
  · rename_i h
    exact fun e => h (beq_iff_eq.mpr e)

theorem portAt_forgetPort (p q : Nat) (m : Mach) :
    portAt (forgetPort p m) q = { portAt m q with queue := (portAt m q).queue.map (forgetItem p) } := by
  by_cases hq : q < 8
  · exact tab_getD_map m.tor.ports (fun x => { x with queue := x.queue.map (forgetItem p) }) q {} {} hq
  · have h8 : 8 ≤ q := Nat.le_of_not_lt hq
    have hd : portAt m q = {} := tab_getD_past m.tor.ports q {} h8
    rw [hd]
    exact tab_getD_past (forgetPort p m).tor.ports q {} h8

/-- A queue that holds nothing from the port keeps its items. -/
theorem map_forgetItem {p : Nat} {l : List QItem} (h : l.all (fun i => i.src != p) = true) : l.map (forgetItem p) = l := by
  refine (List.map_congr_left (fun i hi => ?_)).trans (List.map_id l)
  have hs : i.src ≠ p := by simpa using List.all_eq_true.mp h i hi
  exact if_neg (by simpa using hs)

/-- R417, R428: a port as flit initialisation leaves it. -/
def initialised (time : Nat) (x : Port) : Port := { x with
  st := 5, at10 := time, limitRun := 0, txSeq := 0, rxLast := 4095, rxAny := false, nakSent := false,
  nullDue := false, nakDue := false,
  retry := [], resends := 0, resendFrom := 0, credits := vcBuffers, owed := [0, 0, 0, 0],
  partialRx := [[], [], [], []], badRx := [false, false, false, false], heldRx := [[], [], [], []], queue := [], vcPtr := 0,
  lastValid := time, agreed := false, lastRx := 0, lastRxAt := 0 }

/-- R417: the port starts anew, and what waited in its queue is gone, with its buffers free. -/
def flitsInitialised (p : Nat) (m : Mach) : Mach :=
  freeItems ((portAt m p).queue.map (forgetItem p)) (setPort p (initialised m.dev.time10 (portAt m p)) (forgetPort p m))

theorem exec_flitInitComplete {s : State} {p : Nat} (h : (portAt s.m p).st = 4) :
    exec (.flitInitComplete p) s = .next (onM (flitsInitialised p) s) := by
  simp only [exec, execFlitInitComplete, h, beq_self_eq_true, if_true, onM, portAt_forgetPort]
  rfl

theorem portAt_flitsInitialised_self {p : Nat} (m : Mach) (hp : p < 8) :
    portAt (flitsInitialised p m) p = initialised m.dev.time10 (portAt m p) := by
  refine (portAt_freeItems _ _ (fun i hi => ?_)).trans (portAt_setPort_self _ p _ hp)
  obtain ⟨j, -, rfl⟩ := List.mem_map.mp hi
  exact src_forgetItem_ne j hp

theorem portAt_flitsInitialised_ne {p q : Nat} (m : Mach) (h : q ≠ p) :
    SendsOnly { portAt m q with queue := (portAt m q).queue.map (forgetItem p) } (portAt (flitsInitialised p m) q) := by
  rw [← portAt_forgetPort, ← portAt_setPort_ne (forgetPort p m) p q (initialised m.dev.time10 (portAt m p)) (Ne.symm h)]
  exact PortsSend.freeItems _ _ q

/-- Where nothing waits at the port, and nothing that came by it elsewhere, the other ports are as they were. -/
theorem portAt_flitsInitialised_idle {p q : Nat} (m : Mach) (h : q ≠ p) (hq : (portAt m p).queue = [])
    (hs : m.tor.ports.list.all (fun x => x.queue.all (fun i => i.src != p)) = true) :
    portAt (flitsInitialised p m) q = portAt m q := by
  have hqueue : (portAt m q).queue.all (fun i => i.src != p) = true := by
    by_cases h8 : q < 8
    · have hl : q < m.tor.ports.1.length := by rw [m.tor.ports.2]; exact h8
      have hm : portAt m q ∈ m.tor.ports.list := by
        simp only [portAt, Tab.getD, Tab.list, List.getD, List.getElem?_eq_getElem hl, Option.getD_some]
        exact List.getElem_mem hl
      exact List.all_eq_true.mp hs _ hm
    · have hd : portAt m q = {} := tab_getD_past m.tor.ports q {} (Nat.le_of_not_lt h8)
      rw [hd]
      rfl
  rw [flitsInitialised, hq]
  exact ((portAt_setPort_ne _ _ _ _ (Ne.symm h)).trans (portAt_forgetPort p q m)).trans (by rw [map_forgetItem hqueue])

/-- R428: the port trains anew, and the third time in a row LNK_TRAIN_FAIL is raised. -/
def trainingTimedOut (p limit : Nat) (m : Mach) : Mach :=
  let x := portAt m p
  let m1 := setPort p { x with st := 1, limitRun := (x.limitRun + 1) % 3 } (timeTo (x.at10 + limit) m)
  if x.limitRun + 1 == 3 then raiseDev 0x0901 m1 else m1

theorem exec_trainingStateTimeout {s : State} {p : Nat}
    (h : ((portAt s.m p).st = 2 ∧ (portAt s.m p).laneWait = false) ∨ (portAt s.m p).st = 3 ∨ (portAt s.m p).st = 4) :
    ∃ limit, exec (.trainingStateTimeout p) s = .next (onM (trainingTimedOut p limit) s) :=
  ⟨_, congrArg Host.Outcome.next (if_pos (by simpa [or_assoc] using h))⟩

theorem portAt_trainingTimedOut (p limit q : Nat) (m : Mach) :
    portAt (trainingTimedOut p limit m) q =
      portAt (setPort p { portAt m p with st := 1, limitRun := ((portAt m p).limitRun + 1) % 3 } m) q := by
  unfold trainingTimedOut
  dsimp only
  split
  · exact portAt_congr (raiseDev_tor _ _) q
  · rfl

theorem raisedCode_trainingTimedOut {p : Nat} (limit : Nat) {m : Mach} (hr : (portAt m p).limitRun = 2) (hn : notifies m.dev.st = true) :
    raisedCode 0x0901 (trainingTimedOut p limit m) := by
  unfold trainingTimedOut
  simp only [hr, beq_self_eq_true, if_true]
  exact raisedCode_notifyCode _ _ (by decide) hn

/-- Settles O10: each command of training answers one update of its port, beside which only flit initialisation touches other ports. -/
theorem trainingAdvances : Obligations.TrainingAdvances := by
  unfold Obligations.TrainingAdvances
  refine ⟨⟨?_, ?_, ?_, ?_, ?_⟩, ?_, ?_⟩
  · intro s p lanes hp hst hl
    exact congrArg Host.Outcome.next (if_pos (by simp [hst, hl, hp]))
  · intro s p ok hp hst hw good
    have hc : ((portAt s.m p).st == 2 && !(portAt s.m p).laneWait && decide (p < 8)) = true := by simp [hst, hw, hp]
    by_cases hg : good.length < 40
    · refine ⟨_, congrArg Host.Outcome.next ((if_pos hc).trans (if_pos hg)), fun h => absurd hg (Nat.not_lt.mpr h), fun _ => ?_,
        fun q hq => (portAt_congr (raiseDev_tor _ _) q).trans (portAt_setPort_ne _ _ _ _ (Ne.symm hq)), raiseDev_mem _ _, raiseDev_ctxs _ _⟩
      rw [onM_m, portAt_congr (raiseDev_tor _ _), portAt_setPort_self _ p _ hp]
      exact ⟨hst, rfl⟩
    · refine ⟨_, congrArg Host.Outcome.next ((if_pos hc).trans (if_neg hg)), fun _ => ?_, fun h => absurd h hg,
        fun q hq => portAt_setPort_ne _ _ _ _ (Ne.symm hq), rfl, rfl⟩
      rw [onM_m, portAt_setPort_self _ p _ hp]
      exact ⟨rfl, rfl, rfl, rfl⟩
  · intro s p hp hst hw
    refine ⟨_, congrArg Host.Outcome.next (if_pos (by simp [hst, hw])), portAt_setPort_self _ p _ hp, ?_⟩
    exact Nat.le_max_right _ _
  · intro s p hst
    exact congrArg Host.Outcome.next (if_pos (by simp [hst]))
  · intro s p hst
    have hp : p < 8 := lt_of_st_ne (m := s.m) (by simp [hst])
    refine ⟨_, exec_flitInitComplete hst, ?_⟩
    rw [onM_m, portAt_flitsInitialised_self s.m hp]
    refine ⟨rfl, rfl, rfl, rfl, rfl, fun q hq => ?_, fun hqueue hsrc q hq => portAt_flitsInitialised_idle s.m hq hqueue hsrc⟩
    rw [portAt_flitsInitialised_ne s.m hq]
    exact ⟨rfl, rfl⟩
  · intro s p h
    have hp : p < 8 := lt_of_st_ne (m := s.m) (by omega)
    obtain ⟨limit, ht⟩ := exec_trainingStateTimeout h
    refine ⟨_, ht, ?_⟩
    rw [onM_m, portAt_trainingTimedOut, portAt_setPort_self _ p _ hp]
    exact ⟨rfl, rfl, raisedCode_trainingTimedOut limit,
      fun q hq => (portAt_trainingTimedOut p limit q s.m).trans (portAt_setPort_ne _ _ _ _ (Ne.symm hq))⟩
  · intro s p hst
    have hp : p < 8 := lt_of_st_ne (m := s.m) (by simp [hst])
    refine ⟨_, congrArg Host.Outcome.next (if_pos (by simp [hst])), ?_⟩
    rw [onM_m, portAt_setPort_self _ p _ hp]
    exact ⟨rfl, Nat.le_max_right _ _, fun q hq => portAt_setPort_ne _ _ _ _ (Ne.symm hq)⟩

end Sys2Proof.Proofs

namespace Sys2Proof.Proofs

open Sys2Proof.Machine Sys2Proof.Laws

theorem raisedCode_raiseDev {code : Nat} {m : Mach} (hc : 256 ≤ code) (hn : notifies m.dev.st = true) :
    raisedCode code (raiseDev code m) := raisedCode_notifyCode 0xFF 0 hc hn

/-! ### Identity (12 R429 to R431) -/

theorem portAt_mgmtIn {p : Nat} (m : Mach) (hp : p < 8) :
    portAt (mgmtIn p m) p = { portAt m p with lastValid := m.dev.time10 } := portAt_setPort_self m p _ hp

theorem counterOf_mgmtIn {index sub : Nat} (p : Nat) (m : Mach) (h : dkey index sub ≠ dkey 0x6900 0x02) :
    counterOf (mgmtIn p m) index sub = counterOf m index sub :=
  counterOf_count_ne (setPort p { portAt m p with lastValid := m.dev.time10 } m) h

/-- What the dictionary and the ring sizes say of a neighbour (R405, R430). -/
theorem identAgrees_congr {a b : Mach} (h : b.mgmt.dict = a.mgmt.dict) (p : Nat) (id : Ident) :
    identAgrees b p id = identAgrees a p id := by
  simp only [identAgrees, neighbourCoord, ringSize_congr h, ownCoord_congr h, dnum_congr h]

theorem ownCoord?_congr {a b : Mach} (h : b.mgmt.dict = a.mgmt.dict) : ownCoord? b = ownCoord? a := by
  simp only [ownCoord?, dnum_congr h]

theorem parentPort_congr {a b : Mach} (h : b.mgmt.dict = a.mgmt.dict) : parentPort b = parentPort a := by
  simp only [parentPort, ownCoord?_congr h, ringSize_congr h]

/-- R430: an identity that agrees takes the port to ACTIVE and is counted; one that does not raises LNK_COORD_MISMATCH. -/
theorem identTaken_eq {p : Nat} {id : Ident} {m : Mach} (hst : (portAt m p).st = 5) (hid : id.coord ≠ 0xFFFFFFFF)
    (hown : (ownCoord? m).isSome) :
    identTaken p id m =
      if identAgrees m p id then
        count 0x6900 0x09 (setPort p { portAt m p with peer := id, agreed := true, st := 6, at10 := m.dev.time10 } m)
      else raiseDev 0x0906 (setPort p { portAt m p with peer := id } m) := by
  have hn : (ownCoord? m).isNone = false := by simpa [Option.isSome_iff_ne_none] using hown
  simp only [identTaken, hst, bne_self_eq_false, Bool.false_or, beq_eq_false_iff_ne.mpr hid, hn, Bool.false_eq_true, if_false]

/-- A command of a port that receives. -/
theorem next_ite_receives {p : Nat} {s : State} (f : Mach → Mach) (h : (portAt s.m p).st = 5 ∨ (portAt s.m p).st = 6) :
    (Host.Outcome.next (if (portAt s.m p).st == 5 || (portAt s.m p).st == 6 then onM f s else s) :
      Host.Outcome State Fault Refusal) = .next (onM f s) :=
  congrArg Host.Outcome.next (if_pos (receives_beq h))

/-! ### The time exchange (12 R435, R436, 16 R554) -/

/-- Division toward zero. -/
theorem half_eq_tdiv (x : Int) : half x = x.tdiv 2 := by
  unfold half
  split
  · rw [← Int.tdiv_eq_ediv_of_nonneg (by omega), Int.neg_tdiv, Int.neg_neg]
  · rw [← Int.tdiv_eq_ediv_of_nonneg (by omega)]

/-- R435, R436: what an exchange on the parent port leaves, before the lock is counted. -/
def timeExchanged (p txTime echoTx echoRx rxTime : Nat) (m : Mach) : Mach :=
  let up := (echoRx : Int) - echoTx
  let dn := (rxTime : Int) - txTime
  setPort p { portAt m p with lastRx := txTime, lastRxAt := rxTime, theta := half (up - dn), delta := half (up + dn) } m

/-- R436: the time base is stepped by the offset, once, but never backwards. -/
def timeStepped (theta : Int) (m : Mach) : Mach :=
  count 0x6900 0x0F { m with
    dev := { m.dev with time10 := max m.dev.time10 ((m.dev.time10 : Int) + theta).toNat }, tor := { m.tor with stepped := true } }

/-- R436: a rate within its bound is chosen. -/
def timeSlewed (theta : Int) (m : Mach) : Mach :=
  let (x, m2) := freshFree m
  let r : Int := (x % 400001 : Nat) - 200000
  { m2 with dev := { m2.dev with rate := if theta == 0 then 0 else r } }

/-- R436: small offsets in a row lock the time base. -/
def lockCounted (theta : Int) (m : Mach) : Mach :=
  let n := if theta.natAbs ≤ 20 then min 16 (m.tor.lockCount + 1) else 0
  { m with tor := { m.tor with lockCount := n, locked := m.tor.locked || n == 16 } }

theorem countedOnce_timeStepped (theta : Int) {a m : Mach} (h : counterOf m 0x6900 0x0F = counterOf a 0x6900 0x0F) :
    countedOnce 0x6900 0x0F a (timeStepped theta m) :=
  countedOnce_of_counterOf_eq (b := { m with
    dev := { m.dev with time10 := max m.dev.time10 ((m.dev.time10 : Int) + theta).toNat }, tor := { m.tor with stepped := true } }) h

theorem keepaliveTaken_eq {p txTime echoTx echoRx rxTime : Nat} {m : Mach} (h : parentPort m = some p) :
    keepaliveTaken p txTime echoTx echoRx rxTime m =
      let theta := half (((echoRx : Int) - echoTx) - ((rxTime : Int) - txTime))
      let m1 := timeExchanged p txTime echoTx echoRx rxTime m
      lockCounted theta (if !m.tor.locked && !m.tor.stepped && m.dev.st != .run then timeStepped theta m1 else timeSlewed theta m1) := by
  unfold keepaliveTaken
  rw [if_neg (by simp [h])]
  rfl

section Exchanged

variable {p txTime echoTx echoRx rxTime : Nat} {m : Mach} (hpar : parentPort m = some p)
include hpar

theorem portAt_keepaliveTaken : portAt (keepaliveTaken p txTime echoTx echoRx rxTime m) p =
    portAt (timeExchanged p txTime echoTx echoRx rxTime m) p := by
  rw [keepaliveTaken_eq hpar]
  dsimp only
  split <;> rfl

theorem lock_keepaliveTaken :
    let t := keepaliveTaken p txTime echoTx echoRx rxTime m
    let theta := half (((echoRx : Int) - echoTx) - ((rxTime : Int) - txTime))
    t.tor.lockCount = (if theta.natAbs ≤ 20 then min 16 (m.tor.lockCount + 1) else 0) ∧
      t.tor.locked = (m.tor.locked || decide (t.tor.lockCount = 16)) := by
  rw [keepaliveTaken_eq hpar]
  dsimp only
  split <;> exact ⟨rfl, rfl⟩

/-- R436, R554: a device that is not locked, has not stepped and is not in RUN steps. -/
theorem keepaliveTaken_steps (hl : m.tor.locked = false) (hs : m.tor.stepped = false) (hr : m.dev.st ≠ .run) :
    let theta := half (((echoRx : Int) - echoTx) - ((rxTime : Int) - txTime))
    keepaliveTaken p txTime echoTx echoRx rxTime m =
      lockCounted theta (timeStepped theta (timeExchanged p txTime echoTx echoRx rxTime m)) := by
  rw [keepaliveTaken_eq hpar]
  exact congrArg (lockCounted _) (if_pos (by simp [hl, hs, hr]))

/-- R436: the time base of a device in RUN is not stepped. -/
theorem time10_keepaliveTaken_run (hr : m.dev.st = .run) : (keepaliveTaken p txTime echoTx echoRx rxTime m).dev.time10 = m.dev.time10 := by
  rw [keepaliveTaken_eq hpar]
  dsimp only
  rw [if_neg (by simp [hr])]
  rfl

end Exchanged

/-- Settles O11: an IDENT by its two answers, the timers by what they send, an exchange by its equation in the device's case. -/
theorem identityAndTimeExchanged : Obligations.IdentityAndTimeExchanged := by
  unfold Obligations.IdentityAndTimeExchanged
  refine ⟨⟨?_, ?_, ?_, ?_⟩, ?_⟩
  · intro s p id hst hid hown
    have hp : p < 8 := lt_of_receives (.inl hst)
    have hport := portAt_mgmtIn s.m hp
    have hagree : identAgrees (mgmtIn p s.m) p id = identAgrees s.m p id := identAgrees_congr rfl p id
    have hcoord : ownCoord? (mgmtIn p s.m) = ownCoord? s.m := ownCoord?_congr rfl
    have hst1 : (portAt (mgmtIn p s.m) p).st = 5 := (congrArg Port.st hport).trans hst
    refine ⟨_, next_ite_receives _ (.inl hst), ?_⟩
    rw [onM_m, identTaken_eq hst1 hid (by rw [hcoord]; exact hown), hagree]
    cases identAgrees s.m p id with
    | true =>
      rw [if_pos rfl]
      have ht := (portAt_congr (count_tor 0x6900 0x09 _) p).trans (portAt_setPort_self (mgmtIn p s.m) p
        { portAt (mgmtIn p s.m) p with peer := id, agreed := true, st := 6, at10 := (mgmtIn p s.m).dev.time10 } hp)
      refine ⟨congrArg Port.peer ht, fun _ => ⟨congrArg Port.st ht, congrArg Port.agreed ht, ?_⟩, fun h => absurd h.symm Bool.false_ne_true⟩
      exact countedOnce_of_counterOf_eq (b := setPort p _ (mgmtIn p s.m)) (counterOf_mgmtIn p s.m (by decide))
    | false =>
      rw [if_neg Bool.false_ne_true]
      have ht := (portAt_congr (raiseDev_tor 0x0906 _) p).trans
        (portAt_setPort_self (mgmtIn p s.m) p { portAt (mgmtIn p s.m) p with peer := id } hp)
      refine ⟨congrArg Port.peer ht, fun h => absurd h Bool.false_ne_true, fun _ => ⟨?_, ?_⟩⟩
      · exact (congrArg Port.st ht).trans hst1
      · exact fun hn => raisedCode_raiseDev (by decide) hn
  · intro s p hst
    exact ⟨_, congrArg Host.Outcome.next (if_pos (by simp [hst])), rfl, rfl⟩
  · intro s p hst
    exact ⟨_, next_ite_receives _ hst, rfl, rfl⟩
  · intro s p cause hst
    exact next_ite_receives _ hst
  · intro s p tx etx erx rx hst hparent
    have hp : p < 8 := lt_of_receives hst
    have hpar : parentPort (mgmtIn p s.m) = some p := (parentPort_congr (a := s.m) rfl).trans hparent
    refine ⟨_, next_ite_receives _ hst, ?_⟩
    have hport := (portAt_keepaliveTaken (txTime := tx) (echoTx := etx) (echoRx := erx) (rxTime := rx) hpar).trans
      (portAt_setPort_self _ p _ hp)
    obtain ⟨hcount, hlock⟩ := lock_keepaliveTaken (txTime := tx) (echoTx := etx) (echoRx := erx) (rxTime := rx) hpar
    rw [onM_m, hport]
    have hrun := time10_keepaliveTaken_run (txTime := tx) (echoTx := etx) (echoRx := erx) (rxTime := rx) hpar
    refine ⟨half_eq_tdiv _, half_eq_tdiv _, hcount, hlock, rfl, rfl, fun hl hs hr => ?_, hrun⟩
    rw [keepaliveTaken_steps hpar hl hs hr]
    exact ⟨rfl, rfl, countedOnce_timeStepped _ (m := timeExchanged p tx etx erx rx (mgmtIn p s.m)) (counterOf_mgmtIn p s.m (by decide))⟩

end Sys2Proof.Proofs

namespace Sys2Proof.Proofs

open Sys2Proof.Machine Sys2Proof.Laws

/-! ### What losing a link can do (12 R411, R416, R428, R432, R433, R438) -/

/-- `b` follows from `a` by the fault path, or by the loss of the time parent: the device state, the management port, the ports and
the lock of the time base, the contexts, counters and recovery statistics may differ; codes raised stay raised, and what has left the
device has left it. -/
structure LinkPath (a b : Mach) : Prop where
  rest : b = { a with
    dev := { a.dev with st := b.dev.st }, mgmt := b.mgmt, tor := { b.tor with held := a.tor.held }, ctxs := b.ctxs, cnt := b.cnt,
    recStats := b.recStats, out := b.out }
  out : a.out <+: b.out
  raised : ∀ code, 256 ≤ code → raisedCode code a → raisedCode code b

namespace LinkPath

theorem of_faultPath {a b : Mach} (h : FaultPath a b) : LinkPath a b :=
  ⟨by rw [h.rest], h.out, h.raised⟩

theorem refl (m : Mach) : LinkPath m m := of_faultPath (FaultPath.refl m)

theorem trans {a b c : Mach} (h : LinkPath a b) (k : LinkPath b c) : LinkPath a c where
  rest := by rw [k.rest, h.rest]
  out := h.out.trans k.out
  raised := fun code hc hr => k.raised code hc (h.raised code hc hr)

theorem foldl {α : Type} (f : Mach → α → Mach) (l : List α) (m : Mach) (hf : ∀ x a, LinkPath x (f x a)) : LinkPath m (l.foldl f m) :=
  foldl_keeps (fun x => LinkPath m x) f l m (refl m) (fun x a h => h.trans (hf x a))

theorem sendMgmt (p typ : Nat) (content : List Byte) (m : Mach) : LinkPath m (sendMgmt p typ content m) :=
  of_faultPath (((FaultPath.setPort p _ m).trans (FaultPath.emit _ _)).trans (FaultPath.count _ _ _))

theorem freeItems (l : List QItem) (m : Mach) : LinkPath m (freeItems l m) :=
  of_faultPath (FaultPath.foldl _ l m (fun x _ => FaultPath.freeBuffer _ _ _ x))

theorem loseTime (p : Nat) (m : Mach) : LinkPath m (loseTime p m) := by
  have hlock : LinkPath m { m with tor := { m.tor with locked := false, lockCount := 0, stepped := false } } :=
    ⟨rfl, List.prefix_refl _, fun _ _ h => h⟩
  unfold Machine.loseTime
  split
  · exact hlock.trans (of_faultPath (FaultPath.raiseDev _ _))
  · exact refl m

variable {a b : Mach} (h : LinkPath a b)
include h

theorem mem : b.mem = a.mem := by rw [h.rest]
theorem time10 : b.dev.time10 = a.dev.time10 := by rw [h.rest]
theorem held : b.tor.held = a.tor.held := by rw [h.rest]

end LinkPath

/-! ### A port that enters DOWN (12 R428, R433, R438) -/

/-- R428: a port as its loss leaves it. -/
def downed (time : Nat) (x : Port) : Port := { x with
  st := 7, at10 := time, agreed := false, queue := [], retry := [], swap := [], laneWait := false, nakSent := false,
  nullDue := false, nakDue := false, partialRx := [[], [], [], []], badRx := [false, false, false, false], heldRx := [[], [], [], []] }

/-- R428, R429: a receiving port sends DOWN, and what waited in its queue is gone, with its buffers free. -/
def linkDropped (p cause : Nat) (m : Mach) : Mach :=
  freeItems (portAt m p).queue (setPort p (downed m.dev.time10 (portAt m p)) (sendMgmt p 4 (leBytes 2 cause) m))

/-- R438: the parent port's loss of ACTIVE is the loss of the time parent. -/
theorem portDown_eq {p : Nat} (cause : Nat) {m : Mach} (h : (portAt m p).st = 5 ∨ (portAt m p).st = 6) :
    portDown p cause m = if (portAt m p).st == 6 then loseTime p (linkDropped p cause m) else linkDropped p cause m := by
  unfold portDown
  dsimp only
  rw [if_neg (by rcases h with h | h <;> simp [h])]
  rfl

theorem linkPath_linkDropped (p cause : Nat) (m : Mach) : LinkPath m (linkDropped p cause m) :=
  ((LinkPath.sendMgmt p 4 _ m).trans (LinkPath.of_faultPath (FaultPath.setPort p _ _))).trans (LinkPath.freeItems _ _)

theorem st_linkDropped {p : Nat} (cause : Nat) (m : Mach) (hp : p < 8) : (portAt (linkDropped p cause m) p).st = 7 :=
  ((PortsSend.freeItems _ _).st p).trans (congrArg Port.st (portAt_setPort_self _ p _ hp))

theorem ctxs_linkDropped (p cause : Nat) (m : Mach) : (linkDropped p cause m).ctxs = m.ctxs :=
  ctxs_foldl _ _ _ (fun x _ => freeBuffer_ctxs _ _ _ x)

theorem loseTime_ports (p q : Nat) (m : Mach) : portAt (loseTime p m) q = portAt m q := by
  unfold loseTime
  split
  · exact portAt_congr (raiseDev_tor _ _) q
  · rfl

theorem loseTime_ctxs (p : Nat) (m : Mach) : (loseTime p m).ctxs = m.ctxs := by
  unfold loseTime
  split
  · exact raiseDev_ctxs _ _
  · rfl

section PortDown

variable {p : Nat} {m : Mach} (cause : Nat) (h : (portAt m p).st = 5 ∨ (portAt m p).st = 6)
include h

theorem linkPath_portDown : LinkPath m (portDown p cause m) := by
  rw [portDown_eq cause h]
  split
  · exact (linkPath_linkDropped p cause m).trans (LinkPath.loseTime p _)
  · exact linkPath_linkDropped p cause m

theorem st_portDown : (portAt (portDown p cause m) p).st = 7 := by
  rw [portDown_eq cause h]
  split
  · rw [loseTime_ports]
    exact st_linkDropped cause m (lt_of_receives h)
  · exact st_linkDropped cause m (lt_of_receives h)

theorem ctxs_portDown : (portDown p cause m).ctxs = m.ctxs := by
  rw [portDown_eq cause h]
  split
  · exact (loseTime_ctxs p _).trans (ctxs_linkDropped p cause m)
  · exact ctxs_linkDropped p cause m

end PortDown

/-! ### A fault of a port (12 R411, R416, R432, R433, 15 R522) -/

/-- R433: one context's part of a fault on an axis. -/
def axisFails (p code i : Nat) (m : Mach) : Mach :=
  if (ctxAt m i).axes.contains (p / 2) then failCtx i code 0x01 p 0 0 m else m

theorem failAxis_eq (p code : Nat) (m : Mach) : failAxis p code m = allRunning (axisFails p code) m := rfl

theorem faultPath_axisFails (p code i : Nat) (m : Mach) : FaultPath m (axisFails p code i m) := by
  unfold axisFails
  split
  · exact FaultPath.failCtx _ _ _ _ _ _ m
  · exact FaultPath.refl m

theorem faultPath_failAxis (p code : Nat) (m : Mach) : FaultPath m (failAxis p code m) :=
  FaultPath.foldl _ _ m (fun x i => by
    split
    · exact faultPath_axisFails p code i x
    · exact FaultPath.refl x)

theorem portsSend_failAxis (p code : Nat) (m : Mach) : PortsSend m (failAxis p code m) :=
  PortsSend.allRunning _ m (fun i x => by
    split
    · exact PortsSend.failCtx _ _ _ _ _ _ x
    · exact PortsSend.refl x)

section PortFault

variable {p : Nat} {m : Mach} {code : Nat} (h : (portAt m p).st = 5 ∨ (portAt m p).st = 6)
include h

theorem receives_raiseDev : (portAt (raiseDev code m) p).st = 5 ∨ (portAt (raiseDev code m) p).st = 6 := by
  rw [portAt_congr (raiseDev_tor code m)]
  exact h

theorem linkPath_portFault : LinkPath (raiseDev code m) (portFault p code m) := by
  have hd := linkPath_portDown code (receives_raiseDev (code := code) h)
  unfold portFault
  dsimp only
  split
  · exact hd.trans (LinkPath.of_faultPath (faultPath_failAxis p code _))
  · exact hd

theorem st_portFault : (portAt (portFault p code m) p).st = 7 := by
  have hd := st_portDown code (receives_raiseDev (code := code) h)
  unfold portFault
  dsimp only
  split
  · exact ((portsSend_failAxis p code _).st p).trans hd
  · exact hd

/-- R602: the fault's code is raised where the device may raise it. -/
theorem raisedCode_portFault (hc : 256 ≤ code) (hn : notifies m.dev.st = true) : raisedCode code (portFault p code m) :=
  (linkPath_portFault h).raised code hc (raisedCode_raiseDev hc hn)

end PortFault

theorem ctxAt_axisFails_ne {i j : Nat} (p code : Nat) (m : Mach) (h : j ≠ i) : ctxAt (axisFails p code j m) i = ctxAt m i := by
  unfold axisFails
  split
  · exact ctxAt_failCtx_ne _ _ _ _ _ _ h
  · rfl

/-- An operation on each running context, where each is a matter of its own context, is to a context its own alone. -/
theorem ctxAt_allRunning {f : Nat → Mach → Mach} (hf : ∀ x j i, j ≠ i → ctxAt (f j x) i = ctxAt x i) {i : Nat} (hi : i < 16) (m : Mach) :
    ∃ x, ctxAt x i = ctxAt m i ∧ ctxAt (allRunning f m) i = if (ctxAt m i).st == .run then ctxAt (f i x) i else ctxAt m i := by
  obtain ⟨x, hx, he⟩ := ctxAt_foldl_own (f := fun m i => if (ctxAt m i).st == .run then f i m else m)
    (fun x j k hjk => by
      split
      · exact hf x j k hjk
      · rfl) List.nodup_range (List.mem_range.mpr hi) m
  refine ⟨x, hx, he.trans ?_⟩
  rw [hx]
  split
  · rfl
  · exact hx

/-- R522: the failure record names the port. -/
theorem octs_failureBytes_port (m : Mach) (i code cause va : Nat) {port : Nat} (hp : port < 256) :
    octs (failureBytes m i code cause port va) 20 1 = port := by
  have h := octs_append_right (leBytes 2 code ++ leBytes 1 cause ++ leBytes 1 i ++ leBytes 4 (dnum m 0x5000 0x02) ++
    leBytes 8 (ctxAt m i).step ++ leBytes 4 (ctxAt m i).replay) (leBytes 1 port ++ (leBytes 3 0 ++ (leBytes 8 (ctxAt m i).lastCommitted ++
    (leBytes 8 va ++ List.replicate 24 0)))) 0 1
  rw [octs_leBytes_append] at h
  simp only [failureBytes, List.append_assoc, List.length_append, leBytes_length] at h ⊢
  rw [h]
  omega

theorem portFault_eq (p code : Nat) (m : Mach) :
    portFault p code m =
      if (portAt m p).st == 6 then failAxis p code (portDown p code (raiseDev code m)) else portDown p code (raiseDev code m) := rfl

section Contexts

variable {p i : Nat} {m : Mach} (code : Nat) (h : (portAt m p).st = 5 ∨ (portAt m p).st = 6) (hi : i < 16)
include h

theorem ctxAt_down : ctxAt (portDown p code (raiseDev code m)) i = ctxAt m i :=
  ctxAt_congr ((ctxs_portDown code (receives_raiseDev h)).trans (raiseDev_ctxs code m)) i

include hi

/-- R433: a context that does not use the axis, that is not in RUN, or whose link was not yet ACTIVE, is as it was. -/
theorem ctxAt_portFault_kept
    (hk : (portAt m p).st = 5 ∨ (ctxAt m i).st ≠ .run ∨ (ctxAt m i).axes.contains (p / 2) = false) :
    ctxAt (portFault p code m) i = ctxAt m i := by
  have hd := ctxAt_down (i := i) code h
  rw [portFault_eq]
  split
  · rename_i h6
    obtain ⟨x, hx, he⟩ := ctxAt_allRunning (f := axisFails p code) (fun x j i hj => ctxAt_axisFails_ne p code x hj) hi
      (portDown p code (raiseDev code m))
    rw [failAxis_eq, he, hd]
    rw [hd] at hx
    split
    · rename_i hrun
      have haxes : (ctxAt m i).axes.contains (p / 2) = false := by
        rcases hk with h5 | hst | haxes
        · rw [h5] at h6
          cases h6
        · exact absurd (beq_iff_eq.mp hrun) hst
        · exact haxes
      unfold axisFails
      rw [hx, haxes, if_neg Bool.false_ne_true, hx]
    · rfl
  · exact hd

/-- R433, R522: a context in RUN whose cuts use the axis of an ACTIVE link fails, and its record names the port. -/
theorem failedWith_portFault (hc : code < 65536) (h6 : (portAt m p).st = 6) (hrun : (ctxAt m i).st = .run)
    (haxes : (ctxAt m i).axes.contains (p / 2) = true) :
    failedWith i code 0x01 (portFault p code m) ∧ octs (ctxAt (portFault p code m) i).failure 20 1 = p := by
  have hd := ctxAt_down (i := i) code h
  obtain ⟨x, hx, he⟩ := ctxAt_allRunning (f := axisFails p code) (fun x j i hj => ctxAt_axisFails_ne p code x hj) hi
    (portDown p code (raiseDev code m))
  rw [hd] at hx he
  have hst : (ctxAt x i).st = .run := by rw [hx]; exact hrun
  have hp : p < 8 := lt_of_receives h
  have hfail : ctxAt (portFault p code m) i = ctxAt (failCtx i code 0x01 p 0 0 x) i := by
    rw [portFault_eq, if_pos (beq_iff_eq.mpr h6), failAxis_eq, he, if_pos (beq_iff_eq.mpr hrun), axisFails, hx, if_pos haxes]
  unfold failedWith
  rw [hfail]
  refine ⟨failedWith_failCtx p 0 0 hi (by simp [hst]) (by simp [hst]) hc (by decide), ?_⟩
  rw [ctxAt_failCtx code 0x01 p 0 0 hi (by simp [hst]) (by simp [hst])]
  exact octs_failureBytes_port x i code 0x01 0 (by omega)

end Contexts

end Sys2Proof.Proofs

namespace Sys2Proof.Proofs

open Sys2Proof.Machine Sys2Proof.Laws

/-! ### Lanes (12 R409 to R411) -/

theorem tbit_or_two_pow (x k : Nat) : tbit (x ||| 2 ^ k) k = true := by
  rw [tbit_eq_testBit, Nat.testBit_or, Nat.testBit_two_pow_self, Bool.or_true]

theorem laneFails_iff (m : Mach) (ev : LaneEvent) : laneFails m ev = true ↔ ev.lost = true ∨ dnum m 0x5000 0x09 < ev.symbols := by
  simp [laneFails]

/-- R410, R411: a port that has chosen a spare for a lane. -/
def spareChosen (lane sp : Nat) (rest : List Nat) (x : Port) : Port :=
  { x with rxFailed := x.rxFailed ||| 2 ^ lane, rxSpare := rest, swap := x.swap ++ [(lane, sp, x.rxEpoch + x.swap.length + 1)] }

theorem askSwap_spare {p sp : Nat} {rest : List Nat} {m : Mach} (lane : Nat) (h : (portAt m p).rxSpare = sp :: rest) :
    askSwap p lane m = sendMgmt p 3 (swapContent (lane, sp, (portAt m p).rxEpoch + (portAt m p).swap.length + 1))
      (setPort p (spareChosen lane sp rest (portAt m p)) m) := by
  simp only [askSwap, h]
  rfl

theorem askSwap_none {p : Nat} {m : Mach} (lane : Nat) (h : (portAt m p).rxSpare = []) :
    askSwap p lane m = portFault p 0x0902 (setPort p { portAt m p with rxFailed := (portAt m p).rxFailed ||| 2 ^ lane } m) := by
  simp only [askSwap, h]

/-- R410: a mapped lane that fails and is not being swapped is. -/
theorem exec_laneFailure {s : State} {p : Nat} {ev : LaneEvent} (hst : (portAt s.m p).st = 5 ∨ (portAt s.m p).st = 6)
    (hmap : ev.lane ∈ (portAt s.m p).rxMap) (hf : ev.lost = true ∨ dnum s.m 0x5000 0x09 < ev.symbols)
    (hswap : (portAt s.m p).swap = []) : exec (.laneFailure p ev) s = .next (onM (askSwap p ev.lane) s) :=
  congrArg Host.Outcome.next (if_pos (by
    rw [receives_beq hst, (laneFails_iff s.m ev).mpr hf, hswap, List.contains_iff_mem.mpr hmap]
    rfl))

theorem tor_sendMgmt (p typ : Nat) (content : List Byte) (m : Mach) :
    (sendMgmt p typ content m).tor = (setPort p { portAt m p with nakDue := false } m).tor := rfl

theorem out_sendMgmt (p typ : Nat) (content : List Byte) (m : Mach) :
    (sendMgmt p typ content m).out = m.out ++ [.flit p ⟨mgmtHeader (portAt m p), flitRest (leBytes 2 typ ++ content)⟩] := rfl

theorem portAt_sendMgmt {p : Nat} (typ : Nat) (content : List Byte) (m : Mach) (hp : p < 8) :
    portAt (sendMgmt p typ content m) p = { portAt m p with nakDue := false } :=
  (portAt_congr (tor_sendMgmt p typ content m) p).trans (portAt_setPort_self m p _ hp)

/-- The swaps that a port asks for, one management flit each. -/
def sendSwaps (p : Nat) (l : List (Nat × Nat × Nat)) (m : Mach) : Mach := l.foldl (fun m w => sendMgmt p 3 (swapContent w) m) m

theorem sendSwaps_cons (p : Nat) (w : Nat × Nat × Nat) (l : List (Nat × Nat × Nat)) (m : Mach) :
    sendSwaps p (w :: l) m = sendSwaps p l (sendMgmt p 3 (swapContent w) m) := rfl

theorem tab_set_set {α : Type} {n : Nat} (t : Tab α n) (i : Nat) (x y : α) : (t.set i x).set i y = t.set i y :=
  Subtype.ext (List.set_set _)

/-- R429: each swap leaves in a flit of its own, and of the torus only a Nak that waited differs. -/
theorem sendSwaps_sent {p : Nat} (hp : p < 8) (l : List (Nat × Nat × Nat)) (m : Mach) :
    ∃ hs : List Nat, hs.length = l.length ∧
      (sendSwaps p l m).out = m.out ++ (hs.zip l).map (fun x => .flit p ⟨x.1, flitRest (leBytes 2 3 ++ swapContent x.2)⟩) ∧
      (l ≠ [] → (sendSwaps p l m).tor = (setPort p { portAt m p with nakDue := false } m).tor) := by
  induction l generalizing m with
  | nil => exact ⟨[], rfl, (List.append_nil _).symm, fun h => absurd rfl h⟩
  | cons w l ih =>
    obtain ⟨hs, hlen, hout, htor⟩ := ih (sendMgmt p 3 (swapContent w) m)
    refine ⟨mgmtHeader (portAt m p) :: hs, congrArg (· + 1) hlen, ?_, fun _ => ?_⟩
    · rw [sendSwaps_cons, hout, out_sendMgmt, List.append_assoc, List.zip_cons_cons, List.map_cons, List.singleton_append]
    · rw [sendSwaps_cons]
      cases l with
      | nil => exact tor_sendMgmt p 3 _ m
      | cons v r =>
        rw [portAt_sendMgmt 3 _ m hp, setPort_tor, tor_sendMgmt, setPort_tor, tab_set_set] at htor
        exact htor (List.cons_ne_nil v r)

theorem find_epoch (l sp ep : Nat) : [(l, sp, ep)].find? (fun w => w.2.2 == ep) = some (l, sp, ep) := by simp

/-- Settles O12: a lost link by what its fault leaves of each context; lanes by the two answers of a request for a swap. -/
theorem lanesSwapAndLinksFail : Obligations.LanesSwapAndLinksFail := by
  unfold Obligations.LanesSwapAndLinksFail
  refine ⟨?_, ?_, ?_, ?_, ?_, ?_, ?_, ?_, ?_⟩
  · intro s p hp hst
    let m1 := count 0x6900 0x08 (timeTo ((portAt s.m p).lastValid + 100000) s.m)
    have hst1 : (portAt m1 p).st = 5 ∨ (portAt m1 p).st = 6 := hst
    have hpath := linkPath_portFault (code := 0x0904) hst1
    refine ⟨onM (fun _ => portFault p 0x0904 m1) s, next_ite_receives (fun m => portFault p 0x0904 (count 0x6900 0x08
      (timeTo ((portAt s.m p).lastValid + 100000) m))) hst, st_portFault hst1, ?_, fun hn => raisedCode_portFault hst1 (by decide) hn,
      hpath.mem.trans (raiseDev_mem _ m1), rfl, fun i hi => ⟨fun h6 hrun haxes => ?_, fun hk => ?_⟩⟩
    · rw [onM_m, hpath.time10, raiseDev_dev]
      exact Nat.le_max_right _ _
    · exact failedWith_portFault 0x0904 hst1 hi (by decide) h6 hrun haxes
    · exact ctxAt_portFault_kept 0x0904 hst1 hi hk
  · intro s p sp ev rest hst hmap hf hswap hspare
    have hp : p < 8 := lt_of_receives hst
    refine ⟨_, (portAt s.m p).rxEpoch + 1, exec_laneFailure hst hmap hf hswap, ?_⟩
    rw [onM_m, askSwap_spare ev.lane hspare, portAt_sendMgmt 3 _ _ hp, out_sendMgmt, portAt_setPort_self _ p _ hp, hswap]
    exact ⟨by rw [spareChosen, hswap]; rfl, rfl, rfl, rfl, tbit_or_two_pow _ _⟩
  · intro s p ev hl hs
    refine congrArg Host.Outcome.next (if_neg ?_)
    have hf : laneFails s.m ev = false := by simp [laneFails, hl, hs]
    simp [hf]
  · intro s p ev hp hst hmap hf hswap hspare
    refine ⟨_, exec_laneFailure (.inl hst) hmap hf hswap, ?_⟩
    rw [onM_m, askSwap_none ev.lane hspare]
    let m1 := setPort p { portAt s.m p with rxFailed := (portAt s.m p).rxFailed ||| 2 ^ ev.lane } s.m
    have hst1 : (portAt m1 p).st = 5 ∨ (portAt m1 p).st = 6 := .inl ((congrArg Port.st (portAt_setPort_self _ p _ hp)).trans hst)
    exact ⟨st_portFault hst1, fun hn => raisedCode_portFault hst1 (by decide) hn⟩
  · intro s p lane hl
    have hp : p < 8 := lt_of_portAt_ne (m := s.m) (fun e => by rw [e] at hl; cases hl)
    refine ⟨_, congrArg Host.Outcome.next (if_pos (List.contains_iff_mem.mpr hl)), ?_⟩
    rw [onM_m, portAt_setPort_self _ p _ hp]
    exact ⟨by simp, tbit_or_two_pow _ _, rfl, fun j hj => portAt_setPort_ne _ _ _ _ (Ne.symm hj), rfl, rfl⟩
  · intro s p l sp nx ep rest hst hswap hne hspare hsp
    have hp : p < 8 := lt_of_receives hst
    have hc : (portAt s.m p).rxSpare.contains sp = false := by simpa using hsp
    refine ⟨_, congrArg Host.Outcome.next ((if_neg (by rw [hc]; exact Bool.false_ne_true)).trans
      (if_pos (by rw [hswap, receives_beq hst]; simp [hne]))), ?_⟩
    rw [onM_m, askSwap_spare sp hspare, portAt_sendMgmt 3 _ _ hp, portAt_setPort_self _ p _ hp]
    simp only [spareChosen, hswap]
    exact ⟨trivial, rfl⟩
  · intro s p failed spare epoch hst
    have hp : p < 8 := lt_of_receives hst
    have ht : portAt (laneSwapTaken p failed spare epoch (mgmtIn p s.m)) p = _ := portAt_setPort_self (mgmtIn p s.m) p _ hp
    refine ⟨_, next_ite_receives _ hst, rfl, ?_⟩
    rw [onM_m, ht, portAt_mgmtIn s.m hp]
    simp only [beq_iff_eq, true_and]
  · intro s p hswap
    have hp : p < 8 := lt_of_portAt_ne (m := s.m) (fun e => hswap (by rw [e]))
    have he : (portAt s.m p).swap.isEmpty = false := by simpa using hswap
    obtain ⟨hs, hlen, hout, htor⟩ := sendSwaps_sent hp (portAt s.m p).swap (Machine.tick (48 + p) 10000 s.m)
    exact ⟨_, congrArg Host.Outcome.next (if_neg (by rw [he]; exact Bool.false_ne_true)), ⟨hs, hlen, hout⟩, htor hswap⟩
  · intro s p l sp ep hswap
    have hp : p < 8 := lt_of_portAt_ne (m := s.m) (fun e => by rw [e] at hswap; cases hswap)
    refine ⟨onM (fun m => count 0x6900 0x07 (setPort p { portAt s.m p with
      rxMap := (portAt s.m p).rxMap.map (fun k => if k == l then sp else k), rxEpoch := ep, swaps := (portAt s.m p).swaps + 1,
      swap := (portAt s.m p).swap.filter (fun w => w.2.2 != ep) } m)) s, ?_, ?_⟩
    · simp only [exec, execEpochMarker, hswap, find_epoch]
    · rw [onM_m, portAt_congr (count_tor 0x6900 0x07 _), portAt_setPort_self _ p _ hp]
      refine ⟨?_, rfl, ?_, countedOnce_count 0x6900 0x07 (setPort p _ s.m), fun j hj => ?_, rfl, rfl⟩
      · simp [hswap]
      · simp
      · rw [portAt_congr (count_tor 0x6900 0x07 _)]
        exact portAt_setPort_ne _ _ _ _ (Ne.symm hj)

end Sys2Proof.Proofs

namespace Sys2Proof.Proofs

open Sys2Proof.Machine Sys2Proof.Laws

/-! ### Link headers (12 R414, R417) -/

theorem crc8Header_lt (h : Nat) : crc8Header h < 256 := BitVec.isLt _

/-- The fields of a header below its Seq, as a number. -/
theorem linkHeader_eq (typ vc seq ack ackValid nak credits : Nat) : ∃ c, c < 256 ∧ linkHeader typ vc seq ack ackValid nak credits =
    typ * 2 ^ 60 + vc * 2 ^ 58 + seq * 2 ^ 46 + ack * 2 ^ 34 + ackValid * 2 ^ 33 + nak * 2 ^ 32 + credits * 2 ^ 8 + c := by
  simp only [linkHeader, Nat.shiftLeft_eq]
  exact ⟨_, crc8Header_lt _, rfl⟩

section Header

variable {typ vc seq ack ackValid nak credits : Nat} (hc : credits < 2 ^ 24)
include hc

theorem tbit_nak_linkHeader : tbit (linkHeader typ vc seq ack ackValid 1 credits) 32 = true := by
  obtain ⟨c, hlt, he⟩ := linkHeader_eq typ vc seq ack ackValid 1 credits
  rw [he, tbit, Nat.shiftRight_eq_div_pow, beq_iff_eq]
  omega

variable (hv : ackValid ≤ 1) (hn : nak ≤ 1)
include hv hn

theorem fld_ack_linkHeader : fld (linkHeader typ vc seq ack ackValid nak credits) 45 34 = ack % 4096 := by
  obtain ⟨c, hlt, he⟩ := linkHeader_eq typ vc seq ack ackValid nak credits
  rw [he, fld, Nat.shiftRight_eq_div_pow]
  omega

theorem fld_seq_linkHeader (ha : ack < 4096) : fld (linkHeader typ vc seq ack ackValid nak credits) 57 46 = seq % 4096 := by
  obtain ⟨c, hlt, he⟩ := linkHeader_eq typ vc seq ack ackValid nak credits
  rw [he, fld, Nat.shiftRight_eq_div_pow]
  omega

end Header

theorem ite_le_one (b : Bool) : (if b then 1 else 0) ≤ 1 := by cases b <;> decide

/-- A flit takes at most 63 credits of a VC. -/
theorem getD_map_min_le (owed : List Nat) (k : Nat) : (owed.map (fun x => min x 63)).getD k 0 ≤ 63 := by
  rw [List.getD_eq_getElem?_getD, List.getElem?_map]
  cases owed[k]? with
  | none => exact Nat.zero_le _
  | some x => exact Nat.min_le_right x 63

/-- The credits that a flit takes fit their four fields. -/
theorem takeCredits_lt (owed : List Nat) : (takeCredits owed).1 < 2 ^ 24 := by
  have h := getD_map_min_le owed
  unfold takeCredits
  dsimp only
  have h0 := h 0
  have h1 := h 1
  have h2 := h 2
  have h3 := h 3
  generalize (owed.map (fun x => min x 63)).getD 0 0 = a, (owed.map (fun x => min x 63)).getD 1 0 = b,
    (owed.map (fun x => min x 63)).getD 2 0 = c, (owed.map (fun x => min x 63)).getD 3 0 = d at *
  rw [Nat.shiftLeft_eq, Nat.shiftLeft_eq, Nat.shiftLeft_eq]
  omega

/-! ### Sequenced flits (12 R415, R416) -/

/-- R415: the transmitter once a flit has left it. -/
def sentPort (typ vc : Nat) (rest : List Byte) (x : Port) : Port := { x with
  txSeq := (x.txSeq + 1) % 4096, owed := (takeCredits x.owed).2, nullDue := false, nakDue := false,
  retry := x.retry ++ [⟨x.txSeq, typ * 4 + vc, (takeCredits x.owed).1, rest⟩] }

/-- R414: the flit's header. -/
def sentHeader (typ vc : Nat) (nak : Bool) (x : Port) : Nat :=
  linkHeader typ vc x.txSeq x.rxLast (if x.rxAny then 1 else 0) (if nak then 1 else 0) (takeCredits x.owed).1

theorem sendSeq_room {p : Nat} {m : Mach} (typ vc : Nat) (rest : List Byte) (nak : Nat) (h : (portAt m p).retry.length < 2048) :
    sendSeq p typ vc rest nak m =
      count 0x6900 0x01 (emit (.flit p ⟨sentHeader typ vc ((portAt m p).nakDue || nak == 1) (portAt m p), rest⟩)
        (setPort p (sentPort typ vc rest (portAt m p)) m)) := by
  unfold sendSeq
  dsimp only
  rw [if_neg (Nat.not_le.mpr h)]
  rfl

/-- R415: with 2,048 flits unacknowledged the flit waits. -/
theorem sendSeq_full {p : Nat} {m : Mach} (typ vc : Nat) (rest : List Byte) (nak : Nat) (h : 2048 ≤ (portAt m p).retry.length) :
    sendSeq p typ vc rest nak m =
      setPort p { portAt m p with nullDue := (portAt m p).nullDue || typ == 0, nakDue := (portAt m p).nakDue || nak == 1 } m := by
  unfold sendSeq
  dsimp only
  rw [if_pos h]

theorem credits_sendSeq {p : Nat} (typ vc : Nat) (rest : List Byte) (nak : Nat) (m : Mach) (hp : p < 8) :
    (portAt (sendSeq p typ vc rest nak m) p).credits = (portAt m p).credits := by
  by_cases h : (portAt m p).retry.length < 2048
  · rw [sendSeq_room typ vc rest nak h, portAt_congr (count_tor 0x6900 0x01 _), portAt_congr (emit_tor _ _), portAt_setPort_self _ p _ hp]
    rfl
  · rw [sendSeq_full typ vc rest nak (Nat.le_of_not_lt h), portAt_setPort_self _ p _ hp]

/-! ### Naks (12 R416) -/

/-- R416: the port that has sent a Nak. -/
def naked (time : Nat) (x : Port) : Port := { x with nakSent := true, nakAt := time }

theorem sendNak_eq (p : Nat) (m : Mach) :
    sendNak p m = sendSeq p 0 0 (flitRest []) 1 (setPort p (naked m.dev.time10 (portAt m p)) m) := rfl

theorem faultPath_sendNak (p : Nat) (m : Mach) : FaultPath m (sendNak p m) :=
  (FaultPath.setPort p _ m).trans (FaultPath.sendSeq _ _ _ _ _ _)

theorem ctxs_sendNak (p : Nat) (m : Mach) : (sendNak p m).ctxs = m.ctxs := sendSeq_ctxs _ _ _ _ _ _

theorem held_sendNak (p : Nat) (m : Mach) : (sendNak p m).tor.held = m.tor.held := by rw [(faultPath_sendNak p m).rest]

section Nak

variable {p : Nat} {m : Mach} (hp : p < 8)
include hp

theorem portAt_sendNak : SendsOnly (naked m.dev.time10 (portAt m p)) (portAt (sendNak p m) p) := by
  have h := PortsSend.sendSeq p 0 0 (flitRest []) 1 (setPort p (naked m.dev.time10 (portAt m p)) m) p
  rw [portAt_setPort_self m p _ hp] at h
  exact h

theorem rxLast_sendNak : (portAt (sendNak p m) p).rxLast = (portAt m p).rxLast := by
  rw [portAt_sendNak hp]
  rfl

theorem nakSent_sendNak : (portAt (sendNak p m) p).nakSent = true := by
  rw [portAt_sendNak hp]
  rfl

theorem nakAt_sendNak : (portAt (sendNak p m) p).nakAt = m.dev.time10 := by
  rw [portAt_sendNak hp]
  rfl

theorem credits_sendNak : (portAt (sendNak p m) p).credits = (portAt m p).credits := by
  rw [sendNak_eq, credits_sendSeq _ _ _ _ _ hp, portAt_setPort_self m p _ hp]
  rfl

/-- R416: the Nak leaves in a NULL flit, with AckSeq at the last accepted Seq. -/
theorem sendNak_room (h : (portAt m p).retry.length < 2048) :
    (∃ g, (sendNak p m).out = m.out ++ [.flit p g] ∧ tbit g.header 32 = true ∧ fld g.header 45 34 = (portAt m p).rxLast % 4096) ∧
      (portAt (sendNak p m) p).txSeq = ((portAt m p).txSeq + 1) % 4096 := by
  have hport := portAt_setPort_self m p (naked m.dev.time10 (portAt m p)) hp
  have hroom : (portAt (setPort p (naked m.dev.time10 (portAt m p)) m) p).retry.length < 2048 := by
    rw [hport]
    exact h
  rw [sendNak_eq, sendSeq_room 0 0 (flitRest []) 1 hroom, portAt_congr (count_tor 0x6900 0x01 _), portAt_congr (emit_tor _ _),
    hport, portAt_setPort_self _ p _ hp]
  refine ⟨⟨_, rfl, ?_, ?_⟩, rfl⟩
  · simp only [sentHeader, beq_self_eq_true, Bool.or_true, if_true]
    exact tbit_nak_linkHeader (takeCredits_lt _)
  · exact fld_ack_linkHeader (takeCredits_lt _) (ite_le_one _) (ite_le_one _)

/-- R415: with 2,048 flits unacknowledged the Nak waits. -/
theorem sendNak_full (h : 2048 ≤ (portAt m p).retry.length) : (sendNak p m).out = m.out ∧ (portAt (sendNak p m) p).nakDue = true := by
  have hport := portAt_setPort_self m p (naked m.dev.time10 (portAt m p)) hp
  have hfull : 2048 ≤ (portAt (setPort p (naked m.dev.time10 (portAt m p)) m) p).retry.length := by
    rw [hport]
    exact h
  rw [sendNak_eq, sendSeq_full 0 0 (flitRest []) 1 hfull, hport, portAt_setPort_self _ p _ hp]
  exact ⟨rfl, Bool.or_true _⟩

end Nak

end Sys2Proof.Proofs

namespace Sys2Proof.Proofs

open Sys2Proof.Machine Sys2Proof.Laws

/-! ### Accepted headers (12 R415, R416) -/

/-- A header's acknowledgement and credits touch the retry buffer, the credits held and the run of resends. -/
theorem takeAcks_keeps (h : Nat) (x : Port) : takeAcks h x =
    { x with credits := (takeAcks h x).credits, retry := (takeAcks h x).retry, resends := (takeAcks h x).resends } := by
  unfold takeAcks
  dsimp only
  split <;> rfl

/-- R416: an accepted header, its Nak apart. -/
def acked (p h : Nat) (x : Port) (m : Mach) : Mach := count 0x6900 0x02 (setPort p (takeAcks h { x with lastValid := m.dev.time10 }) m)

theorem acceptHeader_eq (p h : Nat) (x : Port) (m : Mach) :
    acceptHeader p h x m = if tbit h 32 then takeNak p h (acked p h x m) else acked p h x m := rfl

theorem portAt_acked {p : Nat} (h : Nat) (x : Port) (m : Mach) (hp : p < 8) :
    portAt (acked p h x m) p = takeAcks h { x with lastValid := m.dev.time10 } :=
  (portAt_congr (count_tor 0x6900 0x02 _) p).trans (portAt_setPort_self m p _ hp)

theorem countedOnce_acked (p h : Nat) (x : Port) {a m : Mach} (hc : counterOf m 0x6900 0x02 = counterOf a 0x6900 0x02) :
    countedOnce 0x6900 0x02 a (acked p h x m) :=
  countedOnce_of_counterOf_eq (b := setPort p (takeAcks h { x with lastValid := m.dev.time10 }) m) hc

/-! ### What the link layer makes of a flit (12 R413, R416, R424) -/

/-- The codewords of a flit, counted. -/
def wordsCounted (ev : FlitEvent) (m : Mach) : Mach := countN 0x6900 0x05 ev.corrected (countN 0x6900 0x06 ev.uncorrected m)

theorem counterOf_wordsCounted {index sub : Nat} (ev : FlitEvent) (m : Mach) (h5 : dkey index sub ≠ dkey 0x6900 0x05)
    (h6 : dkey index sub ≠ dkey 0x6900 0x06) : counterOf (wordsCounted ev m) index sub = counterOf m index sub :=
  (counterOf_countN_ne _ _ h5).trans (counterOf_countN_ne _ m h6)

/-- FLIT_RECEIVE on the machine. -/
def flitTaken (p : Nat) (f : Flit) (ev : FlitEvent) (m : Mach) : Mach :=
  let (m1, ts, n) := linkReceive p f ev.fabricBad (wordsCounted ev m)
  let m2 := arriveAll p (fld f.header 59 58) n ts m1
  let m3 := takeHeld m2.tor.held.length m2
  if fld f.header 63 60 == 1 then ackNull p m m3 else m3

theorem exec_flitReceive (p : Nat) (f : Flit) (ev : FlitEvent) (s : State) :
    exec (.flitReceive p f ev) s = .next (onM (flitTaken p f ev) s) := by
  refine congrArg (fun g => Host.Outcome.next (onM g s)) (funext fun m => ?_)
  unfold flitTaken wordsCounted
  dsimp only

/-- Nothing is answered where nothing new was accepted. -/
theorem ackNull_same {p : Nat} {a m : Mach} (h : (portAt m p).rxLast = (portAt a p).rxLast) : ackNull p a m = m := by
  unfold ackNull
  dsimp only
  rw [h, bne_self_eq_false, Bool.and_false, Bool.false_and]
  exact if_neg Bool.false_ne_true

/-- A flit that delivers nothing, where nothing waits for a unit. -/
theorem flitTaken_quiet {p : Nat} {f : Flit} {ev : FlitEvent} {m m1 : Mach}
    (hr : linkReceive p f ev.fabricBad (wordsCounted ev m) = (m1, [], 0)) (hh : m1.tor.held = []) :
    flitTaken p f ev m = if fld f.header 63 60 == 1 then ackNull p m m1 else m1 := by
  have ha : arriveAll p (fld f.header 59 58) 0 [] m1 = m1 := rfl
  unfold flitTaken
  rw [hr]
  dsimp only
  rw [ha, hh]
  rfl

theorem flitTaken_unacked {p : Nat} {f : Flit} {ev : FlitEvent} {m m1 : Mach}
    (hr : linkReceive p f ev.fabricBad (wordsCounted ev m) = (m1, [], 0)) (hh : m1.tor.held = [])
    (hl : (portAt m1 p).rxLast = (portAt m p).rxLast) : flitTaken p f ev m = m1 := by
  rw [flitTaken_quiet hr hh, ackNull_same hl, ite_self]

theorem linkReceive_deaf {p : Nat} {f : Flit} {bad : Bool} {m : Mach} (h5 : (portAt m p).st ≠ 5) (h6 : (portAt m p).st ≠ 6) :
    linkReceive p f bad m = (m, [], 0) := by
  unfold linkReceive
  dsimp only
  rw [if_pos (by simp [h5, h6])]

section Receives

variable {p : Nat} {f : Flit} {bad : Bool} {m : Mach} (hst : (portAt m p).st = 5 ∨ (portAt m p).st = 6)
include hst

/-- R413, R416: a flit that is not accepted: the first of a run, and no management flit, is answered by a Nak. -/
theorem linkReceive_rejected (h : flitGood f = false ∨ (fld f.header 63 60 ≤ 1 ∧ fld f.header 57 46 ≠ ((portAt m p).rxLast + 1) % 4096)) :
    linkReceive p f bad m =
      let m1 := if flitGood f then m else count 0x6900 0x03 m
      (if (portAt m p).nakSent || (headerGood f && fld f.header 63 60 == 2) then m1 else sendNak p m1, [], 0) := by
  unfold linkReceive
  dsimp only
  rw [if_neg (by simp [receives_beq hst])]
  cases hg : flitGood f with
  | false => rfl
  | true =>
    obtain ⟨ht, hseq⟩ := h.resolve_left (by simp [hg])
    rw [if_neg (by simp), if_neg (by simp; omega), if_neg (by omega), if_pos (by simpa using hseq)]
    simp [show fld f.header 63 60 ≠ 2 by omega]

variable (hg : flitGood f = true)
include hg

/-- R429: a good management flit's content is taken. -/
theorem linkReceive_mgmt (ht : fld f.header 63 60 = 2) (hn : tbit f.header 32 = false) :
    linkReceive p f bad m = (takeMgmt p f.rest (pump p (acked p f.header (portAt m p) m)), [], 0) := by
  have hport := congrArg Port.st (portAt_acked f.header (portAt m p) m (lt_of_receives hst))
  rw [takeAcks_keeps] at hport
  unfold linkReceive
  dsimp only
  rw [if_neg (by simp [receives_beq hst]), if_neg (by simp [hg]), if_pos (by simp [ht]), acceptHeader_eq, hn, if_neg Bool.false_ne_true,
    if_neg (by simp [hport]; omega)]

/-- R413: the port that accepts the next flit in sequence. -/
def nextAccepted (f : Flit) (x : Port) : Port := { x with rxLast := fld f.header 57 46, rxAny := true, nakSent := false }

/-- R413, R416: the next sequenced flit is accepted. -/
theorem linkReceive_next (ht : fld f.header 63 60 ≤ 1) (hseq : fld f.header 57 46 = ((portAt m p).rxLast + 1) % 4096) :
    linkReceive p f bad m =
      let m1 := acceptHeader p f.header (nextAccepted f (portAt m p)) m
      if (portAt m1 p).st == 7 then (m1, [], 0)
      else if fld f.header 63 60 == 0 then (pump p m1, [], 0)
      else
        let (m2, ts, n) := takeBody p (fld f.header 59 58) f.rest (!bad) m1
        (pump p (if bad then allRunning (ctxClassed 0x0903) (raiseDev 0x0903 (count 0x6900 0x0E m2)) else m2), ts, n) := by
  unfold linkReceive
  dsimp only
  rw [if_neg (by simp [receives_beq hst]), if_neg (by simp [hg]), if_neg (by simp; omega), if_neg (by omega), if_neg (by simp [hseq])]
  rfl

end Receives

end Sys2Proof.Proofs

namespace Sys2Proof.Proofs

open Sys2Proof.Machine Sys2Proof.Laws

/-! ### The content of a management flit (12 R429) -/

/-- `y` is the port `x` but for what a management flit's content changes. -/
def MgmtOnly (x y : Port) : Prop :=
  y = { x with
    st := y.st, at10 := y.at10, peer := y.peer, agreed := y.agreed, lastRx := y.lastRx, lastRxAt := y.lastRxAt, theta := y.theta,
    delta := y.delta, txMap := y.txMap, txEpoch := y.txEpoch }

/-- What taking a content does: its port by `MgmtOnly`, no transaction that waits for a unit, no count of valid flits. -/
structure ContentTaken (p : Nat) (a b : Mach) : Prop where
  port : MgmtOnly (portAt a p) (portAt b p)
  held : b.tor.held = a.tor.held
  valid : counterOf b 0x6900 0x02 = counterOf a 0x6900 0x02

theorem contentTaken_setPort {p : Nat} {x : Port} {m : Mach} (hp : p < 8) (hx : MgmtOnly (portAt m p) x := by exact rfl) :
    ContentTaken p m (setPort p x m) :=
  ⟨by rw [portAt_setPort_self m p x hp]; exact hx, rfl, rfl⟩

/-- What leaves the ports, the held transactions and the counter of valid flits does not matter here. -/
theorem ContentTaken.of_tor {p : Nat} {a b c : Mach} (h : ContentTaken p a b) (ht : c.tor.ports = b.tor.ports) (hh : c.tor.held = b.tor.held)
    (hc : counterOf c 0x6900 0x02 = counterOf b 0x6900 0x02) : ContentTaken p a c where
  port := by
    have hport : portAt c p = portAt b p := by simp only [portAt, ht]
    rw [hport]
    exact h.port
  held := hh.trans h.held
  valid := hc.trans h.valid

theorem counterOf_raiseDev (code : Nat) {index sub : Nat} (m : Mach) (hk : dkey index sub ∉ faultCounters) :
    counterOf (raiseDev code m) index sub = counterOf m index sub := (FaultPath.raiseDev code m).counters _ hk

section Content

variable {p : Nat} (m : Mach) (hp : p < 8)
include hp

theorem contentTaken_ident (id : Ident) : ContentTaken p m (identTaken p id m) := by
  unfold identTaken
  dsimp only
  split
  · exact contentTaken_setPort hp
  · split
    · exact (contentTaken_setPort hp).of_tor rfl rfl (counterOf_count_ne _ (by decide))
    · exact (contentTaken_setPort hp).of_tor (by rw [raiseDev_tor]) (by rw [raiseDev_tor]) (counterOf_raiseDev _ _ (by decide))

theorem peer_identTaken (id : Ident) : (portAt (identTaken p id m) p).peer = id := by
  unfold identTaken
  dsimp only
  split
  · rw [portAt_setPort_self m p _ hp]
  · split
    · rw [portAt_congr (count_tor _ _ _), portAt_setPort_self m p _ hp]
    · rw [portAt_congr (raiseDev_tor _ _), portAt_setPort_self m p _ hp]

theorem contentTaken_keepalive (tx etx erx rx : Nat) : ContentTaken p m (keepaliveTaken p tx etx erx rx m) := by
  by_cases h : parentPort m = some p
  · have hx : ContentTaken p m (timeExchanged p tx etx erx rx m) := contentTaken_setPort hp
    rw [keepaliveTaken_eq h]
    dsimp only
    split
    · exact hx.of_tor rfl rfl (counterOf_count_ne _ (by decide))
    · exact hx.of_tor rfl rfl rfl
  · unfold keepaliveTaken
    dsimp only
    rw [if_pos (by simpa using h)]
    exact contentTaken_setPort hp

theorem lastRx_keepaliveTaken (tx etx erx rx : Nat) : (portAt (keepaliveTaken p tx etx erx rx m) p).lastRx = tx := by
  by_cases h : parentPort m = some p
  · rw [portAt_keepaliveTaken h, timeExchanged]
    exact congrArg Port.lastRx (portAt_setPort_self m p _ hp)
  · unfold keepaliveTaken
    dsimp only
    rw [if_pos (by simpa using h), portAt_setPort_self m p _ hp]

theorem contentTaken_laneSwap (failed spare epoch : Nat) : ContentTaken p m (laneSwapTaken p failed spare epoch m) :=
  (contentTaken_setPort hp).of_tor rfl rfl rfl

theorem contentTaken_takeMgmt (rest : List Byte) : ContentTaken p m (takeMgmt p rest m) := by
  unfold takeMgmt
  dsimp only
  split
  · exact contentTaken_ident m hp _
  · exact contentTaken_keepalive m hp _ _ _ _
  · exact contentTaken_laneSwap m hp _ _ _
  · exact ⟨rfl, rfl, rfl⟩

end Content

/-! ### The body of a TXN flit (12 R413, R421, R424, R426) -/

/-- `b` differs from `a` at most in its ports, its counters and what has left the device. -/
def OnlySent (a b : Mach) : Prop := b = { a with tor := { a.tor with ports := b.tor.ports }, cnt := b.cnt, out := b.out }

/-- Where only these differ, sending keeps it so. -/
theorem sendKept_onlySent (m : Mach) : SendKept (OnlySent m) where
  setPort := fun p x y h => by unfold OnlySent at *; rw [h]; rfl
  emit := fun o y h => by unfold OnlySent at *; rw [h]; rfl
  countN := fun i j n y h => by unfold OnlySent at *; rw [h]; rfl

theorem OnlySent.trans {a b c : Mach} (h : OnlySent a b) (k : OnlySent b c) : OnlySent a c := by
  unfold OnlySent at *
  rw [k, h]

/-- `b` follows from `a` as a body enters its buffer or passes on: ports, counters other than that of valid flits, and what has left the
device may differ. -/
structure BodyTaken (a b : Mach) : Prop where
  rest : OnlySent a b
  ports : PortsSend a b
  valid : counterOf b 0x6900 0x02 = counterOf a 0x6900 0x02

namespace BodyTaken

theorem trans {a b c : Mach} (h : BodyTaken a b) (k : BodyTaken b c) : BodyTaken a c :=
  ⟨h.rest.trans k.rest, h.ports.trans k.ports, k.valid.trans h.valid⟩

theorem setPort (p : Nat) (x : Port) (m : Mach) (hx : SendsOnly (portAt m p) x := by exact rfl) : BodyTaken m (setPort p x m) :=
  ⟨rfl, PortsSend.setPort p x m hx, rfl⟩

theorem countN (index sub n : Nat) (m : Mach) (h : dkey 0x6900 0x02 ≠ dkey index sub := by decide) : BodyTaken m (countN index sub n m) :=
  ⟨rfl, PortsSend.countN _ _ _ m, counterOf_countN_ne n m h⟩

theorem enqueue (p : Nat) (i : QItem) (m : Mach) : BodyTaken m (enqueue p i m) :=
  ⟨(sendKept_onlySent m).enqueue p i rfl, PortsSend.enqueue p i m, (FaultPath.enqueue p i m).counters _ (by decide)⟩

theorem pump (p : Nat) (m : Mach) : BodyTaken m (pump p m) :=
  ⟨(sendKept_onlySent m).pumpPort _ p rfl, PortsSend.pump p m, (FaultPath.pumpPort _ p m).counters _ (by decide)⟩

theorem owe (p vc n : Nat) (m : Mach) : BodyTaken m (owe p vc n m) := setPort p _ m

/-- R424, R426: a body that is not good delivers nothing, and what a body does is of this kind. -/
theorem takeBody (p vc : Nat) (rest : List Byte) (good : Bool) (m : Mach) : BodyTaken m (takeBody p vc rest good m).1 := by
  unfold Machine.takeBody
  extract_lets x old lost buf dest mine out held
  generalize splitTxns _ _ = parsed
  obtain ⟨ts, r⟩ := parsed
  dsimp -zeta only
  extract_lets still m1 m2
  clear_value out
  have h1 : BodyTaken m m1 := setPort p _ m
  split
  · exact h1
  · split
    · exact h1.trans (owe _ _ _ m1)
    · split
      · exact h1.trans (owe _ _ _ m1)
      · have h2 : BodyTaken m m2 := h1.trans (countN _ _ _ m1)
        split
        · exact h2.trans (enqueue _ _ m2)
        · exact h2.trans (setPort p _ m2)

end BodyTaken

/-- R426: a corrupt body delivers nothing. -/
theorem takeBody_bad (p vc : Nat) (rest : List Byte) (m : Mach) : (takeBody p vc rest false m).2.1 = [] := by
  unfold takeBody
  dsimp only
  split
  · rfl
  · split
    · rfl
    · rfl

end Sys2Proof.Proofs

namespace Sys2Proof.Proofs

open Sys2Proof.Machine Sys2Proof.Laws

/-! ### Flits sent again (12 R415, R416) -/

/-- Flits of the retry buffer that are sent again, in order. -/
def resent (p : Nat) (l : List SentFlit) (m : Mach) : Mach := l.foldl (resend p) m

/-- Resending changes the port's Nak that waits, counters and what leaves the device. -/
theorem onlySent_resent (p : Nat) (l : List SentFlit) (m : Mach) : OnlySent m (resent p l m) :=
  have hk := sendKept_onlySent m
  foldl_keeps (OnlySent m) (resend p) l m rfl (fun _ _ hx => hk.countN _ _ _ _ (hk.countN _ _ _ _ (hk.emit _ _ (hk.setPort _ _ _ hx))))

theorem portsSend_resend (p : Nat) (m : Mach) (f : SentFlit) : PortsSend m (resend p m f) :=
  (((PortsSend.setPort p _ m).trans (PortsSend.emit _ _)).trans (PortsSend.count _ _ _)).trans (PortsSend.count _ _ _)

theorem portsSend_resent (p : Nat) (l : List SentFlit) (m : Mach) : PortsSend m (resent p l m) :=
  PortsSend.foldl _ l m (fun x f => portsSend_resend p x f)

theorem out_resent (p : Nat) (l : List SentFlit) (m : Mach) : m.out <+: (resent p l m).out :=
  foldl_keeps (fun x : Mach => m.out <+: x.out) _ l m (List.prefix_refl _) (fun _ _ h => h.trans (List.prefix_append _ _))

/-- R415: a flit sent again carries its Seq and its body. -/
def SentAgain (p : Nat) (f : SentFlit) (m : Mach) : Prop :=
  ∃ g, Out.flit p g ∈ m.out ∧ fld g.header 57 46 = f.seq ∧ g.rest = f.rest

theorem SentAgain.mono {p : Nat} {f : SentFlit} {a b : Mach} (h : SentAgain p f a) (ho : a.out <+: b.out) : SentAgain p f b := by
  obtain ⟨g, hg, hs, hr⟩ := h
  exact ⟨g, ho.subset hg, hs, hr⟩

theorem sentAgain_resend {p : Nat} {m : Mach} {f : SentFlit} (ha : (portAt m p).rxLast < 4096) (hs : f.seq < 4096)
    (hc : f.credits < 2 ^ 24) : SentAgain p f (resend p m f) :=
  ⟨⟨_, f.rest⟩, List.mem_append_right _ (List.mem_singleton.mpr rfl),
    (fld_seq_linkHeader hc (ite_le_one _) (ite_le_one _) ha).trans (Nat.mod_eq_of_lt hs), rfl⟩

theorem sentAgain_resent {p : Nat} {f : SentFlit} {l : List SentFlit} (hf : f ∈ l) (hs : f.seq < 4096) (hc : f.credits < 2 ^ 24)
    {m : Mach} (ha : (portAt m p).rxLast < 4096) : SentAgain p f (resent p l m) := by
  induction l generalizing m with
  | nil => cases hf
  | cons g l ih =>
    rcases List.mem_cons.mp hf with rfl | hl
    · exact (sentAgain_resend ha hs hc).mono (out_resent p l _)
    · exact ih hl (m := resend p m g) (by rw [(portsSend_resend p m g).rxLast]; exact ha)

/-! ### A Nak that is accepted (12 R416) -/

/-- The Seq from which a Nak asks for flits again. -/
def nakFrom (h : Nat) : Nat := (fld h 45 34 + 1) % 4096

/-- How often in a row flits have been asked for from this Seq on. -/
def nakRuns (h : Nat) (x : Port) : Nat := if x.resendFrom == nakFrom h then x.resends + 1 else 1

/-- The flits are sent again, before the limit is considered. -/
def nakResent (p h : Nat) (m : Mach) : Mach :=
  resent p ((portAt m p).retry.filter (fun f => seqLe (nakFrom h) f.seq))
    (setPort p { portAt m p with resendFrom := nakFrom h, resends := nakRuns h (portAt m p) } m)

theorem takeNak_eq (p h : Nat) (m : Mach) :
    takeNak p h m = if dnum m 0x5000 0x08 ≤ nakRuns h (portAt m p) then portFault p 0x0905 (nakResent p h m) else nakResent p h m :=
  rfl

theorem seqLe_iff (a b : Nat) : seqLe a b = true ↔ (b + 4096 - a) % 4096 < 2048 := decide_eq_true_iff

/-- A flit from AckSeq + 1 on is not acknowledged. -/
theorem seqLe_ack_of_from {h seq : Nat} (hs : seq < 4096) (hf : seqLe (nakFrom h) seq = true) : seqLe seq (fld h 45 34) = false := by
  have ha : fld h 45 34 < 4096 := Nat.mod_lt _ (by decide)
  rw [seqLe_iff, nakFrom] at hf
  rw [← Bool.not_eq_true, seqLe_iff]
  omega

/-- The acknowledgement does not end the run of its own Nak. -/
theorem seqLe_from_ack (h : Nat) : seqLe (nakFrom h) (fld h 45 34) = false := by
  have ha : fld h 45 34 < 4096 := Nat.mod_lt _ (by decide)
  rw [← Bool.not_eq_true, seqLe_iff, nakFrom]
  omega

theorem nakRuns_takeAcks (h : Nat) (x : Port) : nakRuns h (takeAcks h x) = nakRuns h x := by
  unfold nakRuns takeAcks
  dsimp only
  split
  · by_cases e : x.resendFrom = nakFrom h
    · simp only [e, seqLe_from_ack, Bool.false_eq_true, if_false]
    · simp only [beq_eq_false_iff_ne.mpr e, Bool.false_eq_true, if_false]
  · rfl

theorem mem_retry_takeAcks {h : Nat} {x : Port} {f : SentFlit} (hx : f ∈ x.retry) (hs : f.seq < 4096) (hf : seqLe (nakFrom h) f.seq = true) :
    f ∈ (takeAcks h x).retry := by
  unfold takeAcks
  dsimp only
  split
  · exact List.mem_filter.mpr ⟨hx, by rw [seqLe_ack_of_from hs hf]; rfl⟩
  · exact hx

section NakResent

variable {p h : Nat} {m : Mach} (hp : p < 8)
include hp

theorem portAt_nakResent : SendsOnly { portAt m p with resendFrom := nakFrom h, resends := nakRuns h (portAt m p) } (portAt (nakResent p h m) p) := by
  have hs := portsSend_resent p ((portAt m p).retry.filter (fun f => seqLe (nakFrom h) f.seq))
    (setPort p { portAt m p with resendFrom := nakFrom h, resends := nakRuns h (portAt m p) } m) p
  rw [portAt_setPort_self m p _ hp] at hs
  exact hs

theorem sentAgain_nakResent (ha : (portAt m p).rxLast < 4096) {f : SentFlit} (hf : f ∈ (portAt m p).retry) (hs : f.seq < 4096)
    (hc : f.credits < 2 ^ 24) (hfrom : seqLe (nakFrom h) f.seq = true) : SentAgain p f (nakResent p h m) :=
  sentAgain_resent (List.mem_filter.mpr ⟨hf, hfrom⟩) hs hc (by rw [portAt_setPort_self m p _ hp]; exact ha)

end NakResent

theorem onlySent_nakResent (p h : Nat) (m : Mach) : OnlySent m (nakResent p h m) :=
  ((sendKept_onlySent m).setPort p _ m rfl).trans (onlySent_resent p _ _)

end Sys2Proof.Proofs

namespace Sys2Proof.Proofs

open Sys2Proof.Machine Sys2Proof.Laws

/-! ### A flit that is not accepted (12 R413, R416) -/

/-- R444: a flit that fails a CRC is counted. -/
def crcCounted (f : Flit) (m : Mach) : Mach := if flitGood f then m else count 0x6900 0x03 m

theorem tor_crcCounted (f : Flit) (m : Mach) : (crcCounted f m).tor = m.tor := by
  unfold crcCounted
  split <;> rfl

theorem onlySent_crcCounted (f : Flit) (m : Mach) : OnlySent m (crcCounted f m) := by
  unfold crcCounted
  split <;> rfl

theorem out_crcCounted (f : Flit) (m : Mach) : (crcCounted f m).out = m.out := by
  unfold crcCounted
  split <;> rfl

namespace OnlySent

variable {a b : Mach} (h : OnlySent a b)
include h

theorem dev : b.dev = a.dev := by rw [h]
theorem mem : b.mem = a.mem := by rw [h]
theorem ctxs : b.ctxs = a.ctxs := by rw [h]
theorem held : b.tor.held = a.tor.held := by rw [h]
theorem mgmt : b.mgmt = a.mgmt := by rw [h]

end OnlySent

theorem onlySent_wordsCounted (ev : FlitEvent) (m : Mach) : OnlySent m (wordsCounted ev m) := rfl

section Rejected

variable {p : Nat} {f : Flit} {ev : FlitEvent} {m : Mach} (hst : (portAt m p).st = 5 ∨ (portAt m p).st = 6) (hh : m.tor.held = [])
  (h : flitGood f = false ∨ (fld f.header 63 60 ≤ 1 ∧ fld f.header 57 46 ≠ ((portAt m p).rxLast + 1) % 4096))
include hst hh h

/-- R416: it is counted, and the first of a run, but not a management flit, is answered by a Nak. -/
theorem flitTaken_rejected : flitTaken p f ev m =
    if (portAt m p).nakSent || (headerGood f && fld f.header 63 60 == 2) then crcCounted f (wordsCounted ev m)
    else sendNak p (crcCounted f (wordsCounted ev m)) := by
  have hport : portAt (crcCounted f (wordsCounted ev m)) p = portAt m p := portAt_congr (tor_crcCounted f _) p
  have hheld : (crcCounted f (wordsCounted ev m)).tor.held = [] := (congrArg Torus.held (tor_crcCounted f _)).trans hh
  refine flitTaken_unacked (linkReceive_rejected hst h) ?_ ?_
  · split
    · exact hheld
    · exact (held_sendNak p _).trans hheld
  · split
    · exact congrArg Port.rxLast hport
    · exact (rxLast_sendNak (lt_of_receives hst)).trans (congrArg Port.rxLast hport)

theorem rejected_frame : (portAt (flitTaken p f ev m) p).rxLast = (portAt m p).rxLast ∧
    (portAt (flitTaken p f ev m) p).credits = (portAt m p).credits ∧ (flitTaken p f ev m).mem = m.mem ∧
    (flitTaken p f ev m).ctxs = m.ctxs := by
  have hport : portAt (crcCounted f (wordsCounted ev m)) p = portAt m p := portAt_congr (tor_crcCounted f _) p
  have hs : OnlySent m (crcCounted f (wordsCounted ev m)) := (onlySent_wordsCounted ev m).trans (onlySent_crcCounted f _)
  have hp := lt_of_receives hst
  rw [flitTaken_rejected hst hh h]
  split
  · rw [hport]
    exact ⟨rfl, rfl, hs.mem, hs.ctxs⟩
  · rw [credits_sendNak hp, rxLast_sendNak hp, (faultPath_sendNak p _).mem, ctxs_sendNak, hport]
    exact ⟨rfl, rfl, hs.mem, hs.ctxs⟩

theorem countedOnce_rejected (hg : flitGood f = false) : countedOnce 0x6900 0x03 m (flitTaken p f ev m) := by
  have hc : countedOnce 0x6900 0x03 m (crcCounted f (wordsCounted ev m)) := by
    rw [crcCounted, hg, if_neg Bool.false_ne_true]
    exact countedOnce_of_counterOf_eq (counterOf_wordsCounted ev m (by decide) (by decide))
  rw [flitTaken_rejected hst hh h]
  split
  · exact hc
  · exact (faultPath_sendNak p _).countedOnce (by decide) hc

/-- The management flits that R416 leaves unanswered. -/
theorem rejected_quiet (hq : (portAt m p).nakSent = true ∨ headerGood f = true ∧ fld f.header 63 60 = 2) :
    (flitTaken p f ev m).out = m.out ∧ (portAt (flitTaken p f ev m) p).nakSent = (portAt m p).nakSent := by
  rw [flitTaken_rejected hst hh h, if_pos (by simpa using hq)]
  exact ⟨out_crcCounted f _, congrArg Port.nakSent (portAt_congr (tor_crcCounted f _) p)⟩

/-- R415, R416: the Nak leaves, or waits for room. -/
theorem rejected_naked (hn : (portAt m p).nakSent = false) (hm : ¬(headerGood f = true ∧ fld f.header 63 60 = 2)) :
    (portAt (flitTaken p f ev m) p).nakSent = true ∧
      ((portAt m p).retry.length < 2048 → ∃ g, (flitTaken p f ev m).out = m.out ++ [.flit p g] ∧ tbit g.header 32 = true ∧
        fld g.header 45 34 = (portAt m p).rxLast % 4096) ∧
      (2048 ≤ (portAt m p).retry.length → (flitTaken p f ev m).out = m.out ∧ (portAt (flitTaken p f ev m) p).nakDue = true) := by
  have hport : portAt (crcCounted f (wordsCounted ev m)) p = portAt m p := portAt_congr (tor_crcCounted f _) p
  have hout : (crcCounted f (wordsCounted ev m)).out = m.out := out_crcCounted f _
  have hp := lt_of_receives hst
  rw [flitTaken_rejected hst hh h, if_neg (by simpa [hn] using hm)]
  refine ⟨nakSent_sendNak hp, fun hr => ?_, fun hr => ?_⟩
  · obtain ⟨hsent, -⟩ := sendNak_room hp (m := crcCounted f (wordsCounted ev m)) (by rw [hport]; exact hr)
    rw [hout, hport] at hsent
    exact hsent
  · obtain ⟨hsame, hdue⟩ := sendNak_full hp (m := crcCounted f (wordsCounted ev m)) (by rw [hport]; exact hr)
    exact ⟨hsame.trans hout, hdue⟩

end Rejected

/-! ### A management flit that is accepted (12 R429) -/

section Management

variable {p : Nat} {f : Flit} {ev : FlitEvent} {m : Mach} (hst : (portAt m p).st = 5 ∨ (portAt m p).st = 6) (hh : m.tor.held = [])
  (hg : flitGood f = true) (ht : fld f.header 63 60 = 2) (hn : tbit f.header 32 = false)
include hst hh hg ht hn

theorem flitTaken_mgmt : flitTaken p f ev m =
    takeMgmt p f.rest (pump p (acked p f.header (portAt m p) (wordsCounted ev m))) := by
  have hp := lt_of_receives hst
  have hc := contentTaken_takeMgmt (pump p (acked p f.header (portAt m p) (wordsCounted ev m))) hp f.rest
  refine (flitTaken_quiet (linkReceive_mgmt (m := wordsCounted ev m) hst hg ht hn) ?_).trans (if_neg (by simp [ht]))
  exact hc.held.trans ((BodyTaken.pump p _).rest.held.trans hh)

/-- The header alone is accepted: there is no Seq to move. -/
theorem mgmt_accepted : (portAt (flitTaken p f ev m) p).rxLast = (portAt m p).rxLast ∧
    (portAt (flitTaken p f ev m) p).lastValid = m.dev.time10 ∧ countedOnce 0x6900 0x02 m (flitTaken p f ev m) := by
  have hp := lt_of_receives hst
  let m1 := acked p f.header (portAt m p) (wordsCounted ev m)
  have hport : portAt m1 p = takeAcks f.header { portAt m p with lastValid := m.dev.time10 } := portAt_acked _ _ _ hp
  have hb := BodyTaken.pump p m1
  have hc := contentTaken_takeMgmt (pump p m1) hp f.rest
  rw [flitTaken_mgmt hst hh hg ht hn, hc.port]
  refine ⟨?_, ?_, ?_⟩
  · exact (hb.ports.rxLast p).trans (by rw [hport, takeAcks_keeps])
  · exact (hb.ports.lastValid p).trans (by rw [hport, takeAcks_keeps])
  · rw [countedOnce, hc.valid, hb.valid]
    exact countedOnce_acked p _ _ (counterOf_wordsCounted ev m (by decide) (by decide))

theorem mgmt_ident (h1 : octs f.rest 0 2 = 1) : (portAt (flitTaken p f ev m) p).peer = identOf (f.rest.drop 2) := by
  rw [flitTaken_mgmt hst hh hg ht hn]
  simp only [takeMgmt, h1]
  exact peer_identTaken _ (lt_of_receives hst) _

theorem mgmt_keepalive (h2 : octs f.rest 0 2 = 2) : (portAt (flitTaken p f ev m) p).lastRx = octs (f.rest.drop 2) 0 8 := by
  rw [flitTaken_mgmt hst hh hg ht hn]
  simp only [takeMgmt, h2]
  exact lastRx_keepaliveTaken _ (lt_of_receives hst) _ _ _ _

theorem mgmt_laneSwap (h3 : octs f.rest 0 2 = 3) : Out.epoch p (octs (f.rest.drop 2) 2 4) ∈ (flitTaken p f ev m).out := by
  rw [flitTaken_mgmt hst hh hg ht hn]
  simp only [takeMgmt, h3, laneSwapTaken, emit_out]
  exact List.mem_append_right _ (List.mem_singleton.mpr rfl)

end Management

end Sys2Proof.Proofs

namespace Sys2Proof.Proofs

open Sys2Proof.Machine Sys2Proof.Laws

/-! ### A sequenced flit that is accepted (12 R413, R416, R424, R426) -/

theorem held_of_faultPath {a b : Mach} (h : FaultPath a b) : b.tor.held = a.tor.held := by rw [h.rest]

theorem onlySent_acked (p h : Nat) (x : Port) (m : Mach) : OnlySent m (acked p h x m) :=
  (sendKept_onlySent m).countN _ _ _ _ ((sendKept_onlySent m).setPort p _ m rfl)

/-- The port that accepts, as its header leaves it. -/
theorem portAt_accepted {p : Nat} (f : Flit) (m : Mach) (hp : p < 8) :
    let y := portAt (acked p f.header (nextAccepted f (portAt m p)) m) p
    y.st = (portAt m p).st ∧ y.rxLast = fld f.header 57 46 ∧ y.rxAny = true ∧ y.nakSent = false ∧ y.lastValid = m.dev.time10 := by
  dsimp only
  rw [portAt_acked _ _ _ hp, takeAcks_keeps]
  exact ⟨rfl, rfl, rfl, rfl, rfl⟩

/-- R426: a body that is found corrupt is counted, raised and classed by each running context. -/
def bodyClassed (bad : Bool) (m : Mach) : Mach :=
  if bad then allRunning (ctxClassed 0x0903) (raiseDev 0x0903 (count 0x6900 0x0E m)) else m

theorem bodyClassed_false (m : Mach) : bodyClassed false m = m := if_neg Bool.false_ne_true

theorem bodyClassed_kept (bad : Bool) (m : Mach) : (bodyClassed bad m).mem = m.mem ∧ (bodyClassed bad m).tor.held = m.tor.held ∧
    counterOf (bodyClassed bad m) 0x6900 0x02 = counterOf m 0x6900 0x02 ∧ PortsSend m (bodyClassed bad m) := by
  unfold bodyClassed
  split
  · have hf : FaultPath (count 0x6900 0x0E m) (allRunning (ctxClassed 0x0903) (raiseDev 0x0903 (count 0x6900 0x0E m))) :=
      (FaultPath.raiseDev 0x0903 _).trans (FaultPath.allRunning_classed 0x0903 _)
    exact ⟨hf.mem, (held_of_faultPath hf :), (hf.counters _ (by decide)).trans (counterOf_count_ne m (by decide)),
      ((PortsSend.count _ _ m).trans (PortsSend.raiseDev _ _)).trans (PortsSend.allRunning _ _ (fun i x => PortsSend.ctxClassed _ i x))⟩
  · exact ⟨rfl, rfl, rfl, PortsSend.refl m⟩

theorem raisedCode_bodyClassed {m : Mach} (hn : notifies m.dev.st = true) : raisedCode 0x0903 (bodyClassed true m) := by
  rw [bodyClassed, if_pos rfl]
  exact (FaultPath.allRunning_classed 0x0903 _).raised 0x0903 (by decide) (raisedCode_raiseDev (m := count 0x6900 0x0E m) (by decide) hn)

theorem faultPath_pump (p : Nat) (m : Mach) : FaultPath m (pump p m) := FaultPath.pumpPort _ p m

theorem faultPath_ackNull (p : Nat) (a m : Mach) : FaultPath m (ackNull p a m) := by
  unfold ackNull
  dsimp only
  split
  · exact FaultPath.sendSeq _ _ _ _ _ m
  · exact FaultPath.refl m

/-- R413: the body of a TXN flit whose header is accepted. -/
def txnBody (p : Nat) (f : Flit) (bad : Bool) (m : Mach) : Mach × List Txn × Nat :=
  takeBody p (fld f.header 59 58) f.rest (!bad) (acked p f.header (nextAccepted f (portAt m p)) m)

theorem bodyTaken_txnBody {p : Nat} {f : Flit} {m : Mach} (bad : Bool) :
    BodyTaken (acked p f.header (nextAccepted f (portAt m p)) m) (txnBody p f bad m).1 := BodyTaken.takeBody p _ _ _ _

section Next

variable {p : Nat} {f : Flit} {m : Mach} (hst : (portAt m p).st = 5 ∨ (portAt m p).st = 6) (hg : flitGood f = true)
  (hseq : fld f.header 57 46 = ((portAt m p).rxLast + 1) % 4096)
include hst hg hseq

section NoNak

variable (hn : tbit f.header 32 = false)
include hn

/-- R413: what a port that takes the header does with the body. -/
theorem linkReceive_accepted {bad : Bool} (ht : fld f.header 63 60 ≤ 1) :
    linkReceive p f bad m =
      let m1 := acked p f.header (nextAccepted f (portAt m p)) m
      if fld f.header 63 60 == 0 then (pump p m1, [], 0)
      else
        (pump p (bodyClassed bad (txnBody p f bad m).1), (txnBody p f bad m).2.1, (txnBody p f bad m).2.2) := by
  obtain ⟨hkeep, -⟩ := portAt_accepted f m (lt_of_receives hst)
  rw [linkReceive_next hst hg ht hseq]
  dsimp only
  rw [acceptHeader_eq, hn, if_neg Bool.false_ne_true, if_neg (by simp [hkeep]; omega)]
  split
  · rfl
  · unfold txnBody
    generalize takeBody _ _ _ _ _ = b
    obtain ⟨m2, ts, n⟩ := b
    rfl

/-- R413: a NULL flit completes nothing. -/
theorem flitTaken_null {ev : FlitEvent} (hh : m.tor.held = []) (ht : fld f.header 63 60 = 0) :
    flitTaken p f ev m = pump p (acked p f.header (nextAccepted f (portAt m p)) (wordsCounted ev m)) := by
  have hr := linkReceive_accepted (bad := ev.fabricBad) (m := wordsCounted ev m) hst hg hseq hn (by omega)
  dsimp only at hr
  rw [if_pos (by simp [ht])] at hr
  refine (flitTaken_quiet hr ?_).trans (if_neg (by simp [ht]))
  exact (BodyTaken.pump p _).rest.held.trans ((onlySent_acked p _ _ _).held.trans hh)

/-- The link layer's part of a TXN flit. -/
theorem linkReceive_txn {bad : Bool} (ht : fld f.header 63 60 = 1) :
    linkReceive p f bad m = (pump p (bodyClassed bad (txnBody p f bad m).1), (txnBody p f bad m).2.1, (txnBody p f bad m).2.2) := by
  rw [linkReceive_accepted hst hg hseq hn (by omega)]
  exact if_neg (by simp [ht])

theorem txn_accepted {bad : Bool} (ht : fld f.header 63 60 = 1) :
    let t := (linkReceive p f bad m).1
    (portAt t p).rxLast = fld f.header 57 46 ∧ (portAt t p).rxAny = true ∧ (portAt t p).nakSent = false ∧
      countedOnce 0x6900 0x02 m t ∧ t.mem = m.mem ∧ t.tor.held = m.tor.held := by
  obtain ⟨-, hl, ha, hs, -⟩ := portAt_accepted f m (lt_of_receives hst)
  have hacc := onlySent_acked p f.header (nextAccepted f (portAt m p)) m
  have hb := bodyTaken_txnBody (p := p) (f := f) (m := m) bad
  obtain ⟨hmem, hheld, hvalid, hports⟩ := bodyClassed_kept bad (txnBody p f bad m).1
  have hpump := BodyTaken.pump p (bodyClassed bad (txnBody p f bad m).1)
  have hall := (hb.ports.trans hports).trans hpump.ports
  rw [linkReceive_txn hst hg hseq hn ht]
  dsimp only
  refine ⟨(hall.rxLast p).trans hl, (hall.rxAny p).trans ha, (hall.nakSent p).trans hs, ?_, ?_, ?_⟩
  · rw [countedOnce, hpump.valid, hvalid, hb.valid]
    exact countedOnce_acked p f.header (nextAccepted f (portAt m p)) rfl
  · exact ((hpump.rest.mem.trans hmem).trans hb.rest.mem).trans hacc.mem
  · exact ((hpump.rest.held.trans hheld).trans hb.rest.held).trans hacc.held

theorem txn_ctxs (ht : fld f.header 63 60 = 1) : (linkReceive p f false m).1.ctxs = m.ctxs := by
  rw [linkReceive_txn hst hg hseq hn ht, bodyClassed_false]
  dsimp only
  exact ((BodyTaken.pump p _).rest.ctxs.trans (bodyTaken_txnBody false).rest.ctxs).trans (onlySent_acked p _ _ m).ctxs

/-- R426: a corrupt body delivers nothing, and its code is raised where the device may raise it. -/
theorem txn_bad (ht : fld f.header 63 60 = 1) : (linkReceive p f true m).2.1 = [] ∧
    (notifies m.dev.st = true → raisedCode 0x0903 (linkReceive p f true m).1) := by
  have hdev : (txnBody p f true m).1.dev = m.dev := (bodyTaken_txnBody true).rest.dev.trans (onlySent_acked p _ _ m).dev
  rw [linkReceive_txn hst hg hseq hn ht]
  dsimp only
  exact ⟨takeBody_bad p _ _ _, fun hnot => (faultPath_pump p _).raised 0x0903 (by decide) (raisedCode_bodyClassed (by rw [hdev]; exact hnot))⟩

end NoNak

end Next

/-- FLIT_RECEIVE by the parts of what its link layer answers. -/
theorem flitTaken_eq (p : Nat) (f : Flit) (ev : FlitEvent) (m : Mach) :
    flitTaken p f ev m =
      let r := linkReceive p f ev.fabricBad (wordsCounted ev m)
      let m2 := arriveAll p (fld f.header 59 58) r.2.2 r.2.1 r.1
      let m3 := takeHeld m2.tor.held.length m2
      if fld f.header 63 60 == 1 then ackNull p m m3 else m3 := by
  unfold flitTaken
  generalize linkReceive p f ev.fabricBad (wordsCounted ev m) = r
  obtain ⟨m1, ts, n⟩ := r
  rfl

/-- Where nothing is delivered and nothing waits, what follows the link layer is sending alone. -/
theorem faultPath_flitTaken {p : Nat} {f : Flit} {ev : FlitEvent} {m : Mach}
    (hr : (linkReceive p f ev.fabricBad (wordsCounted ev m)).2.1 = [])
    (hh : (linkReceive p f ev.fabricBad (wordsCounted ev m)).1.tor.held = []) :
    FaultPath (linkReceive p f ev.fabricBad (wordsCounted ev m)).1 (flitTaken p f ev m) := by
  rw [flitTaken_eq]
  generalize linkReceive p f ev.fabricBad (wordsCounted ev m) = r at hr hh
  have hown (n : Nat) : FaultPath r.1 (arriveAll p (fld f.header 59 58) n [] r.1) := by
    unfold arriveAll
    split
    · exact FaultPath.refl _
    · exact FaultPath.setPort p _ _
  dsimp only
  rw [hr, (held_of_faultPath (hown r.2.2)).trans hh]
  split
  · exact (hown r.2.2).trans (faultPath_ackNull p m _)
  · exact hown r.2.2

end Sys2Proof.Proofs

namespace Sys2Proof.Proofs

open Sys2Proof.Machine Sys2Proof.Laws

/-! ### A flit that brings a Nak (12 R415, R416) -/

/-- The machine once the flits that a Nak asks for are sent again. -/
def nakAnswered (p : Nat) (f : Flit) (ev : FlitEvent) (m : Mach) : Mach :=
  nakResent p f.header (acked p f.header (nextAccepted f (portAt m p)) (wordsCounted ev m))

theorem onlySent_nakAnswered (p : Nat) (f : Flit) (ev : FlitEvent) (m : Mach) : OnlySent m (nakAnswered p f ev m) :=
  (onlySent_acked p f.header (nextAccepted f (portAt m p)) (wordsCounted ev m)).trans (onlySent_nakResent p f.header _)

section NakAnswered

variable {p : Nat} (f : Flit) (ev : FlitEvent) (m : Mach) (hp : p < 8)
include hp

theorem nakRuns_acked : nakRuns f.header (portAt (acked p f.header (nextAccepted f (portAt m p)) (wordsCounted ev m)) p) =
    nakRuns f.header (portAt m p) := by
  rw [portAt_acked _ _ _ hp, nakRuns_takeAcks]
  rfl

theorem portAt_nakAnswered : (portAt (nakAnswered p f ev m) p).st = (portAt m p).st ∧
    (portAt (nakAnswered p f ev m) p).resends = nakRuns f.header (portAt m p) := by
  have hst : (portAt (acked p f.header (nextAccepted f (portAt m p)) (wordsCounted ev m)) p).st = (portAt m p).st :=
    (portAt_accepted f (wordsCounted ev m) hp).1
  rw [nakAnswered, portAt_nakResent hp, nakRuns_acked f ev m hp]
  exact ⟨hst, rfl⟩

/-- R415: every flit held from AckSeq + 1 on is sent again. -/
theorem sentAgain_nakAnswered {x : SentFlit} (hx : x ∈ (portAt m p).retry) (hs : x.seq < 4096) (hc : x.credits < 2 ^ 24)
    (hfrom : seqLe (nakFrom f.header) x.seq = true) : SentAgain p x (nakAnswered p f ev m) := by
  have hl : (portAt (acked p f.header (nextAccepted f (portAt m p)) (wordsCounted ev m)) p).rxLast = fld f.header 57 46 :=
    (portAt_accepted f (wordsCounted ev m) hp).2.1
  refine sentAgain_nakResent hp ?_ ?_ hs hc hfrom
  · rw [hl]
    exact Nat.mod_lt _ (by decide)
  · rw [portAt_acked _ _ _ hp]
    exact mem_retry_takeAcks hx hs hfrom

end NakAnswered

section Nak

variable {p : Nat} {f : Flit} {ev : FlitEvent} {m : Mach} (hst : (portAt m p).st = 5 ∨ (portAt m p).st = 6) (hh : m.tor.held = [])
  (hg : flitGood f = true) (ht : fld f.header 63 60 = 0) (hn : tbit f.header 32 = true)
  (hseq : fld f.header 57 46 = ((portAt m p).rxLast + 1) % 4096)
include hst hh hg ht hn hseq

/-- R416: the run of resends decides whether the link is given up. -/
theorem flitTaken_nak : flitTaken p f ev m =
    if dnum m 0x5000 0x08 ≤ nakRuns f.header (portAt m p) then portFault p 0x0905 (nakAnswered p f ev m)
    else pump p (nakAnswered p f ev m) := by
  have hp := lt_of_receives hst
  have hown := onlySent_nakAnswered p f ev m
  obtain ⟨hkeep, -⟩ := portAt_nakAnswered f ev m hp
  have hlimit : dnum (acked p f.header (nextAccepted f (portAt m p)) (wordsCounted ev m)) 0x5000 0x08 = dnum m 0x5000 0x08 :=
    dnum_congr rfl _ _
  have hacc : acceptHeader p f.header (nextAccepted f (portAt m p)) (wordsCounted ev m) =
      if dnum m 0x5000 0x08 ≤ nakRuns f.header (portAt m p) then portFault p 0x0905 (nakAnswered p f ev m) else nakAnswered p f ev m := by
    rw [acceptHeader_eq, hn, if_pos rfl, takeNak_eq, hlimit, nakRuns_acked f ev m hp]
    rfl
  have hr := linkReceive_next (bad := ev.fabricBad) (m := wordsCounted ev m) hst hg (by omega) hseq
  dsimp only at hr
  rw [show portAt (wordsCounted ev m) p = portAt m p from rfl, hacc] at hr
  split at hr
  · rename_i hl
    have hst1 : (portAt (nakAnswered p f ev m) p).st = 5 ∨ (portAt (nakAnswered p f ev m) p).st = 6 := by
      rw [hkeep]
      exact hst
    rw [if_pos (by rw [st_portFault hst1]; rfl)] at hr
    rw [if_pos hl]
    refine (flitTaken_quiet hr ?_).trans (if_neg (by simp [ht]))
    rw [(linkPath_portFault hst1).held, raiseDev_tor, hown.held]
    exact hh
  · rename_i hl
    rw [if_neg (by simp [hkeep]; omega), if_pos (by simp [ht])] at hr
    rw [if_neg hl]
    refine (flitTaken_quiet hr ?_).trans (if_neg (by simp [ht]))
    exact (BodyTaken.pump p _).rest.held.trans (hown.held.trans hh)

theorem nak_sentAgain {x : SentFlit} (hx : SentAgain p x (nakAnswered p f ev m)) : SentAgain p x (flitTaken p f ev m) := by
  have hst1 : (portAt (nakAnswered p f ev m) p).st = 5 ∨ (portAt (nakAnswered p f ev m) p).st = 6 := by
    rw [(portAt_nakAnswered f ev m (lt_of_receives hst)).1]
    exact hst
  rw [flitTaken_nak hst hh hg ht hn hseq]
  split
  · exact hx.mono ((FaultPath.raiseDev 0x0905 _).out.trans (linkPath_portFault hst1).out)
  · exact hx.mono (faultPath_pump p _).out

theorem nak_limit (hl : dnum m 0x5000 0x08 ≤ nakRuns f.header (portAt m p)) : (portAt (flitTaken p f ev m) p).st = 7 ∧
    (notifies m.dev.st = true → raisedCode 0x0905 (flitTaken p f ev m)) := by
  have hst1 : (portAt (nakAnswered p f ev m) p).st = 5 ∨ (portAt (nakAnswered p f ev m) p).st = 6 := by
    rw [(portAt_nakAnswered f ev m (lt_of_receives hst)).1]
    exact hst
  rw [flitTaken_nak hst hh hg ht hn hseq, if_pos hl]
  exact ⟨st_portFault hst1, fun hnot => raisedCode_portFault hst1 (by decide) (by rw [(onlySent_nakAnswered p f ev m).dev]; exact hnot)⟩

theorem nak_below (hl : nakRuns f.header (portAt m p) < dnum m 0x5000 0x08) : (portAt (flitTaken p f ev m) p).st = (portAt m p).st ∧
    (portAt (flitTaken p f ev m) p).resends = nakRuns f.header (portAt m p) := by
  obtain ⟨hkeep, hruns⟩ := portAt_nakAnswered f ev m (lt_of_receives hst)
  rw [flitTaken_nak hst hh hg ht hn hseq, if_neg (Nat.not_le.mpr hl), (PortsSend.pump p _).st, (PortsSend.pump p _).resends]
  exact ⟨hkeep, hruns⟩

end Nak

/-- The statement's count of a run is that of the receiving side. -/
theorem nakRuns_eq (h : Nat) (x : Port) : nakRuns h x = if x.resendFrom = (fld h 45 34 + 1) % 4096 then x.resends + 1 else 1 := by
  simp only [nakRuns, nakFrom, beq_iff_eq]

/-- Settles O13: a flit by what the link layer answers in its case, a Nak by the run of resends that it begins or goes on with. -/
theorem flitsAcceptedInOrder : Obligations.FlitsAcceptedInOrder := by
  unfold Obligations.FlitsAcceptedInOrder
  refine ⟨⟨?_, ?_, ?_, ?_, ?_⟩, ?_, ?_, ?_, ?_⟩
  · intro s p f ev hst hh h mgmt
    obtain ⟨hl, hc, hmem, hctxs⟩ := rejected_frame (ev := ev) hst hh h
    exact ⟨_, exec_flitReceive p f ev s, hl, hc, hmem, hctxs, countedOnce_rejected hst hh h, rejected_quiet hst hh h,
      rejected_naked hst hh h⟩
  · intro s p f ev hst hh hg ht hn content
    obtain ⟨hl, hv, hc⟩ := mgmt_accepted (ev := ev) hst hh hg ht hn
    exact ⟨_, exec_flitReceive p f ev s, hl, hv, hc, mgmt_ident hst hh hg ht hn, mgmt_keepalive hst hh hg ht hn,
      mgmt_laneSwap hst hh hg ht hn⟩
  · intro s p f ev hst hh hg ht hn hseq
    obtain ⟨-, hl, ha, hs, hv⟩ := portAt_accepted f (wordsCounted ev s.m) (lt_of_receives hst)
    have hb := BodyTaken.pump p (acked p f.header (nextAccepted f (portAt s.m p)) (wordsCounted ev s.m))
    have hacc := onlySent_acked p f.header (nextAccepted f (portAt s.m p)) (wordsCounted ev s.m)
    refine ⟨_, exec_flitReceive p f ev s, ?_⟩
    rw [onM_m, flitTaken_null hst hg hseq hn hh ht]
    refine ⟨(hb.ports.rxLast p).trans hl, (hb.ports.rxAny p).trans ha, (hb.ports.nakSent p).trans hs, (hb.ports.lastValid p).trans hv, ?_,
      hb.rest.mem.trans hacc.mem, hb.rest.ctxs.trans hacc.ctxs⟩
    rw [countedOnce, hb.valid]
    exact countedOnce_acked p _ _ (counterOf_wordsCounted ev s.m (by decide) (by decide))
  · intro s p f ev hst hg ht hn hseq r m2
    obtain ⟨hl, ha, hs, hc, hmem, -⟩ := txn_accepted (bad := ev.fabricBad) (m := wordsCounted ev s.m) hst hg hseq hn ht
    refine ⟨?_, fun hbad => ?_, hl, ha, hs, ?_, hmem, fun hgood => ?_⟩
    · have ht1 : (fld f.header 63 60 == 1) = true := by simp [ht]
      rw [exec_flitReceive, onM, flitTaken_eq, if_pos ht1]
      rfl
    · have hnone := (txn_bad (m := wordsCounted ev s.m) hst hg hseq hn ht).1
      rw [← hbad] at hnone
      exact hnone
    · rw [countedOnce, counterOf_wordsCounted ev s.m (by decide) (by decide)] at hc
      exact hc
    · have hctxs := txn_ctxs (m := wordsCounted ev s.m) hst hg hseq hn ht
      rw [← hgood] at hctxs
      exact hctxs
  · intro s p f ev hst hh hg hbad ht hn hseq
    obtain ⟨-, -, -, -, hmem, hheld⟩ := txn_accepted (bad := ev.fabricBad) (m := wordsCounted ev s.m) hst hg hseq hn ht
    have hbody := txn_bad (m := wordsCounted ev s.m) hst hg hseq hn ht
    have hnone : (linkReceive p f ev.fabricBad (wordsCounted ev s.m)).2.1 = [] := by
      rw [hbad]
      exact hbody.1
    have hraised : notifies s.m.dev.st = true → raisedCode 0x0903 (linkReceive p f ev.fabricBad (wordsCounted ev s.m)).1 := by
      rw [hbad]
      exact hbody.2
    have hf := faultPath_flitTaken hnone (hheld.trans hh)
    exact ⟨_, exec_flitReceive p f ev s, hf.mem.trans hmem, fun hnot => hf.raised 0x0903 (by decide) (hraised hnot)⟩
  · intro s p f ev hst hh hg ht hn _ hseq from_ runs
    have hruns : nakRuns f.header (portAt s.m p) = runs := nakRuns_eq f.header (portAt s.m p)
    refine ⟨_, exec_flitReceive p f ev s, fun x hx hs hc hfrom => ?_, fun hl => ?_, fun hl => ?_⟩
    · exact nak_sentAgain hst hh hg ht hn hseq (sentAgain_nakAnswered f ev s.m (lt_of_receives hst) hx hs hc hfrom)
    · exact nak_limit hst hh hg ht hn hseq (hruns ▸ hl)
    · rw [← hruns]
      exact nak_below hst hh hg ht hn hseq (hruns ▸ hl)
  · intro s p hst hn
    have hp := lt_of_receives hst
    let m1 := timeTo ((portAt s.m p).nakAt + 20000) s.m
    have hport : portAt m1 p = portAt s.m p := rfl
    have hf := faultPath_sendNak p m1
    refine ⟨onM (fun m => sendNak p (timeTo ((portAt s.m p).nakAt + 20000) m)) s,
      congrArg Host.Outcome.next (if_pos (by rw [hn, receives_beq hst]; rfl)), nakSent_sendNak hp, rxLast_sendNak hp (m := m1), hf.time10,
      ?_, hf.mem, ctxs_sendNak p m1, sendNak_full hp (m := m1), fun hr => ?_⟩
    · exact (nakAt_sendNak hp (m := m1)).trans hf.time10.symm
    · obtain ⟨⟨g, hout, hnak, hack⟩, hseq⟩ := sendNak_room hp (m := m1) hr
      exact ⟨g, hout, hnak, hack, hseq⟩
  · intro s p h
    refine congrArg Host.Outcome.next (if_neg ?_)
    rcases h with hn | ⟨h5, h6⟩
    · simp [hn]
    · simp [h5, h6]
  · intro s p f ev h5 h6 hh
    refine ⟨_, exec_flitReceive p f ev s, ?_⟩
    rw [onM_m, flitTaken_unacked (linkReceive_deaf (m := wordsCounted ev s.m) h5 h6) hh rfl]
    exact ⟨rfl, rfl, rfl, rfl⟩

end Sys2Proof.Proofs
